-- ==== Sys2Proof/Word.lean ====
section
/-! DEFINITION. The byte type of every structure the part shares with the van computer (R179). -/

namespace Sys2Proof

/-- One byte of a register, record, page or frame. -/
abbrev Byte := BitVec 8

end Sys2Proof
end

