-- ==== Sys2Proof/Syntax.lean ====
section
/-! DEFINITION. The commands of the block: the names the manual gives its inputs, roles, streams and
lines, the bodies of the orders, and `Instr` with one constructor per row of spec/opcode_table.json. -/

namespace Sys2Proof

/-! ## Names -/

/-- The eight probe inputs (R21; numbered in this order by R179). -/
inductive Input where
  | v1 | v2 | v3 | v4 | i1 | i2 | i3 | i4
  deriving DecidableEq, Repr

/-- The role of an input in a channel map (R3). -/
inductive Role where
  | l1 | l2 | l3 | ne | n | unused
  deriving DecidableEq, Repr

/-- The four output streams (R115). -/
inductive Stream where
  | events | intervals | journal | captures
  deriving DecidableEq, Repr

/-- The four van lines (R159). -/
inductive VanLine where
  | ignition | mark | door | aux
  deriving DecidableEq, Repr

inductive Level where
  | low | high
  deriving DecidableEq, Repr

/-- The edge sense of a van line (R159). -/
inductive EdgeSense where
  | none | rising | falling | both
  deriving DecidableEq, Repr

/-- The action of a van line (R159). -/
inductive LineAction where
  | none | journal | pauseLiveSite | wake
  deriving DecidableEq, Repr

inductive Wiring where
  | single | wye | delta
  deriving DecidableEq, Repr

/-- The Slip rule of a site's options (R2, R83). -/
inductive SlipRule where
  | off | interruptions | depth
  deriving DecidableEq, Repr

/-- One value for each of the eight inputs. -/
structure PerInput (α : Type) where
  v1 : α
  v2 : α
  v3 : α
  v4 : α
  i1 : α
  i2 : α
  i3 : α
  i4 : α
  deriving DecidableEq, Repr

/-- One value for each of the four streams. -/
structure PerStream (α : Type) where
  events : α
  intervals : α
  journal : α
  captures : α
  deriving DecidableEq, Repr

/-- One value for each of the four van lines. -/
structure PerLine (α : Type) where
  ignition : α
  mark : α
  door : α
  aux : α
  deriving DecidableEq, Repr

/-- One value for each of the four current inputs. -/
structure PerClamp (α : Type) where
  i1 : α
  i2 : α
  i3 : α
  i4 : α
  deriving DecidableEq, Repr

/-- One value for each of the current inputs I1 to I3, which can hold an L role (R4). -/
structure PerPhase (α : Type) where
  i1 : α
  i2 : α
  i3 : α
  deriving DecidableEq, Repr

/-! ## Window references -/

/-- A window reference as its 8 bytes give it (R180): `reserved` is the value of bytes 5 to 7. -/
structure WRef where
  offset : Nat
  window : Nat
  reserved : Nat
  deriving DecidableEq, Repr

/-- The null reference (R180). -/
def WRef.null : WRef := ⟨0, 0, 0⟩

/-! ## Order bodies -/

/-- The values of a limits set (R6), in the units of the limits block. -/
structure Limits where
  sag : Nat
  hysteresis : Nat
  interruption : Nat
  settle : Nat
  longLimit : Nat
  anchorWindow : Nat
  depth : Nat
  intervalLength : Nat
  leadHoldoff : Nat
  clampHoldoff : Nat
  deriving DecidableEq, Repr

/-- The body of Create Site as the order gives it (R181); numbers may lie outside their ranges. -/
structure CreateSiteBody where
  label : Nat
  nominalVoltage : Nat
  frequency : Nat
  wiring : Nat
  options : Nat
  limitsGiven : Nat
  slipDepth : Nat
  limits : Limits
  deriving DecidableEq, Repr

/-- One map entry of a Set Map body (R181): the presence and verified fields are not used (R4). -/
structure MapEntryBody where
  role : Nat
  invert : Bool
  scale : Nat
  deriving DecidableEq, Repr

structure SetMapBody where
  label : Nat
  entries : PerInput MapEntryBody
  deriving DecidableEq, Repr

structure SetLimitsBody where
  label : Nat
  limits : Limits
  deriving DecidableEq, Repr

/-- The body of Add Note (R110); `text` is what follows the leading part in the body. -/
structure AddNoteBody where
  label : Nat
  author : Nat
  request : Nat
  event : Nat
  textLength : Nat
  text : List Byte
  deriving DecidableEq, Repr

/-- The body of Set Store Levels (R134): hold times in s, Pages Low mark, store high mark in %. -/
structure StoreLevels where
  hold : PerStream Nat
  pagesLow : Nat
  storeHigh : Nat
  deriving DecidableEq, Repr

/-- The body of Queue Print (R140); `items` is what follows the leading part in the body. -/
structure QueuePrintBody where
  copies : Nat
  itemCount : Nat
  items : List Byte
  deriving DecidableEq, Repr

/-- One line's setting in a Set Van Lines body (R161), as the bytes give it. -/
structure LineSettingBody where
  sense : Nat
  action : Nat
  deriving DecidableEq, Repr

/-- An order as the walker hands it to its block. The orders whose own rule judges a short result area
carry the length of that area (R181). -/
inductive Order where
  | createSite (b : CreateSiteBody)
  | setMap (b : SetMapBody)
  | setLimits (b : SetLimitsBody)
  | startSurvey (label : Nat) (unchecked : Bool)
  | pauseSurvey (label : Nat)
  | resumeSurvey (label : Nat)
  | closeSite (label : Nat)
  | discardSite (label : Nat)
  | readSite (label : Nat) (resultLength : Nat)
  | startCheck (label : Nat)
  | cancelCheck (label : Nat)
  | setClock (seconds : Nat) (milliseconds : Nat)
  | snapshot (label : Nat)
  | addNote (b : AddNoteBody)
  | givePages (count : Nat) (pages : List WRef) (resultLength : Nat)
  | flushStreams (mask : Nat) (resultLength : Nat)
  | setStoreLevels (levels : StoreLevels) (resultLength : Nat)
  | queuePrint (b : QueuePrintBody) (resultLength : Nat)
  | cancelPrint (job : Nat)
  | readPrintQueue (resultLength : Nat)
  | setPrinter (timeout : Nat)
  | setVanLines (lines : PerLine LineSettingBody) (resultLength : Nat)
  | away
  | rest
  deriving DecidableEq, Repr

/-! ## Operands of the other commands -/

/-- What comes back from the read of the anchor block (R172): its bytes, or the offset within the
anchor of the access that failed. -/
inductive AnchorRead where
  | complete (bytes : List Byte)
  | busError (offset : Nat)
  | timeout (offset : Nat)
  deriving DecidableEq, Repr

/-- The steps of self-test that can fail (R170). -/
inductive SelfTestStep where
  | storeAddress
  | storePattern
  | storeClear
  | converter (i : Input)
  | ringPattern
  | ringClear
  | printerData
  | printerStrobe
  deriving DecidableEq, Repr

/-- Which access of the running link an error belongs to (R177). -/
inductive AccessSel where
  | walker
  | delivery (s : Stream)
  | recordRead
  deriving DecidableEq, Repr

/-- The registers a plain write can reach without a behaviour of their own (R169). -/
inductive PlainRegister where
  | identity | controlStatus | anchor | fault
  deriving DecidableEq, Repr

/-! ## The commands -/

/-- One constructor per row of spec/opcode_table.json. `dt` is the time in milliseconds since the
command before (log 2); `ns` places a zero crossing within its millisecond (log 14); `sense`, and the
`phases` and `neutral` of a block's end, are sense levels of the clamps (log 5). -/
inductive Instr where
  -- power and registers
  | powerOn
  | reset (dt : Nat)
  | start (dt : Nat)
  | anchorReadDone (dt : Nat) (r : AnchorRead)
  | stop (dt : Nat)
  | back (dt : Nat)
  | nudge (dt : Nat) (value : BitVec 32)
  | attentionWrite (dt : Nat) (value : BitVec 32)
  | attentionMaskWrite (dt : Nat) (value : BitVec 32)
  | registerWrite (dt : Nat) (r : PlainRegister) (value : BitVec 64)
  | selfTestDone (dt : Nat) (failed : Option SelfTestStep)
  -- the walker and the bus
  | sweepExpiry (dt : Nat)
  | linkReadDone (dt : Nat) (link : WRef)
  | orderReadDone (dt : Nat) (bytes : List Byte)
  | resultWriteDone (dt : Nat)
  | doneWriteDone (dt : Nat)
  | busError (dt : Nat) (access : AccessSel)
  | accessTimeout (dt : Nat) (access : AccessSel)
  -- orders
  | createSite (b : CreateSiteBody)
  | setMap (b : SetMapBody)
  | setLimits (b : SetLimitsBody)
  | startSurvey (label : Nat) (unchecked : Bool) (sense : PerClamp Nat)
  | pauseSurvey (label : Nat)
  | resumeSurvey (label : Nat)
  | closeSite (label : Nat)
  | discardSite (label : Nat)
  | readSite (label : Nat) (resultLength : Nat)
  | startCheck (label : Nat) (sense : PerClamp Nat)
  | cancelCheck (label : Nat)
  | setClock (seconds : Nat) (milliseconds : Nat)
  | snapshot (label : Nat)
  | addNote (b : AddNoteBody)
  | givePages (count : Nat) (pages : List WRef) (resultLength : Nat)
  | flushStreams (mask : Nat) (resultLength : Nat)
  | setStoreLevels (levels : StoreLevels) (resultLength : Nat)
  | queuePrint (b : QueuePrintBody) (resultLength : Nat)
  | cancelPrint (job : Nat)
  | readPrintQueue (resultLength : Nat)
  | setPrinter (timeout : Nat)
  | setVanLines (lines : PerLine LineSettingBody) (resultLength : Nat)
  | away
  | rest
  | linkBecomesAway
  -- the Front End
  | cycleEnd (dt : Nat)
  | zeroCrossing (dt : Nat) (ns : Nat)
  | lockAcquired
  | halfCycleEnd (dt : Nat) (samples : PerInput (List Int))
  | blockEnd (dt : Nat) (phases : PerPhase Nat) (neutral : Nat)
  | clockWrap
  -- kit check and lead watch
  | presencePhaseEnd
  | rotationFound
  | associationComplete
  | lockWaitExpiry
  | leadsMoved
  | leadLost (dt : Nat) (input : Input) (ahead : Option (PerInput (List Int)))
  | leadRestored (input : Input)
  -- the Sag Monitor
  | settleDone (input : Input)
  | eventLong
  | captureComplete
  | eventRecordHandedOn (label : Nat)
  -- the Record Store
  | holdTimeExpiry (dt : Nat) (stream : Stream)
  | deliveryStart (stream : Stream)
  | pageWriteDone (dt : Nat) (stream : Stream)
  | pageLinkWriteDone (dt : Nat) (stream : Stream)
  -- the Print Engine
  | printJobStart
  | recordReadDone (dt : Nat) (bytes : List Byte)
  | busyRise (dt : Nat)
  | busyFall (dt : Nat)
  | paperOutChange (dt : Nat) (active : Bool)
  | headHotChange (dt : Nat) (active : Bool)
  | presentChange (dt : Nat) (active : Bool)
  | printerHoldCleared (dt : Nat)
  | printerStall (dt : Nat)
  | stallClear (dt : Nat)
  -- the Van Line Unit
  | vanLineChange (dt : Nat) (line : VanLine) (level : Level)
  | lineDebounced (dt : Nat) (line : VanLine)
  | wakeDelayEnd (dt : Nat)
  deriving DecidableEq, Repr

end Sys2Proof
end

