-- ==== Sys2Proof/Config.lean ====
section
/-! DEFINITION. What the manual fixes for the part as numbers, and the values it leaves open (opaque). -/

namespace Sys2Proof.Config

/-! ## Free values (log 9) -/

/-- The revision field of Identity (R169): the manual gives the field and no value. -/
opaque revision : BitVec 8

/-- The version shown in the pending limits block of a site summary (R17, 11.4): not 0 while a set is
pending, and otherwise not stated. Applied to the site's limits version. -/
opaque freePendingVersion : Nat → Nat

/-- The time that a Lead Restored entry gives for an input that was in Lost from the start of lead watch
(R53, R58): no loss was declared, and the manual states no time. In milliseconds, applied to the moment
and the input. -/
opaque freeLostTime : Nat → Nat

/-- The word printed for a named value whose number in a page's record is in no list of the manual
(R144, R179): the manual states none. -/
opaque freeName : Nat → List (BitVec 8)

/-- The field, at an offset and of a size, that the formatter takes past the end of a record it has read
(R147, R148): the manual states none. -/
opaque freeField : Nat → Nat → Nat

/-! ## Sizes and limits -/

/-- Slots of the site table (R1). -/
def slots : Nat := 8

/-- Counters stop here (R18, R101, R121). -/
def counterMax : Nat := 4294967295

/-- Site labels, limits versions, job numbers and mark counts (R1, R7, R136, R112). -/
def word16Max : Nat := 65535

/-- Size of the record store in bytes (R115). -/
def storeBytes : Nat := 524288

/-- The non-journal cap (R115). -/
def nonJournalCap : Nat := 491520

/-- Free space a capture must leave behind it (R115, R118). -/
def captureGuard : Nat := 65536

/-- Body of a page (R123). -/
def pageBody : Nat := 8128

/-- A page (R124). -/
def pageBytes : Nat := 8192

def poolMax : Nat := 256
def waitingMax : Nat := 64
def pinTableMax : Nat := 64
def printQueueMax : Nat := 8
def worstMax : Nat := 32
def ringCycles : Nat := 16
def textMax : Nat := 480

/-! ## Times in milliseconds -/

/-- The access timeout (chapter 10). -/
def accessTimeoutMs : Nat := 50

/-- Debounce of a van line (R159). -/
def debounceMs : Nat := 20

/-- Wake delay (R167). -/
def wakeDelayMs : Nat := 50

/-- Inactivity that clears a printer hold, and a stall declared with Busy low (R149, R152). -/
def printerClearMs : Nat := 1000

/-- Time a returning lead must stay present (R54, R56). -/
def confirmMs : Nat := 2000

/-- Length of the Presence phase (R41). -/
def presencePhaseMs : Nat := 1000

/-- Lock wait (R43). -/
def lockWaitMs : Nat := 10000

/-- The nominal period in nanoseconds (R25: 20 ms at 50 Hz, 16.667 ms at 60 Hz; log 14). -/
def nominalPeriodNs (frequency : Nat) : Nat := if frequency = 60 then 16666667 else 20000000

/-! ## Levels in 0.01 % -/

/-- Lowest reference RMS of a good cycle (R24). -/
def goodCycleLevel : Nat := 2000

/-- The presence level (R41, R47, R54). -/
def presenceLevel : Nat := 500

end Sys2Proof.Config
end

