-- ==== Sys2Proof/Machine/State.lean ====
section
/-! DEFINITION. Everything the manual gives the 4808, as plain data, and the state after power-on.
The blocks of "Structure of the part" (00) each have one field of `State`. -/

namespace Sys2Proof.Machine

/-- No command of the table stops the block with a fault: what the manual calls a fault (R177) is an
effect on State. Nothing raises one. -/
inductive Fault where
  deriving DecidableEq, Repr

/-- Refusals of a command. -/
inductive Refusal where
  /-- A command that has no meaning yet, by its row's mnemonic; raised by `exec` alone. Safe. No arm
  of `exec` raises it now. -/
  | notModelled (mnemonic : String)
  deriving DecidableEq, Repr

/-! ## Time -/

/-- A reading of the survey clock (R34, R35): seconds, milliseconds and the Clock Unset flag. -/
structure Time where
  sec : Nat
  ms : Nat
  unset : Bool
  deriving DecidableEq, Repr

/-- An instant: what the survey clock read, and the part's running milliseconds (log 2). -/
structure Stamp where
  time : Time
  up : Nat
  deriving DecidableEq, Repr

/-! ## Link Port (chapter 10) -/

inductive PartState where
  | selfTest | broken | running | resting
  deriving DecidableEq, Repr

inductive LinkState where
  | idle | attended | away | halted
  deriving DecidableEq, Repr

inductive FaultCause where
  | none | badAnchor | badLink | busError | accessTimeout
  deriving DecidableEq, Repr

inductive AccessKind where
  | anchorRead | linkRead | orderRead | resultWrite | pageWrite | pageLinkWrite | streamStartWrite
  | recordRead
  deriving DecidableEq, Repr

/-- The Fault register (R177); `window` 255 is the anchor (11.3). -/
structure FaultRegister where
  cause : FaultCause
  kind : AccessKind
  window : Nat
  offset : Nat
  deriving DecidableEq, Repr

/-- One access to van-computer memory in flight: its kind, the place the Fault register would name,
the bytes written (each run with its distance from `offset`; none for a read), and the running
milliseconds at its issue. -/
structure Access where
  kind : AccessKind
  window : Nat
  offset : Nat
  writes : List (Nat × List Byte)
  issued : Nat
  deriving DecidableEq, Repr

/-- An entry of the window table (R174, R180). -/
structure Window where
  base : Nat
  length : Nat
  read : Bool
  write : Bool
  deriving DecidableEq, Repr

/-- The result codes (00, 11.4). -/
inductive ResultCode where
  | ok | badOrder | badValue | badReference | unknownSite | duplicateSite | siteTableFull | wrongState
  | siteLive | siteInUse | recordsPending | journalFull | badAnchor | trackerBusy | queueFull
  | pinTableFull | freePage | unknownJob
  deriving DecidableEq, Repr

/-- The walker's position (R172, R176): the anchor, or its current order. -/
inductive WalkPosition where
  | anchor
  | order (at_ : WRef)
  deriving DecidableEq, Repr

/-- An order the walker has read and offers to its block (R175). -/
structure Offer where
  at_ : WRef
  bodyLength : Nat
  order : Order
  deriving DecidableEq, Repr

/-- What the walker is doing (R175, R176, R162). -/
inductive WalkPhase where
  | idle
  | readingLink (a : Access)
  | waiting (since : Nat)
  | readingOrder (at_ : WRef) (a : Access)
  | offering (o : Offer)
  | writingResult (at_ : WRef) (a : Access)
  | writingDone (at_ : WRef) (a : Access)
  | stopped
  deriving DecidableEq, Repr

inductive DepartureCause where
  | away | rest
  deriving DecidableEq, Repr

/-- A pending departure (R162). -/
structure Departure where
  cause : DepartureCause
  ordered : Stamp
  deriving DecidableEq, Repr

/-- The read of the anchor block in flight (R172). -/
structure AnchorAccess where
  address : Nat
  issued : Nat
  deriving DecidableEq, Repr

structure LinkPort where
  part : PartState
  selfTestCode : Nat
  link : LinkState
  anchor : BitVec 64
  attention : BitVec 32
  mask : BitVec 32
  fault : FaultRegister
  windows : Vector (Option Window) 16
  sweep : Nat
  anchorBase : Nat
  position : Option WalkPosition
  walker : WalkPhase
  departure : Option Departure
  /-- Back has dropped the departure of the order in hand before its Done write (R162, R165). -/
  waitsAfterDone : Bool
  awaySince : Option Stamp
  anchorRead : Option AnchorAccess
  deriving DecidableEq, Repr

/-! ## Site Controller (chapter 01) -/

/-- The states of a non-Empty slot (1.3); Empty is an empty slot of the table. -/
inductive SiteState where
  | drafted | checking | ready | surveying | paused | closed
  deriving DecidableEq, Repr

inductive CheckStatus where
  | never | passed | corrected | findings | unusable | aborted
  deriving DecidableEq, Repr

inductive UnusableReason where
  | noReference | clampConflict | noRotation | leadsMoved
  deriving DecidableEq, Repr

inductive ReturnState where
  | drafted | paused
  deriving DecidableEq, Repr

inductive Presence where
  | unknown | present | absent
  deriving DecidableEq, Repr

/-- A channel map entry (R3). -/
structure MapEntry where
  role : Role
  scale : Nat
  invert : Bool
  presence : Presence
  verified : Bool
  deriving DecidableEq, Repr

abbrev ChannelMap := PerInput MapEntry

/-- A site's options (R2). -/
structure SiteOptions where
  autoCorrect : Bool
  exportFlow : Bool
  slipRule : SlipRule
  slipDepth : Nat
  wakeOnInterruption : Bool
  deriving DecidableEq, Repr

/-- The counters of a site record, in the order of R18's table. -/
structure Counters where
  events : Nat
  intervals : Nat
  journal : Nat
  lostEvents : Nat
  lostIntervals : Nat
  lostCaptures : Nat
  lostJournal : Nat
  slipsSkipped : Nat
  deriving DecidableEq, Repr

/-! ## Sag Monitor (chapter 04) -/

inductive EventClass where
  | sag | interruption
  deriving DecidableEq, Repr

inductive EndCause where
  | recovered | long | leadLost | paused | closed
  deriving DecidableEq, Repr

/-- A capture outcome (R74); `collecting` while its tracker has not finished. -/
inductive CaptureOutcome where
  | collecting
  | admitted (id : Nat)
  | skipped
  | refused
  | abandoned
  | notTaken
  deriving DecidableEq, Repr

/-- A member of an event's channel set (R67). -/
structure Member where
  input : Input
  role : Role
  join : Nat
  minimum : Nat
  minOffset : Nat
  minMs : Nat
  lost : Bool
  deriving DecidableEq, Repr

/-- The open event (R66 to R68); `halves` counts the half-cycle sets taken since the opening one. -/
structure OpenEvent where
  number : Nat
  start : Stamp
  version : Nat
  limits : Limits
  halves : Nat
  members : List Member
  cls : EventClass
  onset : CaptureOutcome
  lossWaits : Bool
  deriving DecidableEq, Repr

/-- An event record (R74): also what the admission list holds (R75). -/
structure EventRecord where
  site : Nat
  number : Nat
  start : Time
  halves : Nat
  durationMs : Nat
  residual : Nat
  residualInput : Input
  residualOffset : Nat
  residualMs : Nat
  cls : EventClass
  members : List Member
  version : Nat
  endCause : EndCause
  onset : CaptureOutcome
  recovery : CaptureOutcome
  deriving DecidableEq, Repr

/-- An entry of a worst-event list (R82). -/
structure WorstEntry where
  number : Nat
  start : Time
  halves : Nat
  durationMs : Nat
  residual : Nat
  cls : EventClass
  deriving DecidableEq, Repr

/-- A closed event's number and end (R73). -/
structure LastClosed where
  number : Nat
  endTime : Time
  deriving DecidableEq, Repr

/-- The Sag Monitor's state for a slot (R60, R75). -/
structure SagSite where
  nextEvent : Nat
  nextCapture : Nat
  worst : List WorstEntry
  lastClosed : Option LastClosed
  admission : List EventRecord
  deriving DecidableEq, Repr

/-- A detector (R62); `due` says that the settle count has reached its end on the half-cycle set just
taken. -/
inductive Detector where
  | settling (count : Nat) (due : Bool)
  | normal
  | low
  | longHold
  | absent
  deriving DecidableEq, Repr

inductive CaptureKind where
  | onset | recovery | snapshot
  deriving DecidableEq, Repr

/-- A Collecting tracker (R76); `order` is its place in the order of claims. -/
structure Tracker where
  kind : CaptureKind
  site : Nat
  event : Nat
  trigger : Nat
  triggerStart : Time
  remaining : Nat
  claimed : Stamp
  order : Nat
  deriving DecidableEq, Repr

structure SagMonitor where
  detectors : PerInput (Option Detector)
  openEvent : Option OpenEvent
  trackers : Vector (Option Tracker) 4
  claims : Nat
  /-- The detector state that an input held when its loss was taken ahead of the value set of the
  half-cycle that ends (R64, R65). -/
  lostAhead : PerInput (Option Detector)
  deriving DecidableEq, Repr

/-! ## Journal (chapter 06) -/

/-- A journal state (R101, R105): `exhausted` after sequence 4,294,967,295 has been used. -/
structure JournalState where
  next : Nat
  exhausted : Bool
  lostRun : Nat
  saturated : Bool
  deriving DecidableEq, Repr

structure DeviceJournal where
  state : JournalState
  lostTotal : Nat
  deriving DecidableEq, Repr

/-- A site record (R2) with what the Sag Monitor, the Interval Aggregator and the Journal keep for a
non-Empty slot (R60, R85, R101). -/
structure Site where
  label : Nat
  state : SiteState
  nominalVoltage : Nat
  frequency : Nat
  wiring : Wiring
  options : SiteOptions
  active : Limits
  pendingSet : Option Limits
  version : Nat
  map : ChannelMap
  checkStatus : CheckStatus
  unusable : Option UnusableReason
  returnState : Option ReturnState
  counters : Counters
  created : Time
  started : Option Time
  closed : Option Time
  openEvent : Nat
  pins : Nat
  sag : SagSite
  nextInterval : Nat
  journal : JournalState
  deriving DecidableEq, Repr

/-! ## Front End (chapter 02) -/

inductive ClockState where
  | stopped | seeking | locked | freeRun
  deriving DecidableEq, Repr

inductive SenseClass where
  | fitted | opened | short
  deriving DecidableEq, Repr

/-- A cycle in the sample ring (R33). -/
structure RingCycle where
  number : Nat
  start : Time
  locked : Bool
  scales : PerInput Nat
  inverts : PerInput Bool
  points : PerInput (List Int)
  deriving DecidableEq, Repr

/-- A zero crossing of the reference: its instant in nanoseconds of the part's running time, and the
frequency measured since the crossing before it, in 0.001 Hz (R25). -/
structure Crossing where
  at_ : Nat
  frequency : Option Nat
  deriving DecidableEq, Repr

/-- The half-cycle value of one input: its role, and its RMS in 0.01 V and in 0.01 % of nominal (R28). -/
structure HalfValue where
  role : Role
  rms : Nat
  percent : Nat
  deriving DecidableEq, Repr

/-- A half-cycle value set (R28). -/
structure ValueSet where
  number : Nat
  endTime : Time
  locked : Bool
  values : PerInput (Option HalfValue)
  deriving DecidableEq, Repr

structure FrontEnd where
  clock : ClockState
  good : Nat
  reference : Option Input
  /-- A reference that takes over at the end of the cycle in progress (R27). -/
  nextReference : Option (Option Input)
  halfCount : Nat
  cycleCount : Nat
  blockCount : Nat
  halvesInCycle : Nat
  cyclesInBlock : Nat
  cycleStart : Stamp
  blockStart : Stamp
  /-- The end of the last half-cycle taken, and that of the half-cycle before it. -/
  lastHalfEnd : Stamp
  lastHalfStart : Stamp
  /-- The start of the cycle in progress in nanoseconds beyond the milliseconds of `cycleStart`. -/
  cycleNs : Nat
  cycleLocked : Bool
  /-- The zero crossings of the reference since the start of the cycle in progress (R25). -/
  crossings : List Crossing
  /-- The last zero crossing of the reference, in nanoseconds (R25). -/
  lastCrossing : Option Nat
  lockedCycles : Nat
  frequencies : List Nat
  mapInForce : Option ChannelMap
  mapChanged : Bool
  absentInBlock : PerInput Bool
  samples : PerInput (List Int)
  squares : PerInput Nat
  cycleSquares : PerInput Nat
  /-- The block's scaled samples, added up over its cycles point by point of the cycle; an empty list
  stands for zeros (R32). -/
  waves : PerInput (List Int)
  ring : List RingCycle
  sense : PerClamp (Option SenseClass)
  lastPulse : Stamp
  /-- The half-cycle value set handed on last (R28). -/
  lastSet : Option ValueSet
  deriving DecidableEq, Repr

/-! ## Kit Check Unit (chapter 03) -/

inductive CheckPhase where
  | presence | rotation | association
  deriving DecidableEq, Repr

inductive PresenceResult where
  | present | absent | fitted | opened | short | notJudged | notUsed | notReached
  deriving DecidableEq, Repr

inductive RotationResult where
  | abc | acb | indeterminate | notApplicable | notReached
  deriving DecidableEq, Repr

inductive Polarity where
  | normal | reversed
  deriving DecidableEq, Repr

/-- A clamp's outcome for one Association block (R45). -/
inductive BlockOutcome where
  | candidate (voltage : Input) (polarity : Polarity)
  | lowCurrent
  | noCandidate
  | twoCandidates
  deriving DecidableEq, Repr

/-- A clamp's association result (R46). -/
inductive Association where
  | associated (voltage : Input) (polarity : Polarity)
  | lowCurrent
  | noCandidate
  | twoCandidates
  | unstable
  | notReached
  deriving DecidableEq, Repr

/-- The check record's part for one input (R38). -/
structure InputCheck where
  roleAtStart : Role
  squares : Nat
  measures : Nat
  presence : PresenceResult
  level : Nat
  outcomes : List BlockOutcome
  moved : Nat
  deriving DecidableEq, Repr

/-- The check record (R38). -/
structure CheckRecord where
  slot : Fin 8
  phase : CheckPhase
  phaseStart : Stamp
  inputs : PerInput InputCheck
  /-- The end of the half-cycle that ends the Presence phase, once there is one (R41). -/
  presenceEnd : Option Stamp
  rotation : RotationResult
  run : Nat
  runPattern : Option RotationResult
  runEnd : Stamp
  lockWaitStart : Stamp
  lockWaitDue : Bool
  deriving DecidableEq, Repr

inductive LeadStatus where
  | present | doubtful | lost | returning
  deriving DecidableEq, Repr

/-- Lead watch on one input (R53 to R58): `run` is the start of the loss run or open time, `last` the
last measure or sense level, and `due` the holdoff that the loss run or open time had reached when that
measure or level was judged. -/
structure LeadState where
  status : LeadStatus
  run : Option Stamp
  due : Option Nat
  confirm : Option Stamp
  lostAt : Option Stamp
  last : Nat
  deriving DecidableEq, Repr

/-! ## Interval Aggregator (chapter 05) -/

/-- One input's result in a block (R31); `harmonics` absent is the No Fundamental flag. -/
structure InputResult where
  role : Role
  throughout : Bool
  rms : Nat
  fundamental : Nat
  harmonics : Option (List Nat)
  angle : Option Nat
  deriving DecidableEq, Repr

/-- The results of one block (R31). -/
structure BlockResult where
  number : Nat
  endTime : Time
  cycles : Nat
  lockedCycles : Nat
  frequency : Option Nat
  reference : Option Input
  mapChanged : Bool
  roles : PerInput Role
  results : PerInput (Option InputResult)
  deriving DecidableEq, Repr

/-- A detector report (R65). -/
structure DetectorReport where
  half : Nat
  detectors : PerInput (Option Detector)
  deriving DecidableEq, Repr

/-- A channel accumulator (R93, R94); `orders` holds sum and highest of each order from 1. -/
structure Channel where
  role : Role
  appeared : Bool
  lost : Bool
  unverified : Bool
  counted : Nat
  /-- Counted blocks that were not marked (R97: the cause No Fundamental). -/
  unmarked : Nat
  rmsLow : Nat
  rmsHigh : Nat
  rmsSquares : Nat
  harmonic : Nat
  thdSum : Nat
  thdHigh : Nat
  orders : List (Nat × Nat)
  deriving DecidableEq, Repr

/-- The current interval (R86). -/
structure Interval where
  slot : Fin 8
  label : Nat
  start : Time
  /-- The boundary at which it is due to close, in milliseconds of survey time. -/
  endMs : Nat
  startedLate : Bool
  version : Nat
  length : Nat
  depth : Nat
  unsetSeen : Bool
  total : Nat
  marked : Nat
  unlocked : Nat
  freqCount : Nat
  freqLow : Nat
  freqHigh : Nat
  freqSum : Nat
  channels : PerInput Channel
  held : List BlockResult
  reports : List DetectorReport
  /-- End of the last block that belonged to it (R90). -/
  lastBlock : Option Time
  deriving DecidableEq, Repr

inductive IntervalEnd where
  | boundary | paused | closed | clockWrap
  deriving DecidableEq, Repr

inductive NoHarmonics where
  | noneCounted | allMarked | noFundamental
  deriving DecidableEq, Repr

/-- A channel sub-record (R99); an absent RMS or harmonic part is `none` or a cause. -/
structure SubRecord where
  input : Input
  role : Role
  lost : Bool
  unverified : Bool
  counted : Nat
  harmonic : Nat
  rms : Option (Nat × Nat × Nat)
  thd : Nat × Nat
  orders : List (Nat × Nat)
  noHarmonics : Option NoHarmonics
  deriving DecidableEq, Repr

/-- An interval record (R98). -/
structure IntervalRecord where
  site : Nat
  number : Nat
  start : Time
  unsetSeen : Bool
  length : Nat
  spanMs : Nat
  startedLate : Bool
  endedEarly : Bool
  endCause : IntervalEnd
  version : Nat
  depth : Nat
  total : Nat
  marked : Nat
  unlocked : Nat
  frequency : Option (Nat × Nat × Nat)
  channels : List SubRecord
  deriving DecidableEq, Repr

/-! ## Journal entries (R102, R103) -/

inductive Edge where
  | rising | falling
  deriving DecidableEq, Repr

inductive LineOutcome where
  | paused | notSurveying | noSite
  deriving DecidableEq, Repr

inductive ReferenceCause where
  | leadLost | leadRestored | mapChanged
  deriving DecidableEq, Repr

inductive SnapshotOutcome where
  | admitted (id : Nat)
  | refused
  | abandoned
  deriving DecidableEq, Repr

inductive JobOwner where
  | order | slip
  deriving DecidableEq, Repr

inductive JobOutcome where
  | done | cancelledOrder | cancelledStop | failedLink | failedStall
  deriving DecidableEq, Repr

/-- What has called the van computer (R164). -/
inductive WakeSource where
  | none
  | storeHigh
  | interruption (site : Nat) (event : Nat)
  | line (l : VanLine)
  | back
  | reset
  deriving DecidableEq, Repr

inductive CheckVerdict where
  | passed | corrected | findings
  | unusable (reason : UnusableReason)
  | cancelled
  | closed
  deriving DecidableEq, Repr

inductive PhaseEnded where
  | presence | rotation | association | verdict
  deriving DecidableEq, Repr

/-- The findings of an input (R48). -/
structure Findings where
  rotation : Bool
  otherPhase : Bool
  reversed : Bool
  undetermined : Bool
  notFitted : Bool
  short : Bool
  deriving DecidableEq, Repr

/-- A finding block with the input's correction (R51). -/
structure FindingBlock where
  roleAtStart : Role
  presence : PresenceResult
  level : Nat
  association : Option Association
  roleFound : Option Role
  polarity : Option Polarity
  findings : Findings
  verified : Bool
  roleAfter : Role
  invertBefore : Bool
  invertAfter : Bool
  causeRotation : Bool
  causeOtherPhase : Bool
  causeReversed : Bool
  causeDisplaced : Bool
  deriving DecidableEq, Repr

/-- The content of a Check Report entry (R51). -/
structure CheckReport where
  verdict : CheckVerdict
  phase : PhaseEnded
  rotation : RotationResult
  returnState : ReturnState
  left : SiteState
  blocks : PerInput FindingBlock
  deriving DecidableEq, Repr

/-- The content of a Print Ended entry (R154). -/
structure PrintEnded where
  job : Nat
  owner : JobOwner
  outcome : JobOutcome
  copies : Nat
  site : Nat
  event : Nat
  lines : Nat
  item : Nat
  line : Nat
  deriving DecidableEq, Repr

/-- The kind of a journal entry with what its kind carries (R103, 11.5). -/
inductive EntryBody where
  | note (text : List Byte)
  | mark (edge : Edge) (count : Nat) (edgeTime : Time)
  | line (l : VanLine) (edge : Edge) (after : Level) (outcome : Option LineOutcome) (edgeTime : Time)
  | created (voltage : Nat) (frequency : Nat) (wiring : Wiring) (options : SiteOptions)
  | checkStarted (ret : ReturnState) (wiring : Wiring) (options : SiteOptions) (version : Nat)
  | started (version : Nat) (unchecked : Bool)
  | paused (cause : Option VanLine)
  | resumed
  | closed (was : SiteState)
  | mapChanged (map : ChannelMap)
  | checkReport (r : CheckReport)
  | leadLost (input : Input) (role : Role) (holdoff : Nat) (last : Nat) (since : Time)
  | leadRestored (input : Input) (role : Role) (lostAt : Time) (confirm : Time)
  | referenceMoved (previous : Option Input) (new : Option Input) (cause : ReferenceCause)
      (clock : ClockState)
  | limitsApplied (version : Nat) (limits : Limits)
  | snapshot (outcome : SnapshotOutcome) (tracker : Nat) (ordered : Time) (trigger : Time)
  | captureDiscarded (id : Nat) (event : Nat) (bytes : Nat) (pieces : Nat) (kind : CaptureKind)
      (forcing : Stream) (forcingSite : Nat) (admitted : Time)
  | slipSkipped (event : Nat) (value : Nat)
  | printEnded (p : PrintEnded)
  | clockSet (old : Time) (new : Time)
  | away (cause : DepartureCause) (pool : Nat) (occupancy : Nat) (ordered : Time)
  | back (source : WakeSource) (wakeBefore : Level) (occupancy : Nat) (wentAway : Time)
  | woke (source : WakeSource) (restBegan : Time) (exitTaken : Time)
  deriving DecidableEq, Repr

/-- The anchor of an entry (R107). -/
inductive Anchor where
  | none
  | openEvent (event : Nat)
  | recentEvent (event : Nat)
  | namedEvent (event : Nat)
  | ownEvent (event : Nat)
  deriving DecidableEq, Repr

/-- A journal entry (R102). -/
structure JournalEntry where
  site : Nat
  sequence : Nat
  time : Time
  late : Bool
  saturated : Bool
  lostBefore : Nat
  anchor : Anchor
  author : Nat
  body : EntryBody
  deriving DecidableEq, Repr

/-- A capture piece (R78); `cycle` absent is the Not Sampled flag. -/
structure CapturePiece where
  site : Nat
  capture : Nat
  kind : CaptureKind
  event : Nat
  piece : Nat
  start : Time
  cycle : Option RingCycle
  deriving DecidableEq, Repr

/-! ## Record Store (chapter 07) -/

inductive Record where
  | event (r : EventRecord)
  | interval (r : IntervalRecord)
  | journal (r : JournalEntry)
  | piece (r : CapturePiece)
  deriving DecidableEq, Repr

/-- A queued record (R123). -/
structure Queued where
  record : Record
  length : Nat
  site : Nat
  admitted : Time
  due : Bool
  inDelivery : Bool
  deriving DecidableEq, Repr

/-- A page: its reference and the bus address it converts to (R124). -/
structure Page where
  ref : WRef
  bus : Nat
  deriving DecidableEq, Repr

/-- An entry of the pin table (R127). -/
structure PinEntry where
  page : Page
  count : Nat
  deriving DecidableEq, Repr

inductive DeliveryStage where
  | records | header | link
  deriving DecidableEq, Repr

/-- A delivery in flight (R129, R130); `lostInHeader` is the lost since page its header carries. -/
structure Delivery where
  page : Page
  stage : DeliveryStage
  count : Nat
  full : Bool
  held : Bool
  lostInHeader : Nat
  access : Access
  deriving DecidableEq, Repr

structure RecordStore where
  queues : PerStream (List Queued)
  levels : StoreLevels
  lostTotal : PerStream Nat
  lostSincePage : PerStream Nat
  pool : List Page
  waiting : List Page
  pins : List PinEntry
  tails : PerStream (Option Page)
  deliveries : PerStream (Option Delivery)
  pageSequence : PerStream Nat
  deriving DecidableEq, Repr

/-! ## Print Engine (chapter 08) -/

/-- An item of a print job (R139), with its fields read from the order or given by the slip. -/
inductive Item where
  | text (t : List Byte)
  | siteHeader (site : Nat) (short : Bool)
  | eventTable (site : Nat) (rows : Nat)
  | eventLine (r : EventRecord)
  | interval (site : Nat) (page : Page) (offset : Nat)
  | note (site : Nat) (page : Page) (offset : Nat)
  | captureStrip (site : Nat) (page : Page) (offset : Nat) (input : Input)
  | feed (lines : Nat)
  | rule
  deriving DecidableEq, Repr

/-- One line to print: 42 characters, or 42 bytes of dots (R144). -/
inductive PrintLine where
  | text (bytes : List Byte)
  | raster (bytes : List Byte)
  deriving DecidableEq, Repr

inductive HoldReason where
  | paper | heat | link
  deriving DecidableEq, Repr

inductive JobState where
  | queued
  | printing
  | held (reason : HoldReason)
  deriving DecidableEq, Repr

/-- A job record (R137); `item` and `line` count from 1. -/
structure Job where
  number : Nat
  owner : JobOwner
  state : JobState
  cancelPending : Bool
  copies : Nat
  copy : Nat
  items : List Item
  item : Nat
  line : Nat
  content : Option (List PrintLine)
  lines : Nat
  sites : List Nat
  pages : List Page
  event : Nat
  created : Time
  deriving DecidableEq, Repr

/-- The printer line states (R149, numbered by 11.3). -/
inductive PrinterLine where
  | absent | ready | sending | heldPaper | heldHeat | stalled
  deriving DecidableEq, Repr

/-- A frame in progress (R150): the bytes not yet ended, the current one first, and the handshake
timer's start; `abandoned` when a Stop left only the current byte to finish (R156). -/
structure Frame where
  bytes : List Byte
  timer : Nat
  abandoned : Bool
  deriving DecidableEq, Repr

/-- A declared stall (R152). -/
structure Stall where
  busyLow : Bool
  since : Nat
  deriving DecidableEq, Repr

inductive ReadStage where
  | header
  | rest (header : List Byte)
  deriving DecidableEq, Repr

/-- A record read in flight (R143). -/
structure RecordRead where
  job : Nat
  stage : ReadStage
  access : Access
  deriving DecidableEq, Repr

structure PrintEngine where
  jobs : List Job
  nextJob : Nat
  timeout : Nat
  read : Option RecordRead
  line : PrinterLine
  /-- The line is judged: after self-test, and not while Resting (R149). -/
  judged : Bool
  paperHold : Option Nat
  heatHold : Option Nat
  stall : Option Stall
  frame : Option Frame
  /-- Pins the part drives. -/
  strobe : Bool
  data : Byte
  /-- Pins the printer drives. -/
  busy : Bool
  paperOut : Bool
  headHot : Bool
  present : Bool
  deriving DecidableEq, Repr

/-! ## Van Line Unit (chapter 09) -/

/-- A van line (R159); `settling` is the instant since which the raw level has held while the first
level after a reset has not been taken yet. -/
structure LineState where
  sense : EdgeSense
  action : LineAction
  level : Level
  pendingChange : Option Stamp
  raw : Level
  settling : Option Nat
  deriving DecidableEq, Repr

/-- The exit taken from Rest (R167). -/
structure RestExit where
  source : WakeSource
  at_ : Stamp
  backRemembered : Bool
  deriving DecidableEq, Repr

/-- Rest (R166, R167). -/
structure RestRecord where
  began : Stamp
  exit : Option RestExit
  deriving DecidableEq, Repr

structure VanLines where
  lines : PerLine LineState
  nextMark : Nat
  wake : Level
  source : WakeSource
  /-- Present while Resting, and after a Reset that ended Rest until self-test is over. -/
  rest : Option RestRecord
  deriving DecidableEq, Repr

/-! ## The state -/

structure State where
  pending : List Instr
  up : Nat
  clock : Time
  lp : LinkPort
  sites : Vector (Option Site) 8
  fe : FrontEnd
  check : Option CheckRecord
  watch : PerInput (Option LeadState)
  sag : SagMonitor
  interval : Option Interval
  device : DeviceJournal
  store : RecordStore
  print : PrintEngine
  van : VanLines
  deriving DecidableEq, Repr

/-! ## Reset values -/

def PerInput.same {α : Type} (x : α) : PerInput α := ⟨x, x, x, x, x, x, x, x⟩

def PerStream.same {α : Type} (x : α) : PerStream α := ⟨x, x, x, x⟩

def Time.zero : Time := ⟨0, 0, true⟩

def Stamp.zero : Stamp := ⟨Time.zero, 0⟩

/-- The Link Port after power-on and Reset (R169 to R171). -/
def LinkPort.reset : LinkPort where
  part := .selfTest
  selfTestCode := 0
  link := .idle
  anchor := 0
  attention := 0
  mask := 0
  fault := ⟨.none, .anchorRead, 0, 0⟩
  windows := Vector.replicate 16 none
  sweep := 0
  anchorBase := 0
  position := none
  walker := .idle
  departure := none
  waitsAfterDone := false
  awaySince := none
  anchorRead := none

/-- The Front End while no site is live (R37). -/
def FrontEnd.reset : FrontEnd where
  clock := .stopped
  good := 0
  reference := none
  nextReference := none
  halfCount := 0
  cycleCount := 0
  blockCount := 0
  halvesInCycle := 0
  cyclesInBlock := 0
  cycleStart := Stamp.zero
  blockStart := Stamp.zero
  lastHalfEnd := Stamp.zero
  lastHalfStart := Stamp.zero
  cycleNs := 0
  cycleLocked := false
  crossings := []
  lastCrossing := none
  lockedCycles := 0
  frequencies := []
  mapInForce := none
  mapChanged := false
  absentInBlock := PerInput.same false
  samples := PerInput.same []
  squares := PerInput.same 0
  cycleSquares := PerInput.same 0
  waves := PerInput.same []
  ring := []
  sense := ⟨none, none, none, none⟩
  lastPulse := Stamp.zero
  lastSet := none

/-- The Sag Monitor after power-on and Reset (R61, R76). -/
def SagMonitor.reset : SagMonitor where
  detectors := PerInput.same none
  openEvent := none
  trackers := Vector.replicate 4 none
  claims := 0
  lostAhead := PerInput.same none

/-- A journal that begins (R101). -/
def JournalState.fresh : JournalState := ⟨1, false, 0, false⟩

/-- The Record Store after power-on and Reset (R116, R135). -/
def RecordStore.reset : RecordStore where
  queues := PerStream.same []
  levels := ⟨⟨1, 0, 2, 0⟩, 8, 75⟩
  lostTotal := PerStream.same 0
  lostSincePage := PerStream.same 0
  pool := []
  waiting := []
  pins := []
  tails := PerStream.same none
  deliveries := PerStream.same none
  pageSequence := PerStream.same 0

/-- The Print Engine after power-on and Reset (R136), with the printer's pins inactive (log 10). -/
def PrintEngine.reset : PrintEngine where
  jobs := []
  nextJob := 1
  timeout := 10
  read := none
  line := .absent
  judged := false
  paperHold := none
  heatHold := none
  stall := none
  frame := none
  strobe := false
  data := 0
  busy := false
  paperOut := false
  headHot := false
  present := false

/-- A van line with its settings after power-on and Reset (R159) at a raw level. -/
def LineState.reset (sense : EdgeSense) (action : LineAction) (raw : Level) (now : Nat) : LineState :=
  ⟨sense, action, raw, none, raw, some now⟩

/-- The Van Line Unit after power-on and Reset (R159, R168) at the given raw levels. -/
def VanLines.reset (raw : PerLine Level) (now : Nat) : VanLines where
  lines := ⟨LineState.reset .rising .journal raw.ignition now,
            LineState.reset .falling .journal raw.mark now,
            LineState.reset .both .journal raw.door now,
            LineState.reset .none .none raw.aux now⟩
  nextMark := 1
  wake := .low
  source := .none
  rest := none

/-- The machine right after power-on: every block at its reset value and self-test begun (R171). -/
def State.reset : State where
  pending := []
  up := 0
  clock := Time.zero
  lp := LinkPort.reset
  sites := Vector.replicate 8 none
  fe := FrontEnd.reset
  check := none
  watch := PerInput.same none
  sag := SagMonitor.reset
  interval := none
  device := ⟨JournalState.fresh, 0⟩
  store := RecordStore.reset
  print := PrintEngine.reset
  van := VanLines.reset ⟨.low, .low, .low, .low⟩ 0

end Sys2Proof.Machine
end

