-- ==== Sys2Proof/Machine/Arith.lean ====
section
/-! DEFINITION. The arithmetic the manual's figures need: rounding (R22), square roots, angles (R32) and
the calendar (00, Time). -/

namespace Sys2Proof.Machine

/-! ## Time between two readings -/

/-- Milliseconds from one reading of the survey clock to a later one, across a wrap too (R34, R98). -/
def msBetween (start fin : Nat) : Nat := (fin + 4294967296000 - start) % 4294967296000

/-! ## Rounding -/

/-- `a / b` to the nearest unit, halves away from zero (R22). -/
def roundDiv (a b : Nat) : Nat := (2 * a + b) / (2 * b)

/-- The mean of two counts to the nearest unit, halves away from zero (R22, R33). -/
def meanOfTwo (a b : Int) : Int :=
  match a + b with
  | .ofNat n => .ofNat ((n + 1) / 2)
  | .negSucc n => -(.ofNat ((n + 2) / 2))

/-- The largest `r < 2 ^ k`, at or above a given start, whose square is at most `n`: bit by bit. -/
def isqrtBits : Nat → Nat → Nat → Nat
  | 0, _, r => r
  | k + 1, n, r =>
    if (r + 2 ^ k) * (r + 2 ^ k) ≤ n then isqrtBits k n (r + 2 ^ k) else isqrtBits k n r

/-- The integer square root of a number below 2 ^ 128. -/
def isqrt (n : Nat) : Nat := isqrtBits 64 n 0

/-- The square root of `a / b` to the nearest unit (R22). -/
def roundSqrt (a b : Nat) : Nat := (isqrt (4 * a / b) + 1) / 2

/-- A counter of 32 bits that stops at its largest value (R18, R101, R121). -/
def satAdd (a n : Nat) : Nat := min (a + n) Config.counterMax

/-- The 16-bit numbers from 1 that wrap to 1 (R7, R112, R136). -/
def nextFrom1 (n : Nat) : Nat := if n ≥ Config.word16Max then 1 else n + 1

/-! ## Angles -/

/-- `a - b` modulo 3600, for angles in 0.1°. -/
def angleSub (a b : Nat) : Nat := (a % 3600 + 3600 - b % 3600) % 3600

/-- The shorter way round the circle between two angles, 0 to 1800 (R45). -/
def angleDistance (a b : Nat) : Nat := min (angleSub a b) (angleSub b a)

/-! ## Time -/

/-- Milliseconds of survey time. -/
def Time.total (t : Time) : Nat := t.sec * 1000 + t.ms

/-- A calendar date and time of day. -/
structure Calendar where
  year : Nat
  month : Nat
  day : Nat
  hour : Nat
  minute : Nat
  second : Nat
  deriving DecidableEq, Repr

/-- A leap year of the Gregorian calendar (00, Time). -/
def isLeap (y : Nat) : Bool := y % 400 == 0 || (y % 4 == 0 && y % 100 != 0)

/-- The lengths of the months of a year (00, Time). -/
def monthLengths (y : Nat) : List Nat :=
  [31, if isLeap y then 29 else 28, 31, 30, 31, 30, 31, 31, 30, 31, 30, 31]

/-- The year that holds a day counted from the first of January of `y`, and the day within it. -/
def yearOfDay : Nat → Nat → Nat → Nat × Nat
  | 0, y, d => (y, d)
  | fuel + 1, y, d =>
    if d < (if isLeap y then 366 else 365) then (y, d)
    else yearOfDay fuel (y + 1) (d - if isLeap y then 366 else 365)

/-- The month, from 1, that holds a day of the year, and the day within it, from 1. -/
def monthOfDay : List Nat → Nat → Nat → Nat × Nat
  | [], m, d => (m, d + 1)
  | l :: ls, m, d => if d < l then (m, d + 1) else monthOfDay ls (m + 1) (d - l)

/-- The calendar reading of a count of seconds from 2000-01-01 00:00:00 (00, Time). -/
def calendar (sec : Nat) : Calendar :=
  let yd := yearOfDay 200 2000 (sec / 86400)
  let md := monthOfDay (monthLengths yd.1) 1 yd.2
  ⟨yd.1, md.1, md.2, sec % 86400 / 3600, sec % 3600 / 60, sec % 60⟩

end Sys2Proof.Machine
end

