-- ==== Sys2Proof/Machine/Tables.lean ====
section
/-! DEFINITION. Reading and writing one place of a table with one value for each input, stream, line or
clamp, and the numberings of R179. -/

namespace Sys2Proof

/-! ## Inputs -/

def PerInput.get {α : Type} (t : PerInput α) : Input → α
  | .v1 => t.v1 | .v2 => t.v2 | .v3 => t.v3 | .v4 => t.v4
  | .i1 => t.i1 | .i2 => t.i2 | .i3 => t.i3 | .i4 => t.i4

def PerInput.set {α : Type} (t : PerInput α) (i : Input) (x : α) : PerInput α :=
  match i with
  | .v1 => { t with v1 := x } | .v2 => { t with v2 := x }
  | .v3 => { t with v3 := x } | .v4 => { t with v4 := x }
  | .i1 => { t with i1 := x } | .i2 => { t with i2 := x }
  | .i3 => { t with i3 := x } | .i4 => { t with i4 := x }

/-- The table whose place for each input is given by a function of the input. -/
def PerInput.of {α : Type} (f : Input → α) : PerInput α :=
  ⟨f .v1, f .v2, f .v3, f .v4, f .i1, f .i2, f .i3, f .i4⟩

def PerInput.map {α β : Type} (f : α → β) (t : PerInput α) : PerInput β :=
  PerInput.of fun i => f (t.get i)

/-- Inputs in their numbering (R179): V1 to V4 are 0 to 3, I1 to I4 are 4 to 7. -/
def Input.all : List Input := [.v1, .v2, .v3, .v4, .i1, .i2, .i3, .i4]

def Input.voltages : List Input := [.v1, .v2, .v3, .v4]

def Input.currents : List Input := [.i1, .i2, .i3, .i4]

def Input.number : Input → Nat
  | .v1 => 0 | .v2 => 1 | .v3 => 2 | .v4 => 3 | .i1 => 4 | .i2 => 5 | .i3 => 6 | .i4 => 7

def Input.isVoltage : Input → Bool
  | .v1 | .v2 | .v3 | .v4 => true
  | .i1 | .i2 | .i3 | .i4 => false

def PerInput.toList {α : Type} (t : PerInput α) : List α := Input.all.map t.get

def Input.ofNumber (n : Nat) : Option Input := Input.all[n]?

/-! ## Roles -/

/-- An L-role (00, Terms). -/
def Role.isL : Role → Bool
  | .l1 | .l2 | .l3 => true
  | .ne | .n | .unused => false

def Role.number : Role → Nat
  | .l1 => 0 | .l2 => 1 | .l3 => 2 | .ne => 3 | .n => 4 | .unused => 5

def Role.ofNumber : Nat → Option Role
  | 0 => some .l1 | 1 => some .l2 | 2 => some .l3 | 3 => some .ne | 4 => some .n | 5 => some .unused
  | _ => none

/-! ## Streams -/

def PerStream.get {α : Type} (t : PerStream α) : Stream → α
  | .events => t.events | .intervals => t.intervals | .journal => t.journal | .captures => t.captures

def PerStream.set {α : Type} (t : PerStream α) (s : Stream) (x : α) : PerStream α :=
  match s with
  | .events => { t with events := x } | .intervals => { t with intervals := x }
  | .journal => { t with journal := x } | .captures => { t with captures := x }

def PerStream.map {α β : Type} (f : α → β) (t : PerStream α) : PerStream β :=
  ⟨f t.events, f t.intervals, f t.journal, f t.captures⟩

def Stream.all : List Stream := [.events, .intervals, .journal, .captures]

def Stream.number : Stream → Nat
  | .events => 0 | .intervals => 1 | .journal => 2 | .captures => 3

/-! ## Van lines -/

def PerLine.get {α : Type} (t : PerLine α) : VanLine → α
  | .ignition => t.ignition | .mark => t.mark | .door => t.door | .aux => t.aux

def PerLine.set {α : Type} (t : PerLine α) (l : VanLine) (x : α) : PerLine α :=
  match l with
  | .ignition => { t with ignition := x } | .mark => { t with mark := x }
  | .door => { t with door := x } | .aux => { t with aux := x }

def PerLine.of {α : Type} (f : VanLine → α) : PerLine α := ⟨f .ignition, f .mark, f .door, f .aux⟩

def VanLine.all : List VanLine := [.ignition, .mark, .door, .aux]

def VanLine.number : VanLine → Nat
  | .ignition => 0 | .mark => 1 | .door => 2 | .aux => 3

def PerLine.toList {α : Type} (t : PerLine α) : List α := VanLine.all.map t.get

/-! ## Clamps -/

/-- The place of a current input; a voltage input has none and reads the given value. -/
def PerClamp.get {α : Type} (t : PerClamp α) (d : α) : Input → α
  | .i1 => t.i1 | .i2 => t.i2 | .i3 => t.i3 | .i4 => t.i4
  | .v1 | .v2 | .v3 | .v4 => d

def PerClamp.set {α : Type} (t : PerClamp α) (i : Input) (x : α) : PerClamp α :=
  match i with
  | .i1 => { t with i1 := x } | .i2 => { t with i2 := x }
  | .i3 => { t with i3 := x } | .i4 => { t with i4 := x }
  | .v1 | .v2 | .v3 | .v4 => t

end Sys2Proof
end

