-- ==== Sys2Proof/Machine/Harmonics.lean ====
section
/-! DEFINITION. The arithmetic of the harmonic analysis (R32): the component of a harmonic order in a
block's samples, and the angle between two components. -/

namespace Sys2Proof.Machine

/-! ## Sine and cosine at the 256 points of a cycle -/

/-- The cosine at the first 65 of 256 points of a cycle, to 48 binary digits (log 41). -/
def cosQuarter : List Nat :=
  [281474976710656, 281390201710184, 281135927774060, 280712308067394, 280119597762857,
   279358153886975, 278428435105065, 277331001444957, 276066513959654, 274635734329132,
   273039524401543, 271278845674059, 269354758713711] ++
  [267268422518537, 265021093819447, 262614126323218, 260048969897066, 257327169695306,
   254450365228604, 251420289376400, 248238767343086, 244907715558569, 241429140523890,
   237805137602576, 234037889758477, 230129666240828] ++
  [226082821217338, 221899792356128, 217583099357370, 213135342435515, 208559200753021,
   203857430806525, 199032864766430, 194088408770919, 189027041175397, 183851810758447,
   178565834885359, 173172297630342, 167674447858562] ++
  [162075597269143, 156379118400326, 150588442597977, 144707057948671, 138738507178603,
   132686385519577, 126554338543377, 120346059965811, 114065289421750, 107715810212518,
   101301447026966, 94826063637631, 88293560573336] ++
  [81707872769660, 75072967198682, 68392840479422, 61671516470431, 54913043845964, 48121493657216,
   41300956880066, 34455541950835, 27589372291508, 20706583825946, 13811322488556, 6907741726938, 0]

/-- The cosine at a point of a cycle, times 2 ^ 48. -/
def cosAt (n : Nat) : Int :=
  let p := n % 256
  if p ≤ 64 then cosQuarter.getD p 0
  else if p ≤ 128 then -(cosQuarter.getD (128 - p) 0 : Int)
  else if p ≤ 192 then -(cosQuarter.getD (p - 128) 0 : Int)
  else cosQuarter.getD (256 - p) 0

/-- The sine at a point of a cycle, times 2 ^ 48. -/
def sinAt (n : Nat) : Int := cosAt (n + 192)

/-! ## Components (R32) -/

/-- A component of an order: its parts in phase with the cosine and the sine of that order. -/
structure Component where
  re : Int
  im : Int
  deriving DecidableEq, Repr

/-- The sum of the products of a run of points and a function of the phase, which advances by an order's
number at each point. -/
def correlate (f : Nat → Int) (order : Nat) : Nat → List Int → Int
  | _, [] => 0
  | phase, x :: xs => x * f phase + correlate f order ((phase + order) % 256) xs

/-- The component of an order in a wave of 256 points. A block's samples are added up point by point of
the cycle beforehand, which leaves the component of an order over the whole block as it is (log 41). -/
def component (order : Nat) (wave : List Int) : Component :=
  ⟨correlate cosAt order 0 wave, correlate sinAt order 0 wave⟩

/-- The square of a component's size. -/
def Component.power (c : Component) : Nat := c.re.natAbs * c.re.natAbs + c.im.natAbs * c.im.natAbs

/-- The RMS of a component in the wave of a number of cycles, whose points are in units of which `unit` is
the square's divisor (R32). -/
def Component.rms (c : Component) (unit cycles : Nat) : Nat :=
  roundSqrt (2 * c.power) (unit * (256 * cycles * (256 * cycles)) * 2 ^ 96)

/-- A component's size in 0.01 % of the fundamental's, limited to 65,535 (R32). -/
def Component.magnitude (c fundamental : Component) : Nat :=
  min 65535 (roundSqrt (100000000 * c.power) fundamental.power)

/-- The harmonic magnitudes of orders 1 to 50 of a wave (R32). -/
def harmonicsOf (wave : List Int) : List Nat :=
  let fundamental := component 1 wave
  10000 :: (List.range 49).map fun k => (component (k + 2) wave).magnitude fundamental

/-! ## Angles (R32) -/

/-- Angles of 0.05° times a power of 2, with their cosine and sine times 2 ^ 48 (log 41). -/
def rotations : List (Nat × Int × Int) :=
  [(1024, 176373293210620, 219364135528817),
   (512, 253843289366791, 121621326081044),
   (256, 274480141792570, 62360358207720),
   (128, 279720801901526, 31375715096737),
   (64, 281036090845093, 15712356817905),
   (32, 281365233850720, 7859242609440),
   (16, 281447539658445, 3930004385791),
   (8, 281468117364025, 1965050079780),
   (4, 281473261868774, 982531025805),
   (2, 281474547999859, 491266261144),
   (1, 281474869532936, 245633224102)]

/-- The greatest whole number of units of 0.05° in the angle of a vector of the first quadrant: the vector
is turned back by each angle that leaves it in the quadrant. -/
def anglePart : List (Nat × Int × Int) → Int → Int → Nat
  | [], _, _ => 0
  | (n, c, s) :: rest, x, y =>
    if 0 ≤ y * c - x * s then n + anglePart rest (x * c + y * s) (y * c - x * s) else anglePart rest x y

/-- The angle of a vector in units of 0.05°, from 0 to 7,199. -/
def angleUnits (x y : Int) : Nat :=
  if 0 < x ∧ 0 ≤ y then anglePart rotations x y
  else if x ≤ 0 ∧ 0 < y then 1800 + anglePart rotations y (-x)
  else if x < 0 ∧ y ≤ 0 then 3600 + anglePart rotations (-x) (-y)
  else if 0 ≤ x ∧ y < 0 then 5400 + anglePart rotations (-y) x
  else 0

/-- The angle by which a component lags another, in 0.1° from 0 to 3599 (R22, R32). -/
def Component.lag (c reference : Component) : Nat :=
  (angleUnits (c.re * reference.re + c.im * reference.im) (c.im * reference.re - c.re * reference.im) + 1)
    / 2 % 3600

end Sys2Proof.Machine
end

