-- ==== Sys2Proof/Machine/Bytes.lean ====
section
/-! DEFINITION. Byte order and padding (R179), in one place: little-endian fields, reserved bytes and
padding written 0, texts. -/

namespace Sys2Proof.Machine

/-- The `n` bytes of a little-endian field. -/
def le : Nat → Nat → List Byte
  | 0, _ => []
  | n + 1, v => BitVec.ofNat 8 v :: le n (v / 256)

/-- One byte. -/
def byte (v : Nat) : List Byte := [BitVec.ofNat 8 v]

/-- `n` bytes of 0: reserved space and padding. -/
def zeros (n : Nat) : List Byte := List.replicate n 0

/-- The number that a little-endian run of bytes holds. -/
def fromLe : List Byte → Nat
  | [] => 0
  | b :: bs => b.toNat + 256 * fromLe bs

/-- The little-endian field of `n` bytes at an offset; bytes beyond the end read 0. -/
def field (bytes : List Byte) (offset n : Nat) : Nat := fromLe ((bytes.drop offset).take n)

/-- A bit of a number. -/
def bit (v k : Nat) : Bool := v.testBit k

/-- The number whose bit 0 is the first truth value of a list, and so on. -/
def ofBits : List Bool → Nat
  | [] => 0
  | b :: bs => b.toNat + 2 * ofBits bs

/-- `n` rounded up to a multiple of 4 (R179). -/
def pad4 (n : Nat) : Nat := (n + 3) / 4 * 4

/-- A run of bytes with its padding. -/
def padded (bytes : List Byte) : List Byte := bytes ++ zeros (pad4 bytes.length - bytes.length)

/-- A run of bytes cut or filled with 0 to a length. -/
def fitTo (n : Nat) (bytes : List Byte) : List Byte := (bytes ++ zeros (n - bytes.length)).take n

/-- A text byte as the part stores it: any byte outside 32 to 126 becomes "?" (R179). -/
def textByte (b : Byte) : Byte := if 32 ≤ b.toNat ∧ b.toNat ≤ 126 then b else 63

/-- The bytes of a word. -/
def ascii (s : String) : List Byte := s.toList.map fun c => BitVec.ofNat 8 c.toNat

/-- A signed 16-bit field in two's complement (R179). -/
def le16s (v : Int) : List Byte := le 2 (BitVec.ofInt 16 v).toNat

/-- The value of a signed 16-bit field. -/
def signed16 (n : Nat) : Int := (BitVec.ofNat 16 n).toInt

end Sys2Proof.Machine
end

