-- ==== Sys2Proof/Machine/Formats.lean ====
section
/-! DEFINITION. The layouts of chapter 11 that do not depend on the whole state: the numbers of named
values (R179), references, time blocks, limits blocks, map entries, and the bytes of every record. -/

namespace Sys2Proof.Machine

/-! ## Named values (R179: numbered from 0 in the list that defines the field, 255 for none or absent) -/

/-- A field that may be absent. -/
def orNone {α : Type} (f : α → Nat) : Option α → Nat
  | some x => f x
  | none => 255

def PartState.number : PartState → Nat
  | .selfTest => 0 | .broken => 1 | .running => 2 | .resting => 3

def LinkState.number : LinkState → Nat
  | .idle => 0 | .attended => 1 | .away => 2 | .halted => 3

def FaultCause.number : FaultCause → Nat
  | .none => 0 | .badAnchor => 1 | .badLink => 2 | .busError => 3 | .accessTimeout => 4

def AccessKind.number : AccessKind → Nat
  | .anchorRead => 0 | .linkRead => 1 | .orderRead => 2 | .resultWrite => 3 | .pageWrite => 4
  | .pageLinkWrite => 5 | .streamStartWrite => 6 | .recordRead => 7

def ResultCode.number : ResultCode → Nat
  | .ok => 0 | .badOrder => 1 | .badValue => 2 | .badReference => 3 | .unknownSite => 4
  | .duplicateSite => 5 | .siteTableFull => 6 | .wrongState => 7 | .siteLive => 8 | .siteInUse => 9
  | .recordsPending => 10 | .journalFull => 11 | .badAnchor => 12 | .trackerBusy => 13
  | .queueFull => 14 | .pinTableFull => 15 | .freePage => 16 | .unknownJob => 17

def SiteState.number : SiteState → Nat
  | .drafted => 1 | .checking => 2 | .ready => 3 | .surveying => 4 | .paused => 5 | .closed => 6

def CheckStatus.number : CheckStatus → Nat
  | .never => 0 | .passed => 1 | .corrected => 2 | .findings => 3 | .unusable => 4 | .aborted => 5

def UnusableReason.number : UnusableReason → Nat
  | .noReference => 0 | .clampConflict => 1 | .noRotation => 2 | .leadsMoved => 3

def ReturnState.number : ReturnState → Nat
  | .drafted => 0 | .paused => 1

def Presence.number : Presence → Nat
  | .unknown => 0 | .present => 1 | .absent => 2

def wiringNumber : Wiring → Nat
  | .single => 0 | .wye => 1 | .delta => 2

def slipRuleNumber : SlipRule → Nat
  | .off => 0 | .interruptions => 1 | .depth => 2

/-- The debounced level of a line: Low 0 and High 1 (11.4). -/
def levelNumber : Level → Nat
  | .low => 0 | .high => 1

/-- The WAKE output: High 0 and Low 1, in the order of R164's list (R179, log 45). -/
def wakeNumber : Level → Nat
  | .high => 0 | .low => 1

def edgeSenseNumber : EdgeSense → Nat
  | .none => 255 | .rising => 0 | .falling => 1 | .both => 2

def lineActionNumber : LineAction → Nat
  | .none => 255 | .journal => 0 | .pauseLiveSite => 1 | .wake => 2

def EventClass.number : EventClass → Nat
  | .sag => 0 | .interruption => 1

def EndCause.number : EndCause → Nat
  | .recovered => 0 | .long => 1 | .leadLost => 2 | .paused => 3 | .closed => 4

/-- A record never holds `collecting` (R74); it has no number of its own. -/
def CaptureOutcome.number : CaptureOutcome → Nat
  | .admitted _ => 0 | .skipped => 1 | .refused => 2 | .abandoned => 3 | .notTaken => 4
  | .collecting => 255

def CaptureOutcome.id : CaptureOutcome → Nat
  | .admitted n => n
  | .skipped | .refused | .abandoned | .notTaken | .collecting => 0

def CaptureKind.number : CaptureKind → Nat
  | .onset => 0 | .recovery => 1 | .snapshot => 2

def ClockState.number : ClockState → Nat
  | .stopped => 0 | .seeking => 1 | .locked => 2 | .freeRun => 3

def PresenceResult.number : PresenceResult → Nat
  | .present => 0 | .absent => 1 | .fitted => 2 | .opened => 3 | .short => 4 | .notJudged => 5
  | .notUsed => 6 | .notReached => 7

def RotationResult.number : RotationResult → Nat
  | .abc => 0 | .acb => 1 | .indeterminate => 2 | .notApplicable => 3 | .notReached => 4

def Polarity.number : Polarity → Nat
  | .normal => 0 | .reversed => 1

def Association.number : Association → Nat
  | .associated _ _ => 0 | .lowCurrent => 1 | .noCandidate => 2 | .twoCandidates => 3
  | .unstable => 4 | .notReached => 5

def PhaseEnded.number : PhaseEnded → Nat
  | .presence => 0 | .rotation => 1 | .association => 2 | .verdict => 3

def IntervalEnd.number : IntervalEnd → Nat
  | .boundary => 0 | .paused => 1 | .closed => 2 | .clockWrap => 3

def NoHarmonics.number : NoHarmonics → Nat
  | .noneCounted => 0 | .allMarked => 1 | .noFundamental => 2

def Edge.number : Edge → Nat
  | .rising => 0 | .falling => 1

def LineOutcome.number : LineOutcome → Nat
  | .paused => 0 | .notSurveying => 1 | .noSite => 2

def ReferenceCause.number : ReferenceCause → Nat
  | .leadLost => 0 | .leadRestored => 1 | .mapChanged => 2

def JobOwner.number : JobOwner → Nat
  | .order => 0 | .slip => 1

def JobOutcome.number : JobOutcome → Nat
  | .done => 0 | .cancelledOrder | .cancelledStop => 1 | .failedLink | .failedStall => 2

/-- The cause of an outcome (R154), numbered as one list: Order, Link Stopped, Link Fault, Printer Stalled
(log 46). -/
def JobOutcome.cause : JobOutcome → Nat
  | .done => 255 | .cancelledOrder => 0 | .cancelledStop => 1 | .failedLink => 2 | .failedStall => 3

def JobState.number : JobState → Nat
  | .queued => 0 | .printing => 1 | .held _ => 2

def HoldReason.number : HoldReason → Nat
  | .paper => 0 | .heat => 1 | .link => 2

def PrinterLine.number : PrinterLine → Nat
  | .absent => 0 | .ready => 1 | .sending => 2 | .heldPaper => 3 | .heldHeat => 4 | .stalled => 5

/-- Wake sources (11.3). -/
def WakeSource.number : WakeSource → Nat
  | .none => 0 | .storeHigh => 1 | .interruption _ _ => 2
  | .line .ignition => 3 | .line .mark => 4 | .line .door => 5 | .line .aux => 6
  | .back => 7 | .reset => 8

def DepartureCause.number : DepartureCause → Nat
  | .away => 0 | .rest => 1

def SnapshotOutcome.number : SnapshotOutcome → Nat
  | .admitted _ => 0 | .refused => 1 | .abandoned => 2

def SnapshotOutcome.id : SnapshotOutcome → Nat
  | .admitted n => n
  | .refused | .abandoned => 0

/-! ## Shared parts -/

/-- A window reference (R180). -/
def refBytes (r : WRef) : List Byte := le 4 r.offset ++ byte r.window ++ le 3 r.reserved

/-- A time block (R179). -/
def timeBlock (t : Time) : List Byte := le 4 t.sec ++ le 2 t.ms ++ byte t.unset.toNat ++ zeros 1

/-- A time block that may be absent: bit 1 of its flags marks the absence. -/
def timeBlockOr : Option Time → List Byte
  | some t => timeBlock t
  | none => zeros 6 ++ byte 2 ++ zeros 1

/-- A short time (R179). -/
def shortTime (t : Time) : List Byte := le 4 t.sec ++ le 2 t.ms

/-- A limits block (11.4). -/
def limitsBlock (version : Nat) (l : Limits) : List Byte :=
  le 2 version ++ le 2 l.sag ++ le 2 l.hysteresis ++ le 2 l.interruption ++ le 2 l.settle
    ++ le 2 l.longLimit ++ le 2 l.anchorWindow ++ byte l.depth ++ byte l.intervalLength
    ++ byte l.leadHoldoff ++ byte l.clampHoldoff ++ zeros 2

/-- A map entry (11.4). -/
def mapEntryBytes (e : MapEntry) : List Byte :=
  byte e.role.number ++ byte (ofBits [e.invert, e.verified]) ++ byte e.presence.number ++ zeros 1
    ++ le 2 e.scale ++ zeros 2

/-- The options byte (11.4). -/
def optionsByte (o : SiteOptions) : Nat :=
  o.autoCorrect.toNat + 2 * o.exportFlow.toNat + 4 * slipRuleNumber o.slipRule
    + 16 * o.wakeOnInterruption.toNat

/-! ## Records -/

/-- The common record header (11.5). -/
def recordHeader (length kind : Nat) (flags : Nat) (site : Nat) (t : Time) (high number : Nat) :
    List Byte :=
  le 2 length ++ byte kind ++ byte (t.unset.toNat + flags) ++ le 2 site ++ le 2 (t.ms + 1024 * high)
    ++ le 4 t.sec ++ le 4 number

def memberBytes (m : Member) : List Byte :=
  byte m.input.number ++ byte m.role.number ++ byte m.lost.toNat ++ zeros 1 ++ le 4 m.join
    ++ le 4 m.minOffset ++ le 2 m.minimum

/-- An event record, 96 bytes (11.5); its member blocks stand in the order of the members (log 50). -/
def eventBytes (r : EventRecord) : List Byte :=
  recordHeader 96 1 0 r.site r.start 0 r.number
    ++ le 4 r.halves ++ le 4 r.durationMs ++ le 4 r.residualOffset ++ le 4 r.residualMs
    ++ le 2 r.residual ++ byte r.residualInput.number ++ byte r.cls.number ++ byte r.endCause.number
    ++ byte r.members.length ++ le 2 r.version ++ byte r.onset.number ++ byte r.recovery.number
    ++ zeros 2 ++ le 4 r.onset.id ++ le 4 r.recovery.id
    ++ fitTo 42 (r.members.flatMap memberBytes) ++ zeros 2

/-- A channel sub-record, 24 + 4 × H bytes (11.5); `depth` is H. -/
def subRecordBytes (depth : Nat) (c : SubRecord) : List Byte :=
  let rms := c.rms.getD (0, 0, 0)
  byte c.input.number ++ byte c.role.number
    ++ byte (ofBits [c.lost, c.unverified, c.rms.isNone, c.noHarmonics.isSome])
    ++ byte (orNone NoHarmonics.number c.noHarmonics) ++ le 2 c.counted ++ le 2 c.harmonic
    ++ le 4 rms.1 ++ le 4 rms.2.1 ++ le 4 rms.2.2 ++ le 2 c.thd.1 ++ le 2 c.thd.2
    ++ fitTo (4 * depth) (c.orders.flatMap fun o => le 2 o.1 ++ le 2 o.2)

/-- Length of an interval record (R98). -/
def intervalLength (r : IntervalRecord) : Nat := 96 + r.channels.length * (24 + 4 * r.depth)

/-- An interval record (11.5). A frequency above 4,294,967,295 mHz is written as its low 32 bits (log 62). -/
def intervalBytes (r : IntervalRecord) : List Byte :=
  let f := r.frequency.getD (0, 0, 0)
  recordHeader (intervalLength r) 2 0 r.site r.start 0 r.number
    ++ byte r.length ++ byte r.depth
    ++ byte (ofBits [r.startedLate, r.endedEarly, r.unsetSeen, r.frequency.isNone])
    ++ byte r.endCause.number ++ le 2 r.version ++ byte r.channels.length ++ zeros 1
    ++ le 4 r.spanMs ++ le 4 r.total ++ le 4 r.marked ++ le 4 r.unlocked
    ++ le 4 f.1 ++ le 4 f.2.1 ++ le 4 f.2.2 ++ zeros 44
    ++ r.channels.flatMap (subRecordBytes r.depth)

/-- The kind number of an entry and its Site sub-kind (R103, 11.5). -/
def EntryBody.kind : EntryBody → Nat × Option Nat
  | .note _ => (0, none)
  | .mark _ _ _ => (1, none)
  | .line _ _ _ _ _ => (2, none)
  | .created _ _ _ _ => (3, some 0)
  | .checkStarted _ _ _ _ => (3, some 1)
  | .started _ _ => (3, some 2)
  | .paused _ => (3, some 3)
  | .resumed => (3, some 4)
  | .closed _ => (3, some 5)
  | .mapChanged _ => (3, some 6)
  | .checkReport _ => (4, none)
  | .leadLost _ _ _ _ _ => (5, none)
  | .leadRestored _ _ _ _ => (6, none)
  | .referenceMoved _ _ _ _ => (7, none)
  | .limitsApplied _ _ => (8, none)
  | .snapshot _ _ _ _ => (9, none)
  | .captureDiscarded _ _ _ _ _ _ _ _ => (10, none)
  | .slipSkipped _ _ => (11, none)
  | .printEnded _ => (12, none)
  | .clockSet _ _ => (13, none)
  | .away _ _ _ _ => (14, none)
  | .back _ _ _ _ => (15, none)
  | .woke _ _ _ => (16, none)

/-- The verdict of a Check Report with the byte after it (11.5). -/
def CheckVerdict.numbers : CheckVerdict → Nat × Nat
  | .passed => (1, 255)
  | .corrected => (2, 255)
  | .findings => (3, 255)
  | .unusable r => (4, r.number)
  | .cancelled => (5, 0)
  | .closed => (5, 1)

/-- The site and event that a wake source names (R164). -/
def WakeSource.siteEvent : WakeSource → Nat × Nat
  | .interruption s e => (s, e)
  | .none | .storeHigh | .line _ | .back | .reset => (0, 0)

/-- The fixed detail of an entry before its padding to 18 bytes (11.5). Lines printed above 65,535 stand in a
Print Ended entry as their low 16 bits (log 62; R154, R179). -/
def EntryBody.detail : EntryBody → List Byte
  | .note _ => []
  | .mark e n t => byte e.number ++ le 2 n ++ zeros 1 ++ shortTime t
  | .line l e after outcome t =>
    byte l.number ++ byte e.number ++ byte (levelNumber after)
      ++ byte (lineActionNumber (if outcome.isSome then .pauseLiveSite else .journal))
      ++ byte (orNone LineOutcome.number outcome) ++ zeros 1 ++ shortTime t
  | .created v f w o =>
    le 2 v ++ byte f ++ byte (wiringNumber w) ++ byte (optionsByte o) ++ zeros 1 ++ le 2 o.slipDepth
  | .checkStarted r w o v =>
    byte r.number ++ byte (wiringNumber w) ++ byte (optionsByte o) ++ zeros 1 ++ le 2 v
  | .started v u => le 2 v ++ byte u.toNat
  | .paused c => byte (match c with | none => 0 | some l => l.number + 1)
  | .resumed => []
  | .closed w => byte w.number
  | .mapChanged _ => []
  | .checkReport r =>
    byte r.verdict.numbers.1 ++ byte r.verdict.numbers.2 ++ byte r.phase.number
      ++ byte r.rotation.number ++ byte r.returnState.number ++ byte r.left.number
  | .leadLost i r n last since =>
    byte i.number ++ byte r.number ++ byte n ++ zeros 1 ++ le 2 last ++ shortTime since
  | .leadRestored i r lostAt confirm =>
    byte i.number ++ byte r.number ++ zeros 2 ++ shortTime lostAt ++ shortTime confirm
  | .referenceMoved p n c k =>
    byte (orNone Input.number p) ++ byte (orNone Input.number n) ++ byte c.number ++ byte k.number
  | .limitsApplied v l => (limitsBlock v l).take 18
  | .snapshot o tr t trig =>
    byte o.number ++ byte tr ++ le 4 o.id ++ shortTime t ++ shortTime trig
  | .captureDiscarded id ev bytes pieces kind forcing site _ =>
    le 4 id ++ le 4 ev ++ le 4 bytes ++ byte pieces ++ byte kind.number ++ byte forcing.number
      ++ zeros 1 ++ le 2 site
  | .slipSkipped ev v => le 4 ev ++ le 4 v ++ byte 0
  | .printEnded p =>
    le 2 p.job ++ byte p.owner.number ++ byte p.outcome.number ++ byte p.outcome.cause
      ++ byte p.copies ++ le 2 p.site ++ le 4 p.event ++ le 2 p.lines ++ byte p.item ++ zeros 1
      ++ le 2 p.line
  | .clockSet o n =>
    le 4 o.sec ++ le 2 o.ms ++ byte o.unset.toNat ++ zeros 1 ++ le 4 n.sec ++ le 2 n.ms
  | .away c pool occ t => byte c.number ++ zeros 1 ++ le 2 pool ++ le 4 occ ++ shortTime t
  | .back src w occ t =>
    byte src.number ++ byte (wakeNumber w) ++ le 2 src.siteEvent.1 ++ le 4 src.siteEvent.2
      ++ le 4 occ ++ shortTime t
  | .woke src b x => byte src.number ++ zeros 1 ++ shortTime b ++ shortTime x

/-- A finding block, 12 bytes (11.5). A level above 65,535 is written as its low 16 bits (log 47). -/
def findingBytes (f : FindingBlock) : List Byte :=
  byte f.roleAtStart.number ++ byte f.presence.number ++ le 2 f.level
    ++ byte (orNone Association.number f.association) ++ byte (orNone Role.number f.roleFound)
    ++ byte (orNone Polarity.number f.polarity)
    ++ byte (ofBits [f.findings.rotation, f.findings.otherPhase, f.findings.reversed,
        f.findings.undetermined, f.findings.notFitted, f.findings.short])
    ++ byte f.verified.toNat ++ byte f.roleAfter.number
    ++ byte (ofBits [f.invertBefore, f.invertAfter])
    ++ byte (ofBits [f.causeRotation, f.causeOtherPhase, f.causeReversed, f.causeDisplaced])

/-- The variable part of an entry, before its padding (R102, 11.5). -/
def EntryBody.variablePart : EntryBody → List Byte
  | .note t => t
  | .mapChanged m => m.toList.flatMap fun e => mapEntryBytes { e with presence := .unknown, verified := false }
  | .checkReport r => r.blocks.toList.flatMap findingBytes
  | .captureDiscarded _ _ _ _ _ _ _ t => timeBlock t ++ zeros 8
  | .mark _ _ _ | .line _ _ _ _ _ | .created _ _ _ _ | .checkStarted _ _ _ _ | .started _ _
  | .paused _ | .resumed | .closed _ | .leadLost _ _ _ _ _ | .leadRestored _ _ _ _
  | .referenceMoved _ _ _ _ | .limitsApplied _ _ | .snapshot _ _ _ _ | .slipSkipped _ _
  | .printEnded _ | .clockSet _ _ | .away _ _ _ _ | .back _ _ _ _ | .woke _ _ _ => []

/-- Length of a journal entry (R102). -/
def entryLength (b : EntryBody) : Nat := 48 + pad4 b.variablePart.length

/-- Anchor kind and event number (R107). -/
def Anchor.numbers : Anchor → Nat × Nat
  | .none => (255, 0)
  | .openEvent n => (0, n)
  | .recentEvent n => (1, n)
  | .namedEvent n => (2, n)
  | .ownEvent n => (3, n)

/-- A journal entry (11.5). -/
def entryBytes (e : JournalEntry) : List Byte :=
  recordHeader (entryLength e.body) 3 0 e.site e.time 0 e.sequence
    ++ byte e.body.kind.1 ++ byte (orNone id e.body.kind.2) ++ byte (ofBits [e.late, e.saturated])
    ++ byte e.anchor.numbers.1 ++ le 4 e.anchor.numbers.2 ++ le 2 e.lostBefore ++ byte e.author
    ++ zeros 1 ++ le 2 e.body.variablePart.length ++ fitTo 18 e.body.detail
    ++ padded e.body.variablePart

/-- The 96-bit field of scales and invert flags of a capture piece (11.5). -/
def scaleField (c : RingCycle) : Nat :=
  c.scales.v1 % 1024 + c.scales.v2 % 1024 * 2 ^ 10 + c.scales.v3 % 1024 * 2 ^ 20
    + c.scales.v4 % 1024 * 2 ^ 30 + c.scales.i1 % 4096 * 2 ^ 40 + c.scales.i2 % 4096 * 2 ^ 52
    + c.scales.i3 % 4096 * 2 ^ 64 + c.scales.i4 % 4096 * 2 ^ 76 + ofBits c.inverts.toList * 2 ^ 88

/-- The points of a ring cycle: 8 signed counts for each point, in input order (11.5). -/
def pointBytes (c : RingCycle) : List Byte :=
  (List.range 128).flatMap fun p =>
    Input.all.flatMap fun i => le16s ((c.points.get i).getD p 0)

/-- The cycle of a piece marked Not Sampled: no number, every value zero (R33). -/
def notSampled (start : Time) : RingCycle :=
  ⟨0, start, false, PerInput.same 0, PerInput.same false, PerInput.same []⟩

/-- A capture piece, 2,080 bytes (11.5). -/
def pieceBytes (p : CapturePiece) : List Byte :=
  let c := p.cycle.getD (notSampled p.start)
  recordHeader 2080 4 (2 * c.locked.toNat + 4 * p.cycle.isNone.toNat + 8 * p.kind.number) p.site p.start
      p.piece p.capture
    ++ le 2 p.event ++ le 2 c.number ++ le 12 (scaleField c) ++ pointBytes c

/-- The bytes of a record. -/
def Record.bytes : Record → List Byte
  | .event r => eventBytes r
  | .interval r => intervalBytes r
  | .journal r => entryBytes r
  | .piece r => pieceBytes r

/-- The length of a record (R115). -/
def Record.length : Record → Nat
  | .event _ => 96
  | .interval r => intervalLength r
  | .journal r => entryLength r.body
  | .piece _ => 2080

/-- The site label of a record; 0 for the device journal. -/
def Record.site : Record → Nat
  | .event r => r.site
  | .interval r => r.site
  | .journal r => r.site
  | .piece r => r.site

end Sys2Proof.Machine
end

