-- ==== Sys2Proof/Machine/Ops.lean ====
section
/-! DEFINITION. The named operations every block uses: the passing of time (R34), the site table (R1,
R5), WAKE requests (R164), references (R174) and the result of a command. -/

namespace Sys2Proof.Machine

/-- The result of a command that goes on: every command of the table does. -/
abbrev Result := Host.Outcome State Fault Refusal

/-! ## Time -/

/-- The present instant (R35). -/
def State.now (s : State) : Stamp := ⟨s.clock, s.up⟩

/-- The survey clock `dt` milliseconds later (R34): past 4,294,967,295 s it wraps to 0 and is unset. -/
def Time.advance (t : Time) (dt : Nat) : Time :=
  let sec := (t.total + dt) / 1000
  ⟨sec % 4294967296, (t.total + dt) % 1000, t.unset || 4294967296 ≤ sec⟩

/-- Time passes: the survey clock and the running milliseconds advance (log 2). -/
def State.elapse (s : State) (dt : Nat) : State :=
  { s with up := s.up + dt, clock := s.clock.advance dt }

/-- `limit` milliseconds have passed since `since`. -/
def State.passed (s : State) (since limit : Nat) : Bool := decide (since + limit ≤ s.up)

/-! ## The site table -/

/-- Slot numbers in order (R1). -/
def slotNumbers : List (Fin 8) := [0, 1, 2, 3, 4, 5, 6, 7]

/-- The site in a slot; an Empty slot holds none. -/
def State.site (s : State) (k : Fin 8) : Option Site := s.sites[k]

def State.setSlot (s : State) (k : Fin 8) (x : Option Site) : State :=
  { s with sites := s.sites.set k x }

/-- Changes the site in a slot; an Empty slot stays Empty. -/
def State.modSite (s : State) (k : Fin 8) (f : Site → Site) : State :=
  match s.site k with
  | some x => s.setSlot k (some (f x))
  | none => s

/-- The slot that holds a label (R1). -/
def State.findSlot (s : State) (label : Nat) : Option (Fin 8) :=
  slotNumbers.find? fun k => match s.site k with
    | some x => x.label == label
    | none => false

/-- The lowest-numbered Empty slot (R1). -/
def State.emptySlot (s : State) : Option (Fin 8) :=
  slotNumbers.find? fun k => (s.site k).isNone

/-- Checking, Surveying and Paused are the live states (R5). -/
def SiteState.isLive : SiteState → Bool
  | .checking | .surveying | .paused => true
  | .drafted | .ready | .closed => false

/-- The slot of the live site (R1, R5). -/
def State.liveSlot (s : State) : Option (Fin 8) :=
  slotNumbers.find? fun k => match s.site k with
    | some x => x.state.isLive
    | none => false

def State.liveSite (s : State) : Option Site := s.liveSlot.bind s.site

def State.modLive (s : State) (f : Site → Site) : State :=
  match s.liveSlot with
  | some k => s.modSite k f
  | none => s

/-- Changes the site with a label. -/
def State.modLabel (s : State) (label : Nat) (f : Site → Site) : State :=
  match s.findSlot label with
  | some k => s.modSite k f
  | none => s

def State.siteOf (s : State) (label : Nat) : Option Site := (s.findSlot label).bind s.site

/-! ## WAKE -/

/-- A WAKE request (R164): it raises WAKE only when the link is Away and WAKE is Low. -/
def State.wakeRequest (s : State) (source : WakeSource) : State :=
  if s.lp.link = .away ∧ s.van.wake = .low then
    { s with van := { s.van with wake := .high, source := source } }
  else s

/-! ## The link as other blocks see it -/

/-- The link counts as Attended for a delivery and for a page item: Attended with no departure
pending (R162). -/
def State.linkOpen (s : State) : Bool :=
  decide (s.lp.link = .attended) && s.lp.departure.isNone

/-! ## References -/

/-- The window entry a reference names: none with a window above 15 or a reserved byte that is not 0
(R180). -/
def LinkPort.entry (lp : LinkPort) (r : WRef) : Option Window :=
  if h : r.window < 16 ∧ r.reserved = 0 then lp.windows[r.window]'h.1 else none

/-- The bus address a reference converts to (R174). -/
def LinkPort.bus (lp : LinkPort) (r : WRef) : Nat :=
  match lp.entry r with
  | some w => w.base + r.offset
  | none => r.offset

/-- A reference is valid for a read or a write of a length (R174). -/
def LinkPort.valid (lp : LinkPort) (r : WRef) (length : Nat) (write : Bool) : Bool :=
  match lp.entry r with
  | some w => decide (r.offset + length ≤ w.length) && (if write then w.write else w.read)
  | none => false

/-- The link check (R174). -/
def LinkPort.linkPasses (lp : LinkPort) (r : WRef) : Bool :=
  decide (r = WRef.null) ||
    (r.offset % 16 == 0 && lp.valid r 64 false && lp.valid r 64 true)

end Sys2Proof.Machine
end

