-- ==== Sys2Proof/Machine/Flags.lean ====
section
/-! DEFINITION. The Attention register and the interrupt request (R178), and the record of a fault
(R177). -/

namespace Sys2Proof.Machine

/-- The attention bits (R178). -/
inductive AttentionBit where
  | orderDone | delivered | pagesLow | event | check | lead | print | storeHigh | vanLine | linkHalted
  deriving DecidableEq, Repr

/-- The place of a bit in the registers (11.3). -/
def AttentionBit.place : AttentionBit → Nat
  | .orderDone => 0 | .delivered => 1 | .pagesLow => 2 | .event => 3 | .check => 4
  | .lead => 5 | .print => 6 | .storeHigh => 7 | .vanLine => 8 | .linkHalted => 9

/-- The word that holds one attention bit. -/
def AttentionBit.word (b : AttentionBit) : BitVec 32 := BitVec.ofNat 32 (2 ^ b.place)

/-- Raises an attention bit: it stays set until software or a Reset clears it (R178). -/
def State.raise (s : State) (b : AttentionBit) : State :=
  { s with lp := { s.lp with attention := s.lp.attention ||| b.word } }

/-- A latched bit. -/
def State.attends (s : State) (b : AttentionBit) : Bool := s.lp.attention.getLsbD b.place

/-- Software clears each bit it writes as 1 (R169, R178). -/
def State.clearAttention (s : State) (value : BitVec 32) : State :=
  { s with lp := { s.lp with attention := s.lp.attention &&& ~~~value } }

/-- The interrupt request: some bit is set in Attention and in Attention Mask (R178). -/
def State.interrupt (s : State) : Bool := decide (s.lp.attention &&& s.lp.mask ≠ 0)

end Sys2Proof.Machine
end

