-- ==== Sys2Proof/Machine/Journal.lean ====
section
/-! DEFINITION. The record store's queues as every producer meets them (R115, R121 to R123) and the
Journal: numbering, admission, loss and anchors (R101 to R108). -/

namespace Sys2Proof.Machine

/-! ## Occupancy -/

/-- Bytes of a queue. -/
def queueBytes (q : List Queued) : Nat := (q.map (·.length)).sum

def RecordStore.journalOccupancy (r : RecordStore) : Nat := queueBytes r.queues.journal

def RecordStore.nonJournalOccupancy (r : RecordStore) : Nat :=
  queueBytes r.queues.events + queueBytes r.queues.intervals + queueBytes r.queues.captures

/-- The total occupancy (R115). -/
def RecordStore.total (r : RecordStore) : Nat := r.journalOccupancy + r.nonJournalOccupancy

/-- The store high mark in bytes (R116). -/
def RecordStore.highMark (r : RecordStore) : Nat := r.levels.storeHigh * Config.storeBytes / 100

/-- The store high test of an admission (R122): the total was below the mark and no longer is. -/
def State.storeHighTest (s : State) (before : Nat) : State :=
  if before < s.store.highMark ∧ s.store.highMark ≤ s.store.total then
    (s.raise .storeHigh).wakeRequest .storeHigh
  else s

/-- A record as it stands in a queue from its admission on (R123). -/
def queued (s : State) (r : Record) : Queued := ⟨r, r.length, r.site, s.clock, false, false⟩

/-- Records join the tail of a stream's queue (R123), and the store high test is made (R122). -/
def State.addRecords (s : State) (st : Stream) (rs : List Record) : State :=
  { s with store := { s.store with
      queues := s.store.queues.set st (s.store.queues.get st ++ rs.map (queued s)) } }.storeHighTest
    s.store.total

/-- Lost records of a stream are counted (R121). -/
def State.countLost (s : State) (st : Stream) (n : Nat) : State :=
  { s with store := { s.store with
      lostTotal := s.store.lostTotal.set st (satAdd (s.store.lostTotal.get st) n)
      lostSincePage := s.store.lostSincePage.set st (satAdd (s.store.lostSincePage.get st) n) } }

/-! ## Journal states -/

/-- The journal state of a site, or of the device for site 0 (R101, R103). -/
def State.journalOf (s : State) (site : Nat) : Option JournalState :=
  if site = 0 then some s.device.state else (s.siteOf site).map (·.journal)

def State.setJournal (s : State) (site : Nat) (j : JournalState) : State :=
  if site = 0 then { s with device := { s.device with state := j } }
  else s.modLabel site fun x => { x with journal := j }

/-- The journal state after an admitted entry (R104): the sequence advances and stops after its largest
value, and the lost run is reported. -/
def JournalState.taken (j : JournalState) : JournalState :=
  ⟨if j.next = Config.counterMax then j.next else j.next + 1, decide (j.next = Config.counterMax), 0, false⟩

/-- The journal state after an entry that is not admitted (R105). -/
def JournalState.lose (j : JournalState) : JournalState :=
  if j.lostRun = Config.word16Max then { j with saturated := true } else { j with lostRun := j.lostRun + 1 }

/-- An entry is admitted when the whole store has room for it and the journal has a number left (R104,
R117). -/
def State.admitsEntry (s : State) (j : JournalState) (b : EntryBody) : Bool :=
  decide (s.store.total + entryLength b ≤ Config.storeBytes) && !j.exhausted

/-- What the Journal is asked to enter: the parts of an entry that its cause gives (R102). -/
structure EntryRequest where
  site : Nat
  anchor : Anchor
  author : Nat
  late : Bool
  body : EntryBody
  deriving DecidableEq, Repr

/-- The entry that an admitted request becomes (R102, R104, R105). -/
def State.entryFor (s : State) (j : JournalState) (r : EntryRequest) : JournalEntry :=
  ⟨r.site, j.next, s.clock, r.late, j.saturated, j.lostRun, r.anchor, r.author, r.body⟩

/-- The journal entries counter of a site (R18, R104). -/
def Site.countEntry (x : Site) : Site :=
  { x with counters := { x.counters with journal := satAdd x.counters.journal 1 } }

/-- The journal-entries-lost counter of a site (R18, R105). -/
def Site.countLostEntry (x : Site) : Site :=
  { x with counters := { x.counters with lostJournal := satAdd x.counters.lostJournal 1 } }

/-- Step 4 of R104. -/
def State.countEntry (s : State) (site : Nat) : State :=
  if site = 0 then s else s.modLabel site Site.countEntry

/-- Step 2 of R105. -/
def State.countLostEntry (s : State) (site : Nat) : State :=
  if site = 0 then
    { s with device := { s.device with lostTotal := satAdd s.device.lostTotal 1 } }
  else s.modLabel site Site.countLostEntry

/-- The Journal takes an entry (R104, R105), and answers the sequence it took, if it was admitted. With
no journal for the site the entry is dropped without a count (R103). -/
def State.enter (s : State) (r : EntryRequest) : State × Option Nat :=
  match s.journalOf r.site with
  | none => (s, none)
  | some j =>
    if s.admitsEntry j r.body then
      (((s.setJournal r.site j.taken).addRecords .journal [.journal (s.entryFor j r)]).countEntry r.site,
        some j.next)
    else
      (((s.setJournal r.site j.lose).countLostEntry r.site).countLost .journal 1, none)

/-- A machine entry with an anchor of its own (R103). -/
def State.putAnchored (s : State) (site : Nat) (anchor : Anchor) (b : EntryBody) : State :=
  (s.enter ⟨site, anchor, 0, false, b⟩).1

/-- A machine entry with the anchor None (R103). -/
def State.put (s : State) (site : Nat) (b : EntryBody) : State := s.putAnchored site .none b

/-- The site label of the live site, or 0 for the device (R103). -/
def State.liveLabel (s : State) : Nat := (s.liveSite.map (·.label)).getD 0

/-- An Auto anchor (R107, R108, R111). -/
def State.autoAnchor (s : State) (site : Nat) : Anchor :=
  match s.siteOf site with
  | none => .none
  | some x =>
    if x.state = .closed then .none
    else if x.openEvent ≠ 0 then .openEvent x.openEvent
    else match x.sag.lastClosed with
      | none => .none
      | some c =>
        if s.clock.total ≤ c.endTime.total + x.active.anchorWindow * 1000 then .recentEvent c.number
        else .none

end Sys2Proof.Machine
end

