-- ==== Sys2Proof/Machine/Store.lean ====
section
/-! DEFINITION. The Record Store (chapter 07): admission of records and captures with the discard of
captures (R118 to R120), pages and pins (R124 to R128), and the delivery operation (R129 to R132). -/

namespace Sys2Proof.Machine

/-! ## Captures in the queue -/

/-- Two queued records are pieces of one capture. -/
def sameCapture (p : CapturePiece) (q : Queued) : Bool :=
  match q.record with
  | .piece c => c.site == p.site && c.capture == p.capture
  | .event _ | .interval _ | .journal _ => false

/-- A queued record is the first piece of an eligible capture (R119): none of its pieces is published
or written into a delivery in flight. -/
def eligibleFirst (queue : List Queued) (q : Queued) : Option (CapturePiece × Queued) :=
  match q.record with
  | .piece p =>
    if p.piece = 1 ∧ (queue.all fun x => !(sameCapture p x && x.inDelivery)) then some (p, q) else none
  | .event _ | .interval _ | .journal _ => none

/-- The oldest eligible capture (R119). -/
def oldestEligible (queue : List Queued) : Option (CapturePiece × Queued) :=
  queue.findSome? (eligibleFirst queue)

/-- The records-lost counters of a site (R18). -/
def Site.countLostRecord (x : Site) (st : Stream) : Site :=
  match st with
  | .events => { x with counters := { x.counters with lostEvents := satAdd x.counters.lostEvents 1 } }
  | .intervals =>
    { x with counters := { x.counters with lostIntervals := satAdd x.counters.lostIntervals 1 } }
  | .captures =>
    { x with counters := { x.counters with lostCaptures := satAdd x.counters.lostCaptures 1 } }
  | .journal => x

/-- The anchor of a Capture Discarded entry (R107, R120). -/
def captureAnchor (p : CapturePiece) : Anchor :=
  match p.kind with
  | .onset | .recovery => .ownEvent p.event
  | .snapshot => .none

/-- A capture is discarded whole to make room for a record of a stream and a site (step 2 of R119,
R120). -/
def State.discardCapture (s : State) (c : CapturePiece × Queued) (forcing : Stream) (site : Nat) : State :=
  let gone := s.store.queues.captures.filter (sameCapture c.1)
  let s1 := { s with store := { s.store with queues := { s.store.queues with
    captures := s.store.queues.captures.filter fun q => !sameCapture c.1 q } } }
  let s2 := (s1.countLost .captures gone.length).modLabel c.1.site (·.countLostRecord .captures)
  s2.putAnchored c.1.site (captureAnchor c.1)
    (.captureDiscarded c.1.capture c.1.event (queueBytes gone) gone.length c.1.kind forcing site
      c.2.admitted)

/-! ## Admission -/

/-- An event or interval record of a length fits (R119). -/
def RecordStore.fits (r : RecordStore) (length : Nat) : Bool :=
  decide (r.nonJournalOccupancy + length ≤ Config.nonJournalCap ∧ r.total + length ≤ Config.storeBytes)

/-- Discards eligible captures, oldest first, until a record fits or none is left (R119). -/
def State.makeRoom : Nat → State → Stream → Nat → Nat → State
  | 0, s, _, _, _ => s
  | fuel + 1, s, st, site, length =>
    if s.store.fits length then s
    else match oldestEligible s.store.queues.captures with
      | none => s
      | some c => State.makeRoom fuel (s.discardCapture c st site) st site length

/-- Admission of an event or interval record (R119): the new state, and whether it was admitted. -/
def State.admitRecord (s : State) (st : Stream) (r : Record) : State × Bool :=
  let s1 := s.makeRoom (s.store.queues.captures.length + 1) st r.site r.length
  if s1.store.fits r.length then (s1.addRecords st [r], true)
  else ((s1.countLost st 1).modLabel r.site (·.countLostRecord st), false)

/-- A capture of a number of bytes would be admitted (R118). -/
def RecordStore.admitsCapture (r : RecordStore) (bytes : Nat) : Bool :=
  decide (r.nonJournalOccupancy + bytes ≤ Config.nonJournalCap
    ∧ r.total + bytes + Config.captureGuard ≤ Config.storeBytes)

/-- The next capture id of a site is taken (R78). -/
def Site.takeCapture (x : Site) : Site := { x with sag := { x.sag with nextCapture := x.sag.nextCapture + 1 } }

/-- A completed capture is offered to the store (R78, R118): its pieces are made for the id it takes. -/
def State.offerCapture (s : State) (site : Nat) (pieces : Nat → List CapturePiece) : State × CaptureOutcome :=
  match s.siteOf site with
  | none => (s, .refused)
  | some x =>
    let ps := pieces x.sag.nextCapture
    if s.store.admitsCapture (2080 * ps.length) then
      ((s.modLabel site Site.takeCapture).addRecords .captures (ps.map .piece), .admitted x.sag.nextCapture)
    else ((s.countLost .captures ps.length).modLabel site (·.countLostRecord .captures), .refused)

/-! ## Pages and pins -/

/-- A list holds a page: two references name the same page when their bus addresses agree (R124). -/
def holdsPage (ps : List Page) (p : Page) : Bool := ps.any fun q => q.bus == p.bus

/-- A page has an entry in the pin table (R127). -/
def RecordStore.pinned (r : RecordStore) (p : Page) : Bool := r.pins.any fun e => e.page.bus == p.bus

def RecordStore.inFlight (r : RecordStore) (p : Page) : Bool :=
  Stream.all.any fun st => match r.deliveries.get st with
    | some d => d.page.bus == p.bus
    | none => false

def RecordStore.isTail (r : RecordStore) (p : Page) : Bool :=
  Stream.all.any fun st => match r.tails.get st with
    | some t => t.bus == p.bus
    | none => false

/-- Released pages leave the waiting list for the pool while it has room (R126): the waiting list and
the pool afterwards. -/
def moveReleased (pinned : Page → Bool) : List Page → List Page → List Page × List Page
  | [], pool => ([], pool)
  | p :: ps, pool =>
    if pinned p || Config.poolMax ≤ pool.length then
      let r := moveReleased pinned ps pool
      (p :: r.1, r.2)
    else moveReleased pinned ps (pool ++ [p])

def RecordStore.releaseWaiting (r : RecordStore) : RecordStore :=
  let m := moveReleased r.pinned r.waiting r.pool
  { r with waiting := m.1, pool := m.2 }

/-- One pin of a page is taken (R127). -/
def addPin (pins : List PinEntry) (p : Page) : List PinEntry :=
  if pins.any fun e => e.page.bus == p.bus then
    pins.map fun e => if e.page.bus == p.bus then { e with count := e.count + 1 } else e
  else pins ++ [⟨p, 1⟩]

/-- One pin of a page is released; an entry that reaches 0 is removed (R127). -/
def dropPin (pins : List PinEntry) (p : Page) : List PinEntry :=
  (pins.map fun e => if e.page.bus == p.bus then { e with count := e.count - 1 } else e).filter
    fun e => e.count != 0

/-- A page pin request, judged whole (R127): a refusal, or the store with the pins taken. -/
def RecordStore.requestPins (r : RecordStore) (ps : List Page) : Except ResultCode RecordStore :=
  if ps.any fun p => holdsPage r.pool p || r.inFlight p then .error .freePage
  else if Config.pinTableMax < r.pins.length + (ps.filter fun p => !r.pinned p).length then
    .error .pinTableFull
  else .ok { r with pins := ps.foldl addPin r.pins }

/-- A job's page pins are released, and pages that wait for it are released with them (R126, R127). -/
def RecordStore.releasePins (r : RecordStore) (ps : List Page) : RecordStore :=
  { r with pins := ps.foldl dropPin r.pins }.releaseWaiting

/-! ## Give Pages -/

inductive PageCode where
  | accepted | waiting | duplicate | isTail | poolFull | badReference
  deriving DecidableEq, Repr

def PageCode.number : PageCode → Nat
  | .accepted => 0 | .waiting => 1 | .duplicate => 2 | .isTail => 3 | .poolFull => 4 | .badReference => 5

/-- A reference is a sound page reference with a right (R125, R140). -/
def LinkPort.pageSound (lp : LinkPort) (r : WRef) (write : Bool) : Bool :=
  lp.valid r Config.pageBytes write && lp.bus r % Config.pageBytes == 0

/-- One page of a Give Pages order is judged (R125). -/
def State.judgePage (s : State) (r : WRef) : State × PageCode :=
  let p : Page := ⟨r, s.lp.bus r⟩
  if r = WRef.null ∨ ¬ s.lp.pageSound r true then (s, .badReference)
  else if holdsPage s.store.pool p || holdsPage s.store.waiting p || s.store.inFlight p then (s, .duplicate)
  else if s.store.isTail p then (s, .isTail)
  else if s.store.pinned p ∧ s.store.waiting.length < Config.waitingMax then
    ({ s with store := { s.store with waiting := s.store.waiting ++ [p] } }, .waiting)
  else if s.store.pinned p ∨ Config.poolMax ≤ s.store.pool.length then (s, .poolFull)
  else ({ s with store := { s.store with pool := s.store.pool ++ [p] } }, .accepted)

/-- The pages of a Give Pages order are judged in list order (R125). -/
def State.judgePages : State → List WRef → State × List PageCode
  | s, [] => (s, [])
  | s, r :: rs =>
    let one := s.judgePage r
    let rest := State.judgePages one.1 rs
    (rest.1, one.2 :: rest.2)

/-! ## Delivery -/

/-- How many records from the head fit together in a number of bytes (R123). -/
def fitCount : Nat → List Queued → Nat
  | _, [] => 0
  | room, q :: qs => if q.length ≤ room then fitCount (room - q.length) qs + 1 else 0

/-- A queue is page-full (R123). -/
def pageFull (q : List Queued) : Bool :=
  let n := fitCount Config.pageBody q
  decide (n < q.length) || queueBytes (q.take n) == Config.pageBody

/-- A record has waited a hold time given in seconds (R123). -/
def hasWaited (now : Time) (hold : Nat) (q : Queued) : Bool :=
  decide (q.admitted.total + hold * 1000 ≤ now.total) || decide (now.total < q.admitted.total)

/-- The head of a stream's queue has waited its hold time (R123). -/
def State.headWaited (s : State) (st : Stream) : Bool :=
  match s.store.queues.get st with
  | [] => false
  | q :: _ => hasWaited s.clock (s.store.levels.hold.get st) q

/-- The head of a stream's queue is due (R123). -/
def headDue : List Queued → Bool
  | [] => false
  | q :: _ => q.due

/-- The conditions for a delivery of a stream to start (R129). -/
def State.canDeliver (s : State) (st : Stream) : Bool :=
  s.linkOpen && !s.store.pool.isEmpty && (s.store.deliveries.get st).isNone &&
    !(s.store.queues.get st).isEmpty &&
    (pageFull (s.store.queues.get st) || s.headWaited st || headDue (s.store.queues.get st))

/-- Marks the first records of a queue as taken by a delivery. -/
def markTaken (n : Nat) (q : List Queued) : List Queued :=
  (q.take n).map (fun x => { x with inDelivery := true }) ++ q.drop n

/-- The pages-low test when a delivery takes the pool head (R128). -/
def State.pagesLowTest (s : State) (before : Nat) : State :=
  if s.store.levels.pagesLow ≤ before ∧ before - 1 < s.store.levels.pagesLow then s.raise .pagesLow else s

/-- A delivery takes the pool head and the records that fit, and begins to write them into the page's body,
from its first byte on (R124, R129, R130). The header's Held flag is judged here, like Full (log 61). -/
def State.beginDelivery (s : State) (st : Stream) (page : Page) (pool : List Page) : State :=
  let q := s.store.queues.get st
  let n := fitCount Config.pageBody q
  let d : Delivery :=
    { page := page, stage := .records, count := n, full := pageFull q, held := s.headWaited st
      lostInHeader := 0
      access := ⟨.pageWrite, page.ref.window, page.ref.offset + 64,
        [(0, (q.take n).flatMap fun x => x.record.bytes)], s.up⟩ }
  let s1 := { s with store := { s.store with
    pool := pool
    queues := s.store.queues.set st (markTaken n q)
    deliveries := s.store.deliveries.set st (some d) }.releaseWaiting }
  s1.pagesLowTest (pool.length + 1)

/-- A delivery starts when its conditions hold (R129). -/
def State.startDelivery (s : State) (st : Stream) : State :=
  if s.canDeliver st then
    match s.store.pool with
    | [] => s
    | p :: ps => s.beginDelivery st p ps
  else s

/-- The page header, 64 bytes, with the values of the moment it is written (R130, 11.5). -/
def State.pageHeader (s : State) (st : Stream) (d : Delivery) : List Byte :=
  let taken := (s.store.queues.get st).take d.count
  byte st.number
    ++ byte (ofBits [d.full, d.held, taken.any (·.due), s.store.pageSequence.get st == 0, s.clock.unset])
    ++ le 2 d.count ++ le 4 (s.store.pageSequence.get st + 1) ++ le 2 (queueBytes taken)
    ++ le 2 s.clock.ms ++ le 4 s.clock.sec ++ le 4 (s.store.lostSincePage.get st)
    ++ refBytes WRef.null ++ zeros 36

/-- Where a published page is linked (R130): the tail's next link, or the stream's start link. -/
def State.linkAccess (s : State) (st : Stream) (page : Page) : Access :=
  match s.store.tails.get st with
  | some t => ⟨.pageLinkWrite, t.ref.window, t.ref.offset + 20, [(0, refBytes page.ref)], s.up⟩
  | none => ⟨.streamStartWrite, 255, 24 + 8 * st.number, [(0, refBytes page.ref)], s.up⟩

def State.setDelivery (s : State) (st : Stream) (d : Option Delivery) : State :=
  { s with store := { s.store with deliveries := s.store.deliveries.set st d } }

/-- The next stage of a delivery after its records or its header are written (R130). -/
def State.nextStage (s : State) (st : Stream) (d : Delivery) : State :=
  match d.stage with
  | .records => s.setDelivery st (some { d with
      stage := .header
      lostInHeader := s.store.lostSincePage.get st
      access := ⟨.pageWrite, d.page.ref.window, d.page.ref.offset, [(0, s.pageHeader st d)], s.up⟩ })
  | .header => s.setDelivery st (some { d with stage := .link, access := s.linkAccess st d.page })
  | .link => s

/-- A page is published (steps 1 to 4 of R131). -/
def State.publish (s : State) (st : Stream) (d : Delivery) : State :=
  { s with store := { s.store with
      queues := s.store.queues.set st ((s.store.queues.get st).drop d.count)
      lostSincePage := s.store.lostSincePage.set st (s.store.lostSincePage.get st - d.lostInHeader)
      tails := s.store.tails.set st (some d.page)
      pageSequence := s.store.pageSequence.set st (s.store.pageSequence.get st + 1)
      deliveries := s.store.deliveries.set st none } }.raise .delivered

/-- Every delivery in flight is abandoned (R132): its records stay queued, its page is dropped. -/
def RecordStore.abandonDeliveries (r : RecordStore) : RecordStore :=
  { r with
    deliveries := PerStream.same none
    queues := r.queues.map fun q => q.map fun x => { x with inDelivery := false } }

/-! ## Summary and levels -/

/-- Makes every queued record of a queue due (R133). -/
def makeDue (q : List Queued) : List Queued := q.map fun x => { x with due := true }

/-- Flush Streams makes the queued records of the named streams due (R133). -/
def RecordStore.flush (r : RecordStore) (mask : Nat) : RecordStore :=
  { r with queues :=
    ⟨if bit mask 0 then makeDue r.queues.events else r.queues.events,
     if bit mask 1 then makeDue r.queues.intervals else r.queues.intervals,
     if bit mask 2 then makeDue r.queues.journal else r.queues.journal,
     if bit mask 3 then makeDue r.queues.captures else r.queues.captures⟩ }

def levelsBytes (l : StoreLevels) : List Byte :=
  byte l.hold.events ++ byte l.hold.intervals ++ byte l.hold.journal ++ byte l.hold.captures
    ++ byte l.pagesLow ++ byte l.storeHigh

/-- The store summary, 88 bytes (R133, 11.4). -/
def RecordStore.summary (r : RecordStore) : List Byte :=
  le 4 r.total ++ le 4 r.journalOccupancy ++ le 4 r.nonJournalOccupancy
    ++ Stream.all.flatMap (fun st =>
      le 4 (r.queues.get st).length ++ le 4 (queueBytes (r.queues.get st)) ++ le 4 (r.lostTotal.get st)
        ++ byte ((r.queues.get st).any (·.due)).toNat ++ zeros 3)
    ++ le 2 r.pool.length ++ byte r.waiting.length ++ byte r.pins.length ++ levelsBytes r.levels ++ zeros 2

/-- The levels are in range (R116). -/
def StoreLevels.inRange (l : StoreLevels) : Bool :=
  decide (l.hold.events ≤ 60 ∧ l.hold.intervals ≤ 60 ∧ l.hold.journal ≤ 60 ∧ l.hold.captures ≤ 60
    ∧ l.pagesLow ≤ 255 ∧ l.storeHigh ≤ 100)

end Sys2Proof.Machine
end

