-- ==== Sys2Proof/Machine/Front.lean ====
section
/-! DEFINITION. The Front End (chapter 02): running and stopping, the cycle clock, the reference input,
half-cycle values, sense pulses, blocks and the sample ring; and the application of a limits set (R7). -/

namespace Sys2Proof.Machine

/-! ## Samples and scaling (R21, R22) -/

/-- A count within the converter's range (R21). -/
def clampCount (c : Int) : Int := max (-32767) (min 32767 c)

/-- `n` points of a run of samples; a missing one reads 0. -/
def takePoints (n : Nat) (l : List Int) : List Int := (l ++ List.replicate (n - l.length) 0).take n

/-- The samples of one half-cycle of an input as every use of them takes them: clamped, and negated
when the map entry says so (R21, R22, R28). -/
def cookSamples (e : MapEntry) (l : List Int) : List Int :=
  (takePoints 128 l).map fun c => if e.invert then -(clampCount c) else clampCount c

/-- Sum of the squares of counts. -/
def sumSquares (l : List Int) : Nat := (l.map fun c => c.natAbs * c.natAbs).sum

/-- What one count is worth: for a voltage 5 × ratio in 0.01 V; for a current 100 × range in
0.01 A / 8192 (R21, R22). -/
def countWorth (i : Input) (e : MapEntry) : Nat := if i.isVoltage then 5 * e.scale else 100 * e.scale

/-- The divisor of a sum of squares in the units of `countWorth`. -/
def squareUnit (i : Input) : Nat := if i.isVoltage then 1 else 8192 * 8192

/-- The sum of squares of a run of cooked samples, in the units of `countWorth`. -/
def scaledSquares (i : Input) (e : MapEntry) (l : List Int) : Nat :=
  countWorth i e * countWorth i e * sumSquares l

/-- The RMS of `n` samples in 0.01 V or 0.01 A from their sum of squares (R22, R28). -/
def rmsOf (i : Input) (squares n : Nat) : Nat := roundSqrt squares (squareUnit i * n)

/-- A voltage in 0.01 V as 0.01 % of a nominal voltage in V (R28). -/
def percentOf (rms nominal : Nat) : Nat := roundDiv (rms * 100) nominal

/-! ## The channel map -/

/-- An L-role voltage input of a map. -/
def isLVoltage (m : ChannelMap) (i : Input) : Bool := i.isVoltage && (m.get i).role.isL

/-- The L-role voltage inputs of a map (R61: V4 holds none). -/
def lVoltages (m : ChannelMap) : List Input := Input.voltages.filter (isLVoltage m)

/-- The reference input that a map gives (R26). -/
def chooseReference (m : ChannelMap) : Option Input :=
  [Role.l1, .l2, .l3].findSome? fun r =>
    [Input.v1, .v2, .v3].find? fun i => decide ((m.get i).role = r) && decide ((m.get i).presence ≠ .absent)

/-- The role, scale or invert flag of some entry differs (R22). -/
def mapDiffers (a b : ChannelMap) : Bool :=
  Input.all.any fun i => !(decide ((a.get i).role = (b.get i).role) && decide ((a.get i).scale = (b.get i).scale)
    && decide ((a.get i).invert = (b.get i).invert))

/-- The inputs whose presence is Absent. -/
def absences (m : ChannelMap) : PerInput Bool := PerInput.of fun i => decide ((m.get i).presence = .absent)

/-! ## Running and stopping (R23) -/

/-- The Front End at its start for a map. -/
def FrontEnd.begin (m : ChannelMap) (now : Stamp) : FrontEnd :=
  { FrontEnd.reset with
    clock := .seeking
    reference := chooseReference m
    cycleStart := now
    blockStart := now
    lastHalfEnd := now
    lastHalfStart := now
    mapInForce := some m
    absentInBlock := absences m }

def State.startFrontEnd (s : State) (m : ChannelMap) : State := { s with fe := FrontEnd.begin m s.now }

def State.stopFrontEnd (s : State) : State := { s with fe := FrontEnd.reset }

/-- The Front End runs. -/
def FrontEnd.runs (f : FrontEnd) : Bool := decide (f.clock ≠ .stopped)

/-! ## The reference (R27) -/

/-- The reference as the latest choice has it. -/
def FrontEnd.chosen (f : FrontEnd) : Option Input := f.nextReference.getD f.reference

/-- The reference is chosen again after a change of the map; when the choice differs it moves (R26,
R27). A choice is compared with the choice before it, also where that one still waits for the end of the
cycle in progress (log 42). -/
def State.rechoose (s : State) (m : ChannelMap) (cause : ReferenceCause) : State :=
  if s.fe.runs ∧ chooseReference m ≠ s.fe.chosen then
    { s with fe := { s.fe with
        nextReference := some (chooseReference m), clock := .seeking, good := 0, cycleLocked := false } }.put
      s.liveLabel (.referenceMoved s.fe.chosen (chooseReference m) cause s.fe.clock)
  else s

/-- The live site's map changes by a change of roles, scales or invert flags (R22). -/
def State.noteMapChange (s : State) (old new : ChannelMap) : State :=
  if s.fe.runs ∧ mapDiffers old new then { s with fe := { s.fe with mapChanged := true } } else s

/-! ## Half-cycles (R28, R29) -/

/-- The map in force for the cycle in progress. -/
def FrontEnd.cycleMap (f : FrontEnd) (m : ChannelMap) : ChannelMap := f.mapInForce.getD m

/-- The half-cycle RMS of an input in 0.01 V or 0.01 A (R28). -/
def halfRms (e : MapEntry) (i : Input) (l : List Int) : Nat :=
  rmsOf i (scaledSquares i e (cookSamples e l)) 128

/-- The half-cycle RMS of a voltage input in 0.01 % of nominal (R28). -/
def halfMeasure (e : MapEntry) (i : Input) (nominal : Nat) (l : List Int) : Nat :=
  percentOf (halfRms e i l) nominal

/-- The presence measures of a half-cycle: every voltage input whose role is not Unused (R29). -/
def presenceMeasures (inForce : ChannelMap) (nominal : Nat) (samples : PerInput (List Int)) :
    PerInput (Option Nat) :=
  PerInput.of fun i =>
    if i.isVoltage ∧ (inForce.get i).role ≠ .unused then
      some (halfMeasure (inForce.get i) i nominal (samples.get i))
    else none

/-- An input has a place in the half-cycle value set: an L-role voltage input whose presence is not Absent
(R28), or whose loss was taken ahead of the set of the same half-cycle (R64). -/
def inValueSet (inForce live : ChannelMap) (ahead : Input → Bool) (i : Input) : Bool :=
  isLVoltage inForce i && (decide ((live.get i).presence ≠ .absent) || ahead i)

/-- The values of a half-cycle set (R28). -/
def halfValues (inForce live : ChannelMap) (ahead : Input → Bool) (nominal : Nat)
    (samples : PerInput (List Int)) : PerInput (Option HalfValue) :=
  PerInput.of fun i =>
    if inValueSet inForce live ahead i then
      some ⟨(inForce.get i).role, halfRms (inForce.get i) i (samples.get i),
        halfMeasure (inForce.get i) i nominal (samples.get i)⟩
    else none

/-- The value set of the half-cycle that ends at an instant (R28). -/
def FrontEnd.valueSet (f : FrontEnd) (x : Site) (ahead : Input → Bool) (samples : PerInput (List Int))
    (now : Stamp) : ValueSet where
  number := f.halfCount + 1
  endTime := now.time
  locked := f.cycleLocked
  values := halfValues (f.cycleMap x.map) x.map ahead x.nominalVoltage samples

/-- The values of a set in 0.01 % of nominal, by which detectors judge (R28, R62). -/
def ValueSet.percents (v : ValueSet) : PerInput (Option Nat) :=
  PerInput.of fun i => (v.values.get i).map (·.percent)

/-- The Front End takes the samples of one half-cycle that ends now, and hands on its value set (R21, R22,
R28). -/
def FrontEnd.takeHalf (f : FrontEnd) (inForce : ChannelMap) (samples : PerInput (List Int)) (now : Stamp)
    (set : ValueSet) : FrontEnd :=
  { f with
    lastSet := some set
    halfCount := f.halfCount + 1
    halvesInCycle := f.halvesInCycle + 1
    lastHalfStart := f.lastHalfEnd
    lastHalfEnd := now
    samples := PerInput.of fun i => f.samples.get i ++ cookSamples (inForce.get i) (samples.get i)
    cycleSquares := PerInput.of fun i => f.cycleSquares.get i +
      scaledSquares i (inForce.get i) (cookSamples (inForce.get i) (samples.get i)) }

/-! ## Sense pulses (R29) -/

/-- The classification of a sense level with the hysteresis of R29. -/
def classify (previous : Option SenseClass) (level : Nat) : SenseClass :=
  match previous with
  | none | some .fitted => if level < 200 then .opened else if 900 < level then .short else .fitted
  | some .opened => if 900 < level then .short else if 250 ≤ level then .fitted else .opened
  | some .short => if level < 200 then .opened else if level < 850 then .fitted else .short

/-- The sense windings of the used current inputs are pulsed and classified (R29, R42). -/
def FrontEnd.pulse (f : FrontEnd) (m : ChannelMap) (levels : PerClamp Nat) : FrontEnd :=
  let c (i : Input) : Option SenseClass :=
    if (m.get i).role = .unused then f.sense.get none i
    else some (classify (f.sense.get none i) (levels.get 0 i))
  { f with sense := ⟨c .i1, c .i2, c .i3, c .i4⟩ }

/-! ## Cycles (R24, R25, R33) -/

/-- Cycles in a block (R30). -/
def blockCycles (frequency : Nat) : Nat := if frequency = 60 then 12 else 10

/-- The lock range in 0.001 Hz (R24). -/
def inLockRange (nominalFrequency f : Nat) : Bool :=
  if nominalFrequency = 60 then decide (54000 ≤ f ∧ f ≤ 66000) else decide (45000 ≤ f ∧ f ≤ 55000)

/-- Nanoseconds in a millisecond. -/
def nsPerMs : Nat := 1000000

/-- The frequency of a period in nanoseconds, in 0.001 Hz (R22, R25). -/
def frequencyOf (period : Nat) : Nat := roundDiv 1000000000000 period

/-- The start of the cycle in progress in nanoseconds. -/
def FrontEnd.startNs (f : FrontEnd) : Nat := f.cycleStart.up * nsPerMs + f.cycleNs

/-- The reference crosses zero at an instant: the frequency is measured since the crossing before it, and
stamped in the cycle in progress, to which its start does not belong (R25). -/
def FrontEnd.cross (f : FrontEnd) (at_ : Nat) : FrontEnd :=
  { f with
    crossings := f.crossings ++ if f.startNs < at_ then
      [⟨at_, f.lastCrossing.map fun before => frequencyOf (at_ - before)⟩] else []
    lastCrossing := some at_ }

/-- The cycle in progress would end here at its nominal length (R25). -/
def FrontEnd.nominalEnd (f : FrontEnd) (x : Site) : Nat := f.startNs + Config.nominalPeriodNs x.frequency

/-- The cycle in progress runs to a crossing: the clock has been in Locked since its start (R25). -/
def FrontEnd.follows (f : FrontEnd) : Bool := decide (f.clock = .locked) && f.cycleLocked

/-- The crossing that marks the end of a cycle: the first after its start (R25). -/
def FrontEnd.boundary (f : FrontEnd) : Option Nat :=
  if f.follows then f.crossings.head?.map (·.at_) else none

/-- The last frequency stamped within the cycle in progress when it ends at an instant (R24). -/
def FrontEnd.measuredBy (f : FrontEnd) (fin : Nat) : Option Nat :=
  (f.crossings.filterMap fun c => if c.at_ ≤ fin then c.frequency else none).getLast?

/-- The cycle in progress is good when it ends at an instant (R24). -/
def FrontEnd.goodBy (f : FrontEnd) (x : Site) (fin : Nat) : Bool :=
  match f.reference, f.measuredBy fin with
  | some r, some q => inLockRange x.frequency q &&
      decide (Config.goodCycleLevel ≤ percentOf (rmsOf r (f.cycleSquares.get r) 256) x.nominalVoltage)
  | _, _ => false

/-- When the cycle in progress ends, in nanoseconds, and whether it is good (R24, R25): a Locked cycle that
is good ends at its crossing, and one that is not leaves Locked and ends at its nominal length, as every
other cycle does. -/
def FrontEnd.cycleEnd (f : FrontEnd) (x : Site) : Nat × Bool :=
  match f.boundary with
  | some b => if f.goodBy x b then (b, true) else (f.nominalEnd x, false)
  | none => (f.nominalEnd x, !f.follows && f.goodBy x (f.nominalEnd x))

/-- An instant of running nanoseconds at or after the start of the cycle in progress. -/
def FrontEnd.stampOf (f : FrontEnd) (ns : Nat) : Stamp :=
  ⟨f.cycleStart.time.advance (ns / nsPerMs - f.cycleStart.up), ns / nsPerMs⟩

/-- The clock state and good-cycle count after a cycle (R24); entering Locked is LOCK_ACQUIRED. -/
def clockAfter (clock : ClockState) (count : Nat) (good : Bool) : ClockState × Nat :=
  match clock, good with
  | .stopped, _ => (.stopped, count)
  | .seeking, true => (.seeking, min 5 (count + 1))
  | .freeRun, true => (.freeRun, min 5 (count + 1))
  | .seeking, false => (.seeking, 0)
  | .freeRun, false => (.freeRun, 0)
  | .locked, true => (.locked, 5)
  | .locked, false => (.freeRun, 0)

/-- The 128 points of a ring cycle: means of two consecutive sample points (R33). -/
def ringPoints : List Int → List Int
  | a :: b :: rest => meanOfTwo a b :: ringPoints rest
  | _ => []

/-- The cycle that enters the ring (R33). -/
def FrontEnd.ringCycle (f : FrontEnd) (inForce : ChannelMap) : RingCycle where
  number := f.cycleCount + 1
  start := f.cycleStart.time
  locked := f.cycleLocked
  scales := PerInput.of fun i => (inForce.get i).scale
  inverts := PerInput.of fun i => (inForce.get i).invert
  points := PerInput.of fun i => ringPoints (takePoints 256 (f.samples.get i))

/-- The ring with one more cycle, the oldest leaving when it holds 16 (R33). -/
def enterRing (ring : List RingCycle) (c : RingCycle) : List RingCycle :=
  (ring ++ [c]).drop (ring.length + 1 - Config.ringCycles)

/-- The wave of a block with the 256 scaled points of one more cycle (R22, R32). -/
def addWave (i : Input) (e : MapEntry) (wave samples : List Int) : List Int :=
  let scaled : List Int := (takePoints 256 samples).map fun c => c * (countWorth i e : Int)
  if wave.isEmpty then scaled else wave.zipWith (· + ·) scaled

/-- The crossings that belong to the next cycle: those after an end, but none when the reference changes
there (R25, R27). -/
def FrontEnd.crossingsAfter (f : FrontEnd) (fin : Nat) : List Crossing :=
  if f.chosen = f.reference then f.crossings.filter fun c => fin < c.at_ else []

/-- The Front End at the end of a cycle (R24, R25, R33). -/
def FrontEnd.endCycle (f : FrontEnd) (x : Site) : FrontEnd :=
  let inForce := f.cycleMap x.map
  let fin := f.cycleEnd x
  let next := clockAfter f.clock f.good fin.2
  { f with
    clock := next.1
    good := next.2
    reference := f.chosen
    nextReference := none
    cycleCount := f.cycleCount + 1
    halvesInCycle := 0
    cyclesInBlock := f.cyclesInBlock + 1
    cycleStart := f.stampOf fin.1
    cycleNs := fin.1 % nsPerMs
    cycleLocked := decide (next.1 = .locked)
    crossings := f.crossingsAfter fin.1
    lastCrossing := if f.chosen = f.reference then f.lastCrossing else none
    lockedCycles := f.lockedCycles + f.cycleLocked.toNat
    frequencies := if f.cycleLocked then f.frequencies ++ (f.measuredBy fin.1).toList else f.frequencies
    mapInForce := some x.map
    samples := PerInput.same []
    cycleSquares := PerInput.same 0
    squares := PerInput.of fun i => f.squares.get i + f.cycleSquares.get i
    waves := PerInput.of fun i => addWave i (inForce.get i) (f.waves.get i) (f.samples.get i)
    ring := enterRing f.ring (f.ringCycle inForce) }

/-! ## Blocks (R30 to R32) -/

/-- An input's fundamental is below its floor (R32). -/
def belowFloor (i : Input) (e : MapEntry) (nominal fundamental : Nat) : Bool :=
  if i.isVoltage then decide (fundamental < nominal) else decide (2 * fundamental < e.scale)

/-- The THD over orders 2 to a depth (R32, R93). -/
def thdOf (depth : Nat) (magnitudes : List Nat) : Nat :=
  min 65535 (roundSqrt (((magnitudes.take depth).drop 1).map fun m => m * m).sum 1)

/-- The Front End's own THD of an input result, over orders 2 to 50 (R32). -/
def InputResult.thd (r : InputResult) : Option Nat := r.harmonics.map (thdOf 50)

/-- The fundamental of an input in the block that has ended (R32). -/
def FrontEnd.fundamental (f : FrontEnd) (i : Input) : Component := component 1 (f.waves.get i)

/-- The fundamental RMS of an input in 0.01 V or 0.01 A (R32). -/
def FrontEnd.fundamentalRms (f : FrontEnd) (i : Input) : Nat :=
  (f.fundamental i).rms (squareUnit i) f.cyclesInBlock

/-- An input carries No Fundamental in the block that has ended (R32); the floor of a current input is that of
its clamp range in the live map (log 49). -/
def FrontEnd.noFundamental (f : FrontEnd) (x : Site) (i : Input) : Bool :=
  belowFloor i (x.map.get i) x.nominalVoltage (f.fundamentalRms i)

/-- An input's fundamental angle against the reference (R32). -/
def FrontEnd.angleOf (f : FrontEnd) (x : Site) (i : Input) : Option Nat :=
  match f.reference with
  | none => none
  | some r => if f.noFundamental x r then none else some ((f.fundamental i).lag (f.fundamental r))

/-- One input's result (R31, R32). -/
def FrontEnd.inputResult (f : FrontEnd) (x : Site) (i : Input) : Option InputResult :=
  let e := x.map.get i
  let rms := rmsOf i (f.squares.get i) (256 * f.cyclesInBlock)
  if e.role = .unused ∨ e.presence = .absent then none
  else if f.noFundamental x i then
    some ⟨e.role, !f.absentInBlock.get i, rms, f.fundamentalRms i, none, none⟩
  else
    some ⟨e.role, !f.absentInBlock.get i, rms, f.fundamentalRms i, some (harmonicsOf (f.waves.get i)),
      f.angleOf x i⟩

/-- The block frequency (R31): present only when the block was fully Locked. -/
def FrontEnd.blockFrequency (f : FrontEnd) : Option Nat :=
  if f.lockedCycles = f.cyclesInBlock ∧ f.frequencies ≠ [] then
    some (roundDiv f.frequencies.sum f.frequencies.length)
  else none

/-- The results of the block that has ended (R31). -/
def FrontEnd.blockResult (f : FrontEnd) (x : Site) : BlockResult where
  number := f.blockCount + 1
  endTime := f.cycleStart.time
  cycles := f.cyclesInBlock
  lockedCycles := f.lockedCycles
  frequency := f.blockFrequency
  reference := f.reference
  mapChanged := f.mapChanged
  roles := PerInput.of fun i => (x.map.get i).role
  results := PerInput.of (f.inputResult x)

def BlockResult.fullyLocked (b : BlockResult) : Bool := b.lockedCycles == b.cycles

/-- The next block begins where the one before ended (R30). -/
def FrontEnd.nextBlock (f : FrontEnd) (m : ChannelMap) : FrontEnd :=
  { f with
    blockCount := f.blockCount + 1
    cyclesInBlock := 0
    blockStart := f.cycleStart
    lockedCycles := 0
    frequencies := []
    mapChanged := false
    absentInBlock := absences m
    squares := PerInput.same 0
    waves := PerInput.same [] }

/-! ## Applying a limits set (R7) -/

/-- The site record with a set applied: the set becomes active, none is pending, the version advances. -/
def Site.applyLimits (x : Site) (l : Limits) : Site :=
  { x with active := l, pendingSet := none, version := nextFrom1 x.version }

/-- A limits set is applied to a site, and its Limits Applied entry is put (R7). -/
def State.applyLimits (s : State) (k : Fin 8) (l : Limits) : State :=
  match s.site k with
  | none => s
  | some x => (s.modSite k (·.applyLimits l)).put x.label (.limitsApplied (nextFrom1 x.version) l)

/-- A pending set, if there is one, is applied (R8, R90). -/
def State.applyPending (s : State) (k : Fin 8) : State :=
  match (s.site k).bind (·.pendingSet) with
  | some l => s.applyLimits k l
  | none => s

end Sys2Proof.Machine
end

