-- ==== Sys2Proof/Machine/Sag.lean ====
section
/-! DEFINITION. The Sag Monitor (chapter 04): detectors, the site event, capture trackers and the
captures they offer. -/

namespace Sys2Proof.Machine

/-! ## Detectors (R61 to R63) -/

/-- A detector as Start Survey and Resume Survey make it (R61, R64). -/
def freshDetector (m : ChannelMap) (i : Input) : Option Detector :=
  if isLVoltage m i then
    some (if (m.get i).presence = .absent then .absent else .settling 0 false)
  else none

def buildDetectors (m : ChannelMap) : PerInput (Option Detector) := PerInput.of (freshDetector m)

/-- A detector held by a pause (R63). -/
def Detector.hold : Detector → Detector
  | .absent => .absent
  | .settling _ _ | .normal | .low | .longHold => .settling 0 false

/-- The move of a detector on a half-cycle value under a detection set (R62). A value missing from the
set moves nothing. -/
def Detector.move (l : Limits) (v : Option Nat) (d : Detector) : Detector :=
  match v, d with
  | none, d => d
  | some _, .settling n _ => .settling (n + 1) (decide (2 * l.settle ≤ n + 1))
  | some v, .normal => if v < l.sag then .low else .normal
  | some v, .low => if l.sag + l.hysteresis ≤ v then .normal else .low
  | some v, .longHold => if l.sag + l.hysteresis ≤ v then .normal else .longHold
  | some _, .absent => .absent

/-- A detector is Low. -/
def isLow (d : Option Detector) : Bool := d == some .low

/-- The set that detectors judge by (R61). -/
def State.detectionSet (s : State) (x : Site) : Limits :=
  match s.sag.openEvent with
  | some e => e.limits
  | none => x.active

/-! ## Trackers (R76, R77) -/

def trackerNumbers : List (Fin 4) := [0, 1, 2, 3]

/-- Cycles before the trigger cycle, and after it (R77). -/
def CaptureKind.span : CaptureKind → Nat × Nat
  | .onset => (4, 7)
  | .recovery => (4, 3)
  | .snapshot => (2, 1)

/-- The lowest-numbered Free tracker (R76). -/
def SagMonitor.freeTracker (m : SagMonitor) : Option (Fin 4) :=
  trackerNumbers.find? fun k => (m.trackers[k]).isNone

/-- A tracker claimed now: the trigger cycle is the cycle in progress (R76, R77). -/
def State.newTracker (s : State) (kind : CaptureKind) (site event : Nat) : Tracker :=
  ⟨kind, site, event, s.fe.cycleCount + 1, s.fe.cycleStart.time, kind.span.2, s.now, s.sag.claims⟩

/-- A claim of a tracker (R76): the new state and the tracker's number, if one was Free. -/
def State.claim (s : State) (kind : CaptureKind) (site event : Nat) : State × Option (Fin 4) :=
  match s.sag.freeTracker with
  | none => (s, none)
  | some k =>
    ({ s with sag := { s.sag with
        trackers := s.sag.trackers.set k (some (s.newTracker kind site event))
        claims := s.sag.claims + 1 } }, some k)

/-- The outcome of a claim until the capture is complete (R66, R69). -/
def claimOutcome (k : Option (Fin 4)) : CaptureOutcome := if k.isSome then .collecting else .skipped

/-- A tracker counts a cycle that has entered the ring (R77). -/
def Tracker.countCycle (t : Tracker) (cycle : Nat) : Tracker :=
  if t.trigger < cycle then { t with remaining := t.remaining - 1 } else t

/-- Every Collecting tracker counts a cycle (R77). -/
def SagMonitor.countCycle (m : SagMonitor) (cycle : Nat) : SagMonitor :=
  { m with trackers := m.trackers.map fun t => t.map (·.countCycle cycle) }

def State.freeTracker (s : State) (k : Fin 4) : State :=
  { s with sag := { s.sag with trackers := s.sag.trackers.set k none } }

/-! ## The event record (R67, R74) -/

/-- A member has a deeper or earlier minimum than another (R67). -/
def Member.deeper (a b : Member) : Bool :=
  decide (a.minimum < b.minimum) ||
    (a.minimum == b.minimum && (decide (a.minOffset < b.minOffset) ||
      (a.minOffset == b.minOffset && decide (a.input.number < b.input.number))))

/-- The member that gives the residual (R67). -/
def residualMember : List Member → Option Member
  | [] => none
  | m :: ms =>
    match residualMember ms with
    | none => some m
    | some b => if m.deeper b then some m else some b

/-- The record of a closing event (R73, R74): its end, its half-cycle count and the recovery outcome. -/
def OpenEvent.toRecord (e : OpenEvent) (site : Nat) (cause : EndCause) (fin : Stamp) (halves : Nat)
    (recovery : CaptureOutcome) : EventRecord :=
  let r := (residualMember e.members).getD ⟨.v1, .l1, 0, 0, 0, 0, false⟩
  { site := site, number := e.number, start := e.start.time, halves := halves
    durationMs := fin.up - e.start.up, residual := r.minimum, residualInput := r.input
    residualOffset := r.minOffset, residualMs := r.minMs, cls := e.cls, members := e.members
    version := e.version, endCause := cause, onset := e.onset, recovery := recovery }

/-- The site's part in the closing of an event (R73). -/
def Site.closeEvent (x : Site) (r : EventRecord) (fin : Time) : Site :=
  { x with
    openEvent := 0
    sag := { x.sag with lastClosed := some ⟨r.number, fin⟩, admission := x.sag.admission ++ [r] } }

/-- The open event closes (R73). -/
def State.closeEvent (s : State) (k : Fin 8) (cause : EndCause) (fin : Stamp) (halves : Nat)
    (recovery : CaptureOutcome) : State :=
  match s.sag.openEvent, s.site k with
  | some e, some x =>
    (({ s with sag := { s.sag with openEvent := none } }.modSite k
      (·.closeEvent (e.toRecord x.label cause fin halves recovery) fin.time)).raise .event)
  | _, _ => s

/-- Pause Survey, Pause Live Site and Close Site close an open event (R72). -/
def State.closeEventByOrder (s : State) (k : Fin 8) (cause : EndCause) : State :=
  match s.sag.openEvent with
  | some e => s.closeEvent k cause s.now e.halves .notTaken
  | none => s

/-! ## A half-cycle set (R62, R66 to R71) -/

/-- A new member with its first value (R67). -/
def newMember (m : ChannelMap) (vals : PerInput (Option Nat)) (offset ms : Nat) (i : Input) : Member :=
  ⟨i, (m.get i).role, offset, (vals.get i).getD 0, offset, ms, false⟩

/-- A member takes its value of a half-cycle (R67). -/
def Member.take (vals : PerInput (Option Nat)) (offset ms : Nat) (m : Member) : Member :=
  match vals.get m.input with
  | some v => if v < m.minimum then { m with minimum := v, minOffset := offset, minMs := ms } else m
  | none => m

/-- The inputs whose detectors went from Normal to Low. -/
def newlyLow (before after : PerInput (Option Detector)) : List Input :=
  Input.voltages.filter fun i => before.get i == some .normal && isLow (after.get i)

/-- An event opens (R66): number, start, members, onset claim, Attention Event. -/
def State.openEventNow (s : State) (k : Fin 8) (x : Site) (vals : PerInput (Option Nat)) (low : List Input) :
    State :=
  let c := s.claim .onset x.label x.sag.nextEvent
  let e : OpenEvent :=
    { number := x.sag.nextEvent, start := s.fe.lastHalfStart, version := x.version, limits := x.active
      halves := 1, members := low.map (newMember x.map vals 0 0), cls := .sag
      onset := claimOutcome c.2, lossWaits := false }
  (({ c.1 with sag := { c.1.sag with openEvent := some e } }.modSite k fun y =>
    { y with openEvent := x.sag.nextEvent, sag := { y.sag with nextEvent := x.sag.nextEvent + 1 } }).raise
      .event)

/-- An open event takes a half-cycle set: members' minima, and the detectors that join (R67), behind the members
it has (log 50). -/
def OpenEvent.takeSet (e : OpenEvent) (m : ChannelMap) (halfStart : Stamp) (vals : PerInput (Option Nat))
    (low : List Input) : OpenEvent :=
  let ms := halfStart.up - e.start.up
  let joining := low.filter fun i => !(e.members.any fun b => b.input == i)
  { e with
    halves := e.halves + 1
    members := e.members.map (Member.take vals e.halves ms) ++ joining.map (newMember m vals e.halves ms) }

/-- Every valued L-role voltage is below the interruption threshold, and there is one (R68). -/
def allInterrupted (l : Limits) (vals : PerInput (Option Nat)) : Bool :=
  let vs := Input.voltages.filterMap vals.get
  !vs.isEmpty && vs.all fun v => decide (v < l.interruption)

/-- The class test (R68), with its WAKE request. -/
def State.classTest (s : State) (x : Site) (vals : PerInput (Option Nat)) : State :=
  match s.sag.openEvent with
  | none => s
  | some e =>
    if e.cls = .sag ∧ allInterrupted e.limits vals then
      let s1 := { s with sag := { s.sag with openEvent := some { e with cls := .interruption } } }
      if x.options.wakeOnInterruption then s1.wakeRequest (.interruption x.label e.number) else s1
    else s

/-- What the detector report shows (R65): a detector lost ahead of the set that was Low or in Long Hold
during the half-cycle shows so. -/
def SagMonitor.reported (m : SagMonitor) : PerInput (Option Detector) := PerInput.of fun i =>
  match m.lostAhead.get i with
  | some .low => some .low
  | some .longHold => some .longHold
  | _ => m.detectors.get i

/-- Some member of the event is Low. -/
def memberLow (e : OpenEvent) (detectors : PerInput (Option Detector)) : Bool :=
  e.members.any fun m => isLow (detectors.get m.input)

/-- The Recovered close, or the Lead Lost close that waited for this set (R69, R71). A Recovered event ends
before the half-cycle on which it recovers, so its members stay as they were before that set (R67). -/
def State.recoveryTest (s : State) (k : Fin 8) (x : Site) (before : List Member) : State :=
  match s.sag.openEvent with
  | none => s
  | some e =>
    if memberLow e s.sag.detectors then
      { s with sag := { s.sag with openEvent := some { e with lossWaits := false } } }
    else if e.lossWaits then s.closeEvent k .leadLost s.fe.lastHalfEnd e.halves .notTaken
    else
      let c := { s with sag := { s.sag with openEvent := some { e with members := before } } }.claim
        .recovery x.label e.number
      c.1.closeEvent k .recovered s.fe.lastHalfStart (e.halves - 1) (claimOutcome c.2)

/-- The event part of a half-cycle set: joining, or opening (R66, R67). -/
def State.eventTakes (s : State) (k : Fin 8) (x : Site) (vals : PerInput (Option Nat)) (low : List Input) :
    State :=
  match s.sag.openEvent with
  | some e => { s with sag := { s.sag with
      openEvent := some (e.takeSet x.map s.fe.lastHalfStart vals low) } }
  | none => if low.isEmpty then s else s.openEventNow k x vals low

/-- The Sag Monitor takes a half-cycle value set of a Surveying site (R62, R66 to R69). -/
def State.takeValueSet (s : State) (k : Fin 8) (x : Site) (vals : PerInput (Option Nat)) : State :=
  let l := s.detectionSet x
  let moved := PerInput.of fun i => (s.sag.detectors.get i).map (Detector.move l (vals.get i))
  let low := newlyLow s.sag.detectors moved
  let s1 := { s with sag := { s.sag with detectors := moved } }
  (((s1.eventTakes k x vals low).classTest x vals).recoveryTest k x
    ((s.sag.openEvent.map (·.members)).getD []))

/-! ## Losses and returns (R64, R71) -/

/-- The member of an input is marked lost (R64). -/
def OpenEvent.markLost (e : OpenEvent) (i : Input) : OpenEvent :=
  { e with members := e.members.map fun m => if m.input = i then { m with lost := true } else m }

/-- The input is a member of the open event. -/
def OpenEvent.hasMember (e : OpenEvent) (i : Input) : Bool := e.members.any fun m => m.input == i

/-- A loss reaches the open event (R64, R71); `ahead` when it is taken before the value set of its
half-cycle, in which case the close waits for that set. -/
def State.eventLoses (s : State) (k : Fin 8) (i : Input) (ahead : Bool) : State :=
  match s.sag.openEvent with
  | none => s
  | some e =>
    if e.hasMember i then
      let e1 := e.markLost i
      let s1 := { s with sag := { s.sag with openEvent := some e1 } }
      if ahead then
        { s1 with sag := { s1.sag with openEvent := some { e1 with lossWaits := true } } }
      else if memberLow e1 s1.sag.detectors then s1
      else s1.closeEvent k .leadLost s1.fe.lastHalfEnd e1.halves .notTaken
    else s

/-- The Sag Monitor is told of a loss (R64): a detector becomes Absent. -/
def State.sagLoses (s : State) (k : Fin 8) (i : Input) (ahead : Bool) : State :=
  match s.sag.detectors.get i with
  | none => s
  | some _ =>
    { s with sag := { s.sag with detectors := s.sag.detectors.set i (some .absent) } }.eventLoses k i ahead

/-- The Sag Monitor is told of a return (R64): an Absent detector begins Settling. -/
def State.sagReturns (s : State) (i : Input) : State :=
  match s.sag.detectors.get i with
  | some .absent =>
    { s with sag := { s.sag with detectors := s.sag.detectors.set i (some (.settling 0 false)) } }
  | _ => s

/-! ## Outcomes (R74, R78, R79, R81) -/

/-- An outcome is written into an event record. -/
def EventRecord.setOutcome (r : EventRecord) (kind : CaptureKind) (event : Nat) (o : CaptureOutcome) :
    EventRecord :=
  if r.number = event then
    match kind with
    | .onset => { r with onset := o }
    | .recovery => { r with recovery := o }
    | .snapshot => r
  else r

/-- The outcome of an Onset or Recovery capture is written into the open event or the waiting record
(R78, R79). -/
def State.setOutcome (s : State) (site : Nat) (kind : CaptureKind) (event : Nat) (o : CaptureOutcome) : State :=
  let s1 : State := match s.sag.openEvent with
    | some e =>
      if kind = CaptureKind.onset ∧ e.number = event then
        { s with sag := { s.sag with openEvent := some { e with onset := o } } }
      else s
    | none => s
  s1.modLabel site fun x => { x with sag := { x.sag with
    admission := x.sag.admission.map fun r => EventRecord.setOutcome r kind event o } }

/-- The outcome of a snapshot as its entry gives it (R81). -/
def snapshotOutcome : CaptureOutcome → SnapshotOutcome
  | .admitted n => .admitted n
  | .refused | .skipped | .notTaken | .collecting => .refused
  | .abandoned => .abandoned

/-- A capture reaches its final outcome (R78, R79, R81). -/
def State.finishCapture (s : State) (k : Fin 4) (t : Tracker) (o : CaptureOutcome) : State :=
  match t.kind with
  | .onset | .recovery => s.setOutcome t.site t.kind t.event o
  | .snapshot => s.put t.site (.snapshot (snapshotOutcome o) k.val t.claimed.time t.triggerStart)

/-- Close Site frees one tracker of the site (R79). -/
def State.abandonTracker (s : State) (site : Nat) (k : Fin 4) : State :=
  match s.sag.trackers[k] with
  | none => s
  | some t => if t.site = site then (s.freeTracker k).finishCapture k t .abandoned else s

/-- Close Site frees every Collecting tracker of the site (R79). -/
def State.abandonTrackers (s : State) (site : Nat) : State :=
  trackerNumbers.foldl (fun s k => s.abandonTracker site k) s

/-! ## Completion of a capture (R77, R78) -/

/-- One piece of a span (R33, R78): `j` counts the span's cycles from 0. -/
def State.spanPiece (s : State) (t : Tracker) (id j : Nat) : CapturePiece :=
  let first := (s.fe.ring.head?.map (·.start)).getD t.triggerStart
  let found :=
    if t.trigger + j ≤ t.kind.span.1 then none
    else s.fe.ring.find? fun c => c.number == t.trigger + j - t.kind.span.1
  { site := t.site, capture := id, kind := t.kind, event := t.event, piece := j + 1
    start := (found.map (·.start)).getD first, cycle := found }

/-- The pieces of a tracker's span under a capture id, in span order (R77, R78). -/
def State.spanPieces (s : State) (t : Tracker) (id : Nat) : List CapturePiece :=
  (List.range (t.kind.span.1 + 1 + t.kind.span.2)).map (s.spanPiece t id)

/-- A tracker whose last span cycle has entered the ring (R77). -/
def Tracker.complete (t : Tracker) : Bool := t.remaining == 0

/-- Among two trackers, the one claimed first (R78). -/
def SagMonitor.firstComplete (m : SagMonitor) : Option (Fin 4 × Tracker) :=
  trackerNumbers.foldl (fun best k =>
    match m.trackers[k], best with
    | some t, none => if t.complete then some (k, t) else none
    | some t, some b => if t.complete ∧ t.order < b.2.order then some (k, t) else some b
    | none, b => b) none

/-- CAPTURE_COMPLETE (R77, R78): the tracker claimed first among those that are complete copies its
span, offers the capture, and becomes Free. -/
def execCaptureComplete (s : State) : Result :=
  match s.sag.firstComplete with
  | none => .next s
  | some (k, t) =>
    let o := s.offerCapture t.site (s.spanPieces t)
    .next ((o.1.freeTracker k).finishCapture k t o.2)

/-- The report of a half-cycle shows some inputs' detectors in another state (R65). -/
def DetectorReport.amend (r : DetectorReport) (changed : Input → Bool) (ds : PerInput (Option Detector)) :
    DetectorReport :=
  { r with detectors := PerInput.of fun i => if changed i then ds.get i else r.detectors.get i }

def Interval.amendReport (iv : Interval) (half : Nat) (changed : Input → Bool)
    (ds : PerInput (Option Detector)) : Interval :=
  { iv with reports := iv.reports.map fun r => if r.half = half then r.amend changed ds else r }

/-- The report of the last half-cycle shows some inputs' detectors as they stand now (R65). -/
def State.amendReport (s : State) (changed : Input → Bool) : State :=
  { s with interval := s.interval.map fun iv => iv.amendReport s.fe.halfCount changed s.sag.detectors }

/-- SETTLE_DONE (R62): a detector whose settle count has reached its end enters Normal on that same
half-cycle set, and the report of that half-cycle shows it so (R65). -/
def execSettleDone (i : Input) (s : State) : Result :=
  match s.sag.detectors.get i with
  | some (.settling _ true) =>
    .next ({ s with sag := { s.sag with
      detectors := s.sag.detectors.set i (some .normal) } }.amendReport fun j => j == i)
  | _ => .next s

/-- The members that are Low enter Long Hold (R70). -/
def holdMembers (e : OpenEvent) (ds : PerInput (Option Detector)) : PerInput (Option Detector) :=
  PerInput.of fun i => if e.hasMember i ∧ isLow (ds.get i) then some .longHold else ds.get i

/-- The open event has lasted its long limit at the end of the last half-cycle (R70). -/
def State.longReached (s : State) (e : OpenEvent) : Bool :=
  decide (e.start.up + e.limits.longLimit * 1000 ≤ s.fe.lastHalfEnd.up)

/-- EVENT_LONG (R70): the open event closes Long at the end of the half-cycle, and the reports show its
Low members in Long Hold (R65). -/
def execEventLong (s : State) : Result :=
  match s.sag.openEvent, s.liveSlot with
  | some e, some k =>
    if s.longReached e then
      let s1 := { s with sag := { s.sag with detectors := holdMembers e s.sag.detectors } }
      .next ((s1.closeEvent k .long s.fe.lastHalfEnd e.halves .notTaken).amendReport fun i =>
        e.hasMember i && isLow (s.sag.detectors.get i))
    else .next s
  | _, _ => .next s

end Sys2Proof.Machine
end

