-- ==== Sys2Proof/Machine/Intervals.lean ====
section
/-! DEFINITION. The Interval Aggregator (chapter 05): alignment, judging and accumulation of blocks,
closing, statistics and the interval record. -/

namespace Sys2Proof.Machine

/-! ## Alignment (R87, R88) -/

/-- The period of the boundaries of an interval length in minutes, in ms (R87). -/
def boundaryPeriod (length : Nat) : Nat := 60000 * length

/-- The first boundary after a time (R87). -/
def nextBoundary (length t : Nat) : Nat := (t / boundaryPeriod length + 1) * boundaryPeriod length

/-- The survey time of a count of milliseconds. -/
def timeOfMs (t : Nat) (unset : Bool) : Time := ⟨t / 1000, t % 1000, unset⟩

/-- A channel accumulator at the opening of an interval (R88). -/
def Channel.fresh (depth : Nat) : Channel :=
  ⟨.unused, false, false, false, 0, 0, 0, 0, 0, 0, 0, 0, List.replicate depth (0, 0)⟩

/-- An interval at its opening (R88). -/
def Interval.opened (k : Fin 8) (x : Site) (start : Time) : Interval :=
  { slot := k, label := x.label, start := start
    endMs := nextBoundary x.active.intervalLength start.total
    startedLate := decide (start.total % boundaryPeriod x.active.intervalLength ≠ 0)
    version := x.version, length := x.active.intervalLength, depth := x.active.depth
    unsetSeen := false, total := 0, marked := 0, unlocked := 0
    freqCount := 0, freqLow := 0, freqHigh := 0, freqSum := 0
    channels := PerInput.same (Channel.fresh x.active.depth)
    held := [], reports := [], lastBlock := none }

/-- An interval opens for the site in a slot (R88). -/
def State.openInterval (s : State) (k : Fin 8) (start : Time) : State :=
  match s.site k with
  | some x => { s with interval := some (Interval.opened k x start) }
  | none => s

/-! ## Judging a block (R89, R92 to R94) -/

/-- The half-cycles of a block (R89). -/
def blockHalves (b : BlockResult) : List Nat :=
  (List.range (2 * b.cycles)).map fun j => 2 * b.cycles * (b.number - 1) + 1 + j

/-- The last half-cycle of a block (R89). -/
def lastHalf (b : BlockResult) : Nat := 2 * b.cycles * b.number

/-- A report shows a detector in Low or Long Hold (R89). -/
def DetectorReport.marks (r : DetectorReport) : Bool :=
  Input.voltages.any fun i => r.detectors.get i == some .low || r.detectors.get i == some .longHold

/-- A block is marked (R89). -/
def blockMarked (reports : List DetectorReport) (b : BlockResult) : Bool :=
  reports.any fun r => (blockHalves b).contains r.half && r.marks

/-- A detector judges values: Normal, Low or Long Hold (R92). -/
def Detector.judges : Detector → Bool
  | .normal | .low | .longHold => true
  | .settling _ _ | .absent => false

/-- Every half-cycle of a block has a report that shows an input's detector judging (R92). -/
def judgedThroughout (reports : List DetectorReport) (b : BlockResult) (i : Input) : Bool :=
  (blockHalves b).all fun h => reports.any fun r => r.half == h &&
    (match r.detectors.get i with
      | some d => d.judges
      | none => false)

/-- An input counts a block (R92). -/
def countsBlock (reports : List DetectorReport) (b : BlockResult) (i : Input) (r : InputResult) : Bool :=
  r.throughout && !b.mapChanged && (!(i.isVoltage && r.role.isL) || judgedThroughout reports b i)

/-- A harmonic block enters a channel's harmonic sums (R93). -/
def Channel.addHarmonics (c : Channel) (depth : Nat) (mags : List Nat) : Channel :=
  { c with
    harmonic := c.harmonic + 1
    thdSum := c.thdSum + thdOf depth mags
    thdHigh := max c.thdHigh (thdOf depth mags)
    orders := List.zipWith (fun o m => (o.1 + m, max o.2 m)) c.orders mags }

/-- A counted block's RMS enters a channel (R93). -/
def Channel.addRms (c : Channel) (marked : Bool) (rms : Nat) : Channel :=
  { c with
    counted := c.counted + 1
    unmarked := c.unmarked + (!marked).toNat
    rmsLow := if c.counted = 0 then rms else min c.rmsLow rms
    rmsHigh := max c.rmsHigh rms
    rmsSquares := c.rmsSquares + rms * rms }

/-- The presence marks of a judged block on a channel (R94). -/
def Channel.note (c : Channel) (role : Role) (verified : Bool) (r : Option InputResult) : Channel :=
  match r with
  | some x =>
    if x.throughout then
      { c with role := x.role, appeared := true, unverified := c.unverified || !verified }
    else { c with lost := c.lost || decide (role ≠ .unused) }
  | none => { c with lost := c.lost || decide (role ≠ .unused) }

/-- A judged block updates one channel (R92 to R94). -/
def Channel.judge (c : Channel) (reports : List DetectorReport) (marked : Bool) (depth : Nat)
    (m : ChannelMap) (b : BlockResult) (i : Input) : Channel :=
  let c1 := c.note (b.roles.get i) (m.get i).verified (b.results.get i)
  match b.results.get i with
  | none => c1
  | some r =>
    if countsBlock reports b i r then
      match r.harmonics with
      | some mags => if marked then c1.addRms marked r.rms else (c1.addRms marked r.rms).addHarmonics depth mags
      | none => c1.addRms marked r.rms
    else c1

/-- The frequency of a fully Locked block enters the accumulator (R93). -/
def Interval.addFrequency (iv : Interval) (f : Nat) : Interval :=
  { iv with
    freqCount := iv.freqCount + 1
    freqLow := if iv.freqCount = 0 then f else min iv.freqLow f
    freqHigh := max iv.freqHigh f
    freqSum := iv.freqSum + f }

/-- A block of the interval is judged (R89, R93), and its reports are dropped. -/
def Interval.judge (iv : Interval) (m : ChannelMap) (b : BlockResult) : Interval :=
  let marked := blockMarked iv.reports b
  let iv1 := match b.frequency with
    | some f => iv.addFrequency f
    | none => iv
  { iv1 with
    total := iv.total + 1
    marked := iv.marked + marked.toNat
    unlocked := iv.unlocked + (!b.fullyLocked).toNat
    unsetSeen := iv.unsetSeen || b.endTime.unset
    channels := PerInput.of fun i => (iv.channels.get i).judge iv.reports marked iv.depth m b i
    reports := iv.reports.filter fun r => decide (lastHalf b < r.half) }

/-- A block belongs to the interval: it is judged when the report of its last half-cycle is held, and
held otherwise (R89, R90). -/
def Interval.take (iv : Interval) (m : ChannelMap) (b : BlockResult) : Interval :=
  let iv1 := { iv with lastBlock := some b.endTime }
  if iv.reports.any fun r => r.half == lastHalf b then iv1.judge m b
  else { iv1 with held := iv1.held ++ [b] }

/-- Blocks held without the report of their last half-cycle are judged with the reports held (R96). -/
def Interval.judgeHeld (iv : Interval) (m : ChannelMap) : Interval :=
  iv.held.foldl (fun v b => v.judge m b) { iv with held := [] }

/-- A detector report is kept (R89), and a held block whose last half-cycle it is is judged. -/
def Interval.report (iv : Interval) (m : ChannelMap) (r : DetectorReport) : Interval :=
  let iv1 := { iv with
    reports := iv.reports ++ [r]
    held := iv.held.filter fun b => decide (lastHalf b ≠ r.half) }
  (iv.held.filter fun b => decide (lastHalf b = r.half)).foldl (fun v b => v.judge m b) iv1

/-- The Sag Monitor hands on its report of the half-cycle just taken (R65, R89). -/
def State.report (s : State) (x : Site) : State :=
  { s with interval := s.interval.map fun iv => iv.report x.map ⟨s.fe.halfCount, s.sag.reported⟩ }

/-! ## Closing (R95 to R99) -/

/-- Why a channel has no harmonic statistics (R97). -/
def Channel.noHarmonics (c : Channel) : Option NoHarmonics :=
  if c.harmonic ≠ 0 then none
  else if c.counted = 0 then some .noneCounted
  else if c.unmarked = 0 then some .allMarked
  else some .noFundamental

/-- The sub-record of a channel that Appeared (R94, R97, R99). -/
def Channel.subRecord (c : Channel) (i : Input) : SubRecord :=
  { input := i, role := c.role, lost := c.lost, unverified := c.unverified
    counted := c.counted, harmonic := c.harmonic
    rms := if c.counted = 0 then none
      else some (c.rmsLow, roundSqrt c.rmsSquares c.counted, c.rmsHigh)
    thd := if c.harmonic = 0 then (0, 0) else (roundDiv c.thdSum c.harmonic, c.thdHigh)
    orders := if c.harmonic = 0 then c.orders.map fun _ => (0, 0)
      else c.orders.map fun o => (roundDiv o.1 c.harmonic, o.2)
    noHarmonics := c.noHarmonics }

/-- The inputs of one kind that Appeared, by role (R98). -/
def byRole (channels : PerInput Channel) (is : List Input) : List Input :=
  [Role.l1, .l2, .l3, .ne, .n, .unused].flatMap fun r =>
    is.filter fun i => (channels.get i).appeared && decide ((channels.get i).role = r)

/-- The order of sub-records: voltages before currents, and by role within each (R98). -/
def channelOrder (channels : PerInput Channel) : List Input :=
  byRole channels Input.voltages ++ byRole channels Input.currents

/-- Lowest, mean and highest frequency (R97). -/
def Interval.frequency (iv : Interval) : Option (Nat × Nat × Nat) :=
  if iv.freqCount = 0 then none
  else some (iv.freqLow, roundDiv iv.freqSum iv.freqCount, iv.freqHigh)

/-- The record of an interval that closes (R98): its number, end cause, end in milliseconds of survey
time, and whether it is Ended Early. -/
def Interval.toRecord (iv : Interval) (number : Nat) (cause : IntervalEnd) (fin : Nat) (early : Bool) :
    IntervalRecord :=
  { site := iv.label, number := number, start := iv.start, unsetSeen := iv.unsetSeen
    length := iv.length, spanMs := msBetween iv.start.total fin
    startedLate := iv.startedLate, endedEarly := early, endCause := cause
    version := iv.version, depth := iv.depth
    total := iv.total, marked := iv.marked, unlocked := iv.unlocked, frequency := iv.frequency
    channels := (channelOrder iv.channels).map fun i => (iv.channels.get i).subRecord i }

/-- The intervals counter of a site (R18). -/
def Site.countInterval (x : Site) : Site :=
  { x with counters := { x.counters with intervals := satAdd x.counters.intervals 1 } }

/-- Steps 4 and 5 of R96: the number is taken, and the record is handed to the store. -/
def State.admitInterval (s : State) (iv : Interval) (x : Site) (cause : IntervalEnd) (fin : Nat)
    (early : Bool) : State :=
  let s1 := s.modSite iv.slot fun y => { y with nextInterval := x.nextInterval + 1 }
  let r := s1.admitRecord .intervals (.interval (iv.toRecord x.nextInterval cause fin early))
  if r.2 then r.1.modSite iv.slot Site.countInterval else r.1

/-- The current interval closes (R96). -/
def State.closeInterval (s : State) (cause : IntervalEnd) (fin : Nat) (early : Bool) : State :=
  match s.interval.bind fun iv => (s.site iv.slot).map fun x => (iv, x) with
  | none => { s with interval := none }
  | some (iv, x) =>
    let iv1 := iv.judgeHeld x.map
    let s1 := { s with interval := none }
    if iv1.total = 0 then s1 else s1.admitInterval iv1 x cause fin early

/-- An order or action closes the current interval (R95). -/
def State.closeIntervalByOrder (s : State) (cause : IntervalEnd) : State :=
  match s.interval with
  | none => s
  | some iv => s.closeInterval cause (min s.clock.total iv.endMs) (decide (s.clock.total < iv.endMs))

/-! ## Block results (R90) -/

/-- A block belongs to the current interval (R89, R90). -/
def State.intervalTakes (s : State) (b : BlockResult) : State :=
  match s.interval.bind fun iv => (s.site iv.slot).map fun x => (iv, x) with
  | none => s
  | some (iv, x) => { s with interval := some (iv.take x.map b) }

/-- The reports of a block's half-cycles, which outlive the interval that its boundary closes (step 2 of
R96). -/
def reportsOf (iv : Interval) (b : BlockResult) : List DetectorReport :=
  iv.reports.filter fun r => (blockHalves b).contains r.half

/-- The four steps of a boundary (R90): close, apply a pending set, open, and take the block. -/
def State.boundary (s : State) (iv : Interval) (b : BlockResult) (cause : IntervalEnd) (fin : Nat)
    (early : Bool) (start : Time) : State :=
  let s1 := ((s.closeInterval cause fin early).applyPending iv.slot).openInterval iv.slot start
  State.intervalTakes { s1 with
    interval := s1.interval.map fun n => { n with reports := reportsOf iv b } } b

/-- The Interval Aggregator takes a block result (R90). -/
def State.takeBlock (s : State) (b : BlockResult) : State :=
  match s.interval with
  | none => s
  | some iv =>
    if b.endTime.total < iv.start.total then
      s.boundary iv b .clockWrap ((iv.lastBlock.getD iv.start).total) true ⟨0, 0, b.endTime.unset⟩
    else if b.endTime.total < iv.endMs then s.intervalTakes b
    else s.boundary iv b .boundary iv.endMs false (timeOfMs iv.endMs b.endTime.unset)

end Sys2Proof.Machine
end

