-- ==== Sys2Proof/Machine/Watch.lean ====
section
/-! DEFINITION. Lead watch (R53 to R56): the inputs it supervises and the moves that leave no entry. -/

namespace Sys2Proof.Machine

/-! ## The supervised inputs (R53) -/

/-- Lead watch supervises every used input but the N-E input. -/
def supervises (m : ChannelMap) (i : Input) : Bool :=
  decide ((m.get i).role ≠ .unused ∧ (m.get i).role ≠ .ne)

/-- An input as it enters the set. -/
def LeadState.enter (e : MapEntry) : LeadState :=
  ⟨if e.presence = .absent then .lost else .present, none, none, none, none, 0⟩

/-- Lead watch at its start for a map. -/
def freshWatch (m : ChannelMap) : PerInput (Option LeadState) :=
  PerInput.of fun i => if supervises m i then some (LeadState.enter (m.get i)) else none

/-- Lead watch after a map change on the live site: an input that stays in the set keeps its state. -/
def changedWatch (w : PerInput (Option LeadState)) (m : ChannelMap) : PerInput (Option LeadState) :=
  PerInput.of fun i =>
    if supervises m i then some ((w.get i).getD (LeadState.enter (m.get i))) else none

def State.startWatch (s : State) (m : ChannelMap) : State := { s with watch := freshWatch m }

def State.changeWatch (s : State) (m : ChannelMap) : State := { s with watch := changedWatch s.watch m }

/-- Lead watch ends: every state and timer is dropped. -/
def State.stopWatch (s : State) : State := { s with watch := PerInput.same none }

/-! ## Voltage leads (R54, R55) -/

/-- A measure is low (R54). -/
def lowMeasure (v : Nat) : Bool := decide (v < Config.presenceLevel)

/-- A half-cycle supports the loss of an input: another L-role voltage input of the site measures at or
above the sag threshold (R55). -/
def supportsLoss (m : ChannelMap) (sag : Nat) (measures : PerInput (Option Nat)) (i : Input) : Bool :=
  (lVoltages m).any fun j => j != i && (match measures.get j with
    | some v => decide (sag ≤ v)
    | none => false)

/-- The loss run after a low half-cycle that began at an instant (R55). -/
def lossRun (run : Option Stamp) (start : Stamp) (supports : Bool) : Option Stamp :=
  if supports then some (run.getD start) else none

/-- A Doubtful input is judged on its latest measure or pulse (R53, R55, R56): its loss is due when its
loss run or open time has then lasted the holdoff in force. -/
def LeadState.judge (w : LeadState) (holdoff : Nat) (judged : Stamp) : LeadState :=
  { w with due := match w.status, w.run with
      | .doubtful, some r => if r.up + holdoff * 10000 ≤ judged.up then some holdoff else none
      | _, _ => none }

/-- The move of a voltage lead on the measure of a half-cycle that began at an instant (R54). -/
def LeadState.measure (w : LeadState) (v : Nat) (start : Stamp) (supports : Bool) : LeadState :=
  match w.status, lowMeasure v with
  | .present, false => { w with last := v }
  | .present, true => { w with status := .doubtful, run := lossRun none start supports, last := v }
  | .doubtful, false => { w with status := .present, run := none, last := v }
  | .doubtful, true => { w with run := lossRun w.run start supports, last := v }
  | .lost, true => { w with last := v }
  | .lost, false => { w with status := .returning, confirm := some start, last := v }
  | .returning, true => { w with status := .lost, confirm := none, last := v }
  | .returning, false => { w with last := v }

/-- The move of one input on the measures of a half-cycle, under the limits set in force at its end. -/
def watchMeasure (m : ChannelMap) (l : Limits) (measures : PerInput (Option Nat)) (start fin : Stamp)
    (i : Input) (w : LeadState) : LeadState :=
  match measures.get i with
  | some v =>
    if isLVoltage m i then
      (w.measure v start (supportsLoss m l.sag measures i)).judge l.leadHoldoff fin
    else w
  | none => w

/-- Lead watch takes the presence measures of a half-cycle (R54). -/
def State.watchHalf (s : State) (x : Site) (measures : PerInput (Option Nat)) (start : Stamp) : State :=
  { s with watch := PerInput.of fun i =>
      (s.watch.get i).map (watchMeasure x.map x.active measures start s.fe.lastHalfEnd i) }

/-! ## Clamps (R56) -/

/-- The move of a clamp on a classification and its sense level, pulsed at an instant (R56). -/
def LeadState.sense (w : LeadState) (c : SenseClass) (level : Nat) (at_ : Stamp) : LeadState :=
  match w.status, decide (c = .opened) with
  | .present, false => { w with last := level }
  | .present, true => { w with status := .doubtful, run := some at_, last := level }
  | .doubtful, false => { w with status := .present, run := none, last := level }
  | .doubtful, true => { w with last := level }
  | .lost, true => { w with last := level }
  | .lost, false => { w with status := .returning, confirm := some at_, last := level }
  | .returning, true => { w with status := .lost, confirm := none, last := level }
  | .returning, false => { w with last := level }

/-- The move of one input on the classifications of a pulse, under the clamp holdoff in force. -/
def watchSense (holdoff : Nat) (sense : PerClamp (Option SenseClass)) (levels : PerClamp Nat) (at_ : Stamp)
    (i : Input) (w : LeadState) : LeadState :=
  match sense.get none i with
  | some c => if i.isVoltage then w else (w.sense c (levels.get 0 i) at_).judge holdoff at_
  | none => w

/-- Lead watch takes the classifications of the pulse at a block's start (R29, R56). -/
def State.watchPulse (s : State) (x : Site) (levels : PerClamp Nat) : State :=
  { s with
    fe := { s.fe with lastPulse := s.fe.blockStart }
    watch := PerInput.of fun i => (s.watch.get i).map (watchSense x.active.clampHoldoff s.fe.sense levels s.fe.blockStart i) }

/-! ## Declarations (R54 to R56) -/

/-- The instant of the last measure of an input: the end of the last half-cycle, or the last pulse. -/
def State.lastJudged (s : State) (i : Input) : Stamp := if i.isVoltage then s.fe.lastHalfEnd else s.fe.lastPulse

/-- A Returning input that has stayed present for 2 s (R54, R56). -/
def LeadState.returnDue (w : LeadState) (judged : Stamp) : Bool :=
  decide (w.status = .returning) && (match w.confirm with
    | some c => decide (c.up + Config.confirmMs ≤ judged.up)
    | none => false)

/-- A lead that is declared Lost. -/
def LeadState.declareLost (now : Stamp) (w : LeadState) : LeadState :=
  { w with status := .lost, run := none, due := none, confirm := none, lostAt := some now }

/-- A lead that is confirmed Present. -/
def LeadState.declarePresent (w : LeadState) : LeadState :=
  { w with status := .present, run := none, due := none, confirm := none, lostAt := none }

end Sys2Proof.Machine
end

