-- ==== Sys2Proof/Machine/Check.lean ====
section
/-! DEFINITION. The Kit Check Unit's check (R38 to R52): its phases, its judgements, its verdict and its
end. -/

namespace Sys2Proof.Machine

/-! ## The check record (R38, R39, R42) -/

/-- A sense classification as a presence result (R42). -/
def clampPresence : SenseClass → PresenceResult
  | .fitted => .fitted
  | .opened => .opened
  | .short => .short

/-- One input of a check record at its creation (R39, R42): a used clamp has its presence result. -/
def InputCheck.fresh (m : ChannelMap) (sense : PerClamp (Option SenseClass)) (levels : PerClamp Nat)
    (i : Input) : InputCheck :=
  let r := (m.get i).role
  match sense.get none i with
  | some c =>
    if r = .unused then ⟨r, 0, 0, .notReached, 0, [], 0⟩
    else ⟨r, 0, 0, clampPresence c, levels.get 0 i, [], 0⟩
  | none => ⟨r, 0, 0, .notReached, 0, [], 0⟩

/-- A check record at its creation (R38, R39): no rotation result is reached yet, also on a Single site, whose
result is Not Applicable from the end of Presence on (log 54; R44, R51). -/
def CheckRecord.fresh (k : Fin 8) (m : ChannelMap) (sense : PerClamp (Option SenseClass))
    (levels : PerClamp Nat) (now : Stamp) : CheckRecord :=
  { slot := k, phase := .presence, phaseStart := now
    inputs := PerInput.of (InputCheck.fresh m sense levels)
    presenceEnd := none, rotation := .notReached, run := 0, runPattern := none, runEnd := now
    lockWaitStart := now, lockWaitDue := false }

/-! ## The Presence phase (R41) -/

/-- A presence measure is collected (R41). -/
def InputCheck.collect (c : InputCheck) (v : Option Nat) : InputCheck :=
  match v with
  | some v => { c with squares := c.squares + v * v, measures := c.measures + 1 }
  | none => c

/-- The quadratic mean of the measures of the phase (R41). -/
def InputCheck.meanLevel (c : InputCheck) : Nat := if c.measures = 0 then 0 else roundSqrt c.squares c.measures

/-- The presence result of an input at the end of the phase (R41). -/
def InputCheck.judgePresence (c : InputCheck) (i : Input) : InputCheck :=
  if c.roleAtStart = .unused then { c with presence := .notUsed }
  else if ¬ i.isVoltage then c
  else if ¬ c.roleAtStart.isL then { c with presence := .notJudged, level := c.meanLevel }
  else { c with
    presence := if Config.presenceLevel ≤ c.meanLevel then .present else .absent, level := c.meanLevel }

/-- A half-cycle of the Presence phase (R41); the first that ends 1 s after its start ends it. -/
def CheckRecord.takePresence (c : CheckRecord) (measures : PerInput (Option Nat)) (now : Stamp) : CheckRecord :=
  if c.presenceEnd.isSome then c
  else { c with
    inputs := PerInput.of fun i => (c.inputs.get i).collect (measures.get i)
    presenceEnd := if c.phaseStart.up + Config.presencePhaseMs ≤ now.up then some now else none }

/-! ## Leads Moved (R47) -/

/-- The Leads Moved condition of an input in one half-cycle (R47). -/
def movedNow (m : ChannelMap) (sag : Nat) (measures : PerInput (Option Nat)) (i : Input)
    (found : PresenceResult) : Bool :=
  match measures.get i, found with
  | some v, .present => lowMeasure v && supportsLoss m sag measures i
  | some v, .absent => !lowMeasure v
  | _, _ => false

/-- A half-cycle of the Rotation or Association phase (R47). -/
def CheckRecord.takeMoved (c : CheckRecord) (m : ChannelMap) (sag : Nat) (measures : PerInput (Option Nat)) :
    CheckRecord :=
  { c with
    inputs := PerInput.of fun i =>
      let e := c.inputs.get i
      if isLVoltage m i then
        { e with moved := if movedNow m sag measures i e.presence then e.moved + 1 else 0 }
      else e }

/-- Some Leads Moved count has reached 10 (R47). -/
def CheckRecord.leadsMoved (c : CheckRecord) : Bool :=
  decide (c.phase ≠ .presence) && Input.voltages.any fun i => decide (10 ≤ (c.inputs.get i).moved)

/-- The check takes the presence measures of a half-cycle (R41, R47). -/
def State.checkHalf (s : State) (x : Site) (measures : PerInput (Option Nat)) : State :=
  { s with check := s.check.map fun c =>
      match c.phase with
      | .presence => c.takePresence measures s.fe.lastHalfEnd
      | .rotation | .association => c.takeMoved x.map x.active.sag measures }

/-! ## Runs of blocks (R43) -/

/-- A phase of runs begins (R43, R47). -/
def CheckRecord.enter (c : CheckRecord) (p : CheckPhase) (start : Stamp) : CheckRecord :=
  { c with phase := p, phaseStart := start, run := 0, runPattern := none, lockWaitStart := start
           lockWaitDue := false }

/-- A counted block that qualifies, ending at an instant (R43). -/
def CheckRecord.countBlock (c : CheckRecord) (fin : Stamp) : CheckRecord :=
  { c with run := c.run + 1, runEnd := fin, lockWaitDue := false }

/-- The lock wait has lasted 10 s (R43). -/
def lockWaited (start fin : Stamp) : Bool := decide (start.up + Config.lockWaitMs ≤ fin.up)

/-- A counted block that does not qualify (R43). -/
def CheckRecord.breakRun (c : CheckRecord) (fin : Stamp) : CheckRecord :=
  let start := if c.run = 0 then c.lockWaitStart else fin
  { c with
    run := 0, runPattern := none, lockWaitStart := start, lockWaitDue := lockWaited start fin
    inputs := c.inputs.map fun e => { e with outcomes := [] } }

/-! ## Rotation (R44) -/

/-- The angle of an input in a block (R32). -/
def BlockResult.angle (b : BlockResult) (i : Input) : Option Nat := (b.results.get i).bind (·.angle)

/-- Every L-role voltage input of the map has an angle in a block (R44, R45). -/
def anglesComplete (m : ChannelMap) (b : BlockResult) : Bool := (lVoltages m).all fun i => (b.angle i).isSome

/-- The angle of the voltage input that holds a role. -/
def roleAngle (m : ChannelMap) (b : BlockResult) (r : Role) : Nat :=
  (((lVoltages m).find? fun i => decide ((m.get i).role = r)).bind b.angle).getD 0

/-- The pattern of a block (R44); Indeterminate stands for "neither". -/
def blockPattern (m : ChannelMap) (b : BlockResult) : RotationResult :=
  let a2 := angleSub (roleAngle m b .l2) (roleAngle m b .l1)
  let a3 := angleSub (roleAngle m b .l3) (roleAngle m b .l1)
  if 900 ≤ a2 ∧ a2 ≤ 1500 ∧ 2100 ≤ a3 ∧ a3 ≤ 2700 then .abc
  else if 2100 ≤ a2 ∧ a2 ≤ 2700 ∧ 900 ≤ a3 ∧ a3 ≤ 1500 then .acb
  else .indeterminate

/-- A qualifying block of the Rotation phase: the record, Indeterminate when the check must end (R44). -/
def CheckRecord.takeRotation (c : CheckRecord) (m : ChannelMap) (b : BlockResult) (fin : Stamp) : CheckRecord :=
  let p := blockPattern m b
  if p = .indeterminate ∨ (c.runPattern.isSome ∧ c.runPattern ≠ some p) then
    { c with rotation := .indeterminate }
  else { c.countBlock fin with runPattern := some p }

/-! ## Association (R45, R46) -/

/-- The two centres of a wiring and rotation (R45). -/
def centres (w : Wiring) (r : RotationResult) : Nat × Nat :=
  match w, r with
  | .delta, .acb => (3300, 1500)
  | .delta, _ => (300, 2100)
  | .single, _ => (0, 1800)
  | .wye, _ => (0, 1800)

/-- The polarity of the first centre, and of the second (R45). -/
def centrePolarities (exportFlow : Bool) : Polarity × Polarity :=
  if exportFlow then (.reversed, .normal) else (.normal, .reversed)

/-- A pair of voltage input and polarity with its distance (R45). -/
structure AssociationPair where
  voltage : Input
  polarity : Polarity
  distance : Nat
  deriving DecidableEq, Repr

/-- The two pairs of a clamp and a voltage input (R45). -/
def pairsOf (x : Site) (r : RotationResult) (clamp voltage : Nat) (v : Input) : List AssociationPair :=
  let d := angleSub clamp voltage
  let c := centres x.wiring r
  let p := centrePolarities x.options.exportFlow
  [⟨v, p.1, angleDistance d c.1⟩, ⟨v, p.2, angleDistance d c.2⟩]

/-- The candidates of a clamp at an angle (R45). -/
def candidatesOf (x : Site) (r : RotationResult) (b : BlockResult) (clamp : Nat) : List AssociationPair :=
  ((lVoltages x.map).flatMap fun v => pairsOf x r clamp ((b.angle v).getD 0) v).filter
    fun p => decide (p.distance ≤ 600)

/-- The nearest candidate (R45). -/
def nearest : List AssociationPair → Option AssociationPair
  | [] => none
  | p :: ps => match nearest ps with
    | none => some p
    | some q => if p.distance ≤ q.distance then some p else some q

/-- The outcome of a clamp's candidates (R45). -/
def outcomeOf (cs : List AssociationPair) : BlockOutcome :=
  match nearest cs with
  | none => .noCandidate
  | some n =>
    if (cs.filter (· != n)).any fun p => decide (p.distance < n.distance + 100) then .twoCandidates
    else .candidate n.voltage n.polarity

/-- A clamp's outcome for a block (R45); Low Current is judged first. -/
def clampOutcome (x : Site) (r : RotationResult) (b : BlockResult) (i : Input) : BlockOutcome :=
  match b.results.get i with
  | none => .lowCurrent
  | some e =>
    if e.fundamental < (x.map.get i).scale then .lowCurrent
    else match e.angle with
      | none => .lowCurrent
      | some a => outcomeOf (candidatesOf x r b a)

/-- A clamp takes part in Association (R45). -/
def InputCheck.takesPart (e : InputCheck) (i : Input) : Bool :=
  !i.isVoltage && e.roleAtStart.isL && decide (e.presence = .fitted)

/-- A qualifying block of the Association phase (R45). -/
def CheckRecord.takeAssociation (c : CheckRecord) (x : Site) (b : BlockResult) (fin : Stamp) : CheckRecord :=
  { c.countBlock fin with
    inputs := PerInput.of fun i =>
      let e := c.inputs.get i
      if e.takesPart i then { e with outcomes := e.outcomes ++ [clampOutcome x c.rotation b i] } else e }

/-- The earliest No Candidate or Two Candidates among outcomes (R46). -/
def firstOpen : List BlockOutcome → Option Association
  | [] => none
  | .noCandidate :: _ => some .noCandidate
  | .twoCandidates :: _ => some .twoCandidates
  | .candidate _ _ :: os => firstOpen os
  | .lowCurrent :: os => firstOpen os

/-- The association result of a clamp from its block outcomes (R46). -/
def associationOf (os : List BlockOutcome) : Association :=
  if os.any (· == .lowCurrent) then .lowCurrent
  else match firstOpen os with
    | some a => a
    | none =>
      match os with
      | .candidate v p :: rest =>
        if rest.all (· == .candidate v p) then .associated v p else .unstable
      | _ => .unstable

/-! ## A block result reaches the check (R43 to R45) -/

/-- A counted block in the phase's run (R43 to R45); a run that is complete takes no more. -/
def CheckRecord.takeCounted (c : CheckRecord) (x : Site) (b : BlockResult) (fin : Stamp) : CheckRecord :=
  if 5 ≤ c.run then c
  else match c.phase with
    | .presence => c
    | .rotation =>
      if b.fullyLocked ∧ anglesComplete x.map b then c.takeRotation x.map b fin else c.breakRun fin
    | .association =>
      if b.fullyLocked ∧ b.reference.isSome ∧ anglesComplete x.map b then c.takeAssociation x b fin
      else c.breakRun fin

/-- The check takes a block result: it counts when the block began at or after the start of the phase
(R43). -/
def CheckRecord.takeBlock (c : CheckRecord) (x : Site) (b : BlockResult) (began fin : Stamp) : CheckRecord :=
  if c.phaseStart.up ≤ began.up then c.takeCounted x b fin else c

/-! ## The verdict (R48, R49) -/

def Findings.none : Findings := ⟨false, false, false, false, false, false⟩

/-- The findings that the Presence phase gives (R42). -/
def presenceFindings (e : InputCheck) : Findings :=
  { Findings.none with notFitted := decide (e.presence = .opened), short := decide (e.presence = .short) }

/-- What a check concludes: for each input the role found, the polarity and the findings, and the map
that its corrections leave. -/
structure Conclusion where
  map : ChannelMap
  roleFound : PerInput (Option Role)
  polarity : PerInput (Option Polarity)
  findings : PerInput Findings
  displaced : PerInput Bool
  deriving DecidableEq, Repr

/-- The polarity of an associated clamp (R46). -/
def associatedPolarity : Option Association → Option Polarity
  | some (.associated _ p) => some p
  | _ => none

/-- A check that reaches no role found: the findings of its Presence phase stand (R40, R42). -/
def Conclusion.unreached (m : ChannelMap) (c : CheckRecord) (a : PerInput (Option Association)) : Conclusion :=
  { map := m, roleFound := PerInput.same none, polarity := a.map associatedPolarity
    findings := c.inputs.map presenceFindings, displaced := PerInput.same false }

/-- The role found of a voltage input (R48). -/
def voltageRoleFound (r : RotationResult) (role : Role) : Option Role :=
  match role, r with
  | .unused, _ => none
  | .l2, .acb => some .l3
  | .l3, .acb => some .l2
  | role, _ => some role

/-- The role found of an input (R48). -/
def roleFoundOf (c : CheckRecord) (m : ChannelMap) (a : PerInput (Option Association)) (i : Input) :
    Option Role :=
  if i.isVoltage then voltageRoleFound c.rotation (m.get i).role
  else match (m.get i).role, a.get i with
    | .n, _ => some .n
    | _, some (.associated v _) => voltageRoleFound c.rotation (m.get v).role
    | _, _ => none

/-- The association result is one of the Undetermined ones (R46). -/
def isUndetermined : Option Association → Bool
  | some .lowCurrent | some .noCandidate | some .twoCandidates | some .unstable => true
  | some (.associated _ _) | some .notReached | none => false

/-- The findings of an input at the verdict (R48). -/
def findingsOf (c : CheckRecord) (m : ChannelMap) (a : PerInput (Option Association)) (i : Input) : Findings :=
  let found := roleFoundOf c m a i
  let role := (m.get i).role
  { presenceFindings (c.inputs.get i) with
    rotation := i.isVoltage && role.isL && decide (found ≠ some role)
    otherPhase := !i.isVoltage && role.isL && found.isSome && decide (found ≠ some role)
    reversed := decide (associatedPolarity (a.get i) = some .reversed)
    undetermined := isUndetermined (a.get i) }

/-- Two clamps are associated with one voltage input (R48: Clamp Conflict). -/
def clampConflict (a : PerInput (Option Association)) : Bool :=
  Input.voltages.any fun v => decide (2 ≤ (Input.currents.filter fun i =>
    match a.get i with
    | some (.associated w _) => w == v
    | _ => false).length)

/-- Steps 1 and 2 of R49 on one entry. -/
def correctEntry (found : Option Role) (f : Findings) (e : MapEntry) : MapEntry :=
  { e with
    role := if f.rotation ∨ f.otherPhase then found.getD e.role else e.role
    invert := if f.reversed then !e.invert else e.invert }

/-- The first line role that no current input holds (step 3 of R49). -/
def freeClampRole (m : ChannelMap) : Option Role :=
  [Role.l1, .l2, .l3].find? fun r => Input.currents.all fun i => decide ((m.get i).role ≠ r)

/-- A clamp is displaced: its mapped role is now held by a clamp moved in step 2 (step 3 of R49). -/
def isDisplaced (before after : ChannelMap) (found : PerInput (Option Role)) (i : Input) : Bool :=
  (before.get i).role.isL && (found.get i).isNone && Input.currents.any fun j =>
    decide ((after.get j).role = (before.get i).role) && decide ((before.get j).role ≠ (after.get j).role)

/-- Step 3 of R49 on one clamp. -/
def displace (m : ChannelMap) (i : Input) : ChannelMap :=
  match freeClampRole m with
  | some r => m.set i { m.get i with role := r }
  | none => m

/-- What a check that has completed Association concludes (R48, R49). -/
def conclude (c : CheckRecord) (x : Site) (a : PerInput (Option Association)) : Conclusion :=
  let found := PerInput.of (roleFoundOf c x.map a)
  let fs := PerInput.of (findingsOf c x.map a)
  let moved := PerInput.of fun i => correctEntry (found.get i) (fs.get i) (x.map.get i)
  let out := Input.currents.filter (isDisplaced x.map moved found)
  { map := if x.options.autoCorrect then out.foldl displace moved else x.map
    roleFound := found, polarity := a.map associatedPolarity, findings := fs
    displaced := PerInput.of fun i => x.options.autoCorrect && out.contains i }

/-- A finding that corrections cannot remove (R48). -/
def Findings.uncorrectable (f : Findings) : Bool := f.undetermined || f.notFitted || f.short

def Findings.any (f : Findings) : Bool := f.uncorrectable || f.rotation || f.otherPhase || f.reversed

/-- A finding is left at the verdict: with Auto-Correct only the uncorrectable ones are (R48). -/
def findingLeft (autoCorrect : Bool) (f : Findings) : Bool :=
  if autoCorrect then f.uncorrectable else f.any

/-- The verdict of a completed check (R48). -/
def verdictOf (x : Site) (o : Conclusion) : CheckVerdict :=
  if Input.all.any fun i => findingLeft x.options.autoCorrect (o.findings.get i) then .findings
  else if mapDiffers x.map o.map then .corrected
  else .passed

/-! ## The end of a check (R50, R51) -/

/-- The check status of a verdict (step 2 of R50). -/
def CheckVerdict.status : CheckVerdict → CheckStatus
  | .passed => .passed
  | .corrected => .corrected
  | .findings => .findings
  | .unusable _ => .unusable
  | .cancelled => .aborted
  | .closed => .aborted

def CheckVerdict.reason : CheckVerdict → Option UnusableReason
  | .unusable r => some r
  | .passed | .corrected | .findings | .cancelled | .closed => none

/-- The verdicts that give Ready (step 5 of R50). -/
def CheckVerdict.ready : CheckVerdict → Bool
  | .passed | .corrected | .findings => true
  | .unusable _ | .cancelled | .closed => false

/-- The verified flag of an input after the check (step 3 of R50). -/
def verifiedAfter (x : Site) (v : CheckVerdict) (o : Conclusion) (i : Input) : Bool :=
  decide ((o.map.get i).role ≠ .unused) && (match v with
    | .passed => true
    | .corrected => true
    | .findings => !findingLeft x.options.autoCorrect (o.findings.get i)
    | .unusable _ => false
    | .cancelled => false
    | .closed => false)

/-- The map presence that a presence result gives (step 4 of R50). -/
def presenceOf : PresenceResult → Presence
  | .present | .fitted => .present
  | .absent | .opened | .short => .absent
  | .notJudged | .notUsed | .notReached => .unknown

/-- The map presence of an input after the check (step 4 of R50). -/
def presenceAfter (c : CheckRecord) (ret : ReturnState) (v : CheckVerdict) (e : MapEntry) (i : Input) : Presence :=
  match ret with
  | .paused => e.presence
  | .drafted => if v.ready then presenceOf (c.inputs.get i).presence else .unknown

/-- The map after the check (steps 1, 3 and 4 of R50). -/
def mapAfter (c : CheckRecord) (x : Site) (ret : ReturnState) (v : CheckVerdict) (o : Conclusion) : ChannelMap :=
  PerInput.of fun i =>
    { o.map.get i with
      presence := presenceAfter c ret v (o.map.get i) i, verified := verifiedAfter x v o i }

/-- The state a check leaves its site in (step 5 of R50, R15). -/
def stateAfter (ret : ReturnState) (v : CheckVerdict) : SiteState :=
  match v, ret with
  | .closed, _ => .closed
  | _, .paused => .paused
  | v, .drafted => if v.ready then .ready else .drafted

/-- The association results that a check reports (R51). -/
def associations (c : CheckRecord) (completed : Bool) : PerInput (Option Association) :=
  PerInput.of fun i =>
    let e := c.inputs.get i
    if e.takesPart i then some (if completed then associationOf e.outcomes else .notReached) else none

/-- One finding block of the report (R51). -/
def findingBlock (c : CheckRecord) (x : Site) (v : CheckVerdict) (a : PerInput (Option Association))
    (o : Conclusion) (i : Input) : FindingBlock :=
  let e := c.inputs.get i
  let before := x.map.get i
  let after := o.map.get i
  let moved := decide (before.role ≠ after.role)
  { roleAtStart := e.roleAtStart, presence := e.presence, level := e.level, association := a.get i
    roleFound := o.roleFound.get i, polarity := o.polarity.get i, findings := o.findings.get i
    verified := verifiedAfter x v o i, roleAfter := after.role
    invertBefore := before.invert, invertAfter := after.invert
    causeRotation := moved && (o.findings.get i).rotation
    causeOtherPhase := moved && (o.findings.get i).otherPhase
    causeReversed := decide (before.invert ≠ after.invert)
    causeDisplaced := o.displaced.get i }

/-- The phase a check ended in (R51). -/
def phaseEnded (c : CheckRecord) (completed : Bool) : PhaseEnded :=
  if completed then .verdict else match c.phase with
    | .presence => .presence
    | .rotation => .rotation
    | .association => .association

/-- The content of the Check Report (R51). -/
def checkReport (c : CheckRecord) (x : Site) (ret : ReturnState) (v : CheckVerdict) (completed : Bool)
    (o : Conclusion) : CheckReport :=
  { verdict := v, phase := phaseEnded c completed, rotation := c.rotation, returnState := ret
    left := stateAfter ret v
    blocks := PerInput.of (findingBlock c x v (associations c completed) o) }

/-- The site record after steps 1 to 5 of R50; Close Site sets the state itself (R15). -/
def Site.endCheck (x : Site) (c : CheckRecord) (ret : ReturnState) (v : CheckVerdict) (o : Conclusion) : Site :=
  { x with
    map := mapAfter c x ret v o, checkStatus := v.status, unusable := v.reason
    state := if v = .closed then x.state else stateAfter ret v, returnState := none }

/-- A check on a Paused site has changed a role (step 9 of R50). -/
def rolesDiffer (a b : ChannelMap) : Bool := Input.all.any fun i => decide ((a.get i).role ≠ (b.get i).role)

/-- Steps 6, 8 and 9 of R50 around the report of step 7, for a site in its new state. -/
def State.afterCheck (s : State) (k : Fin 8) (x : Site) (ret : ReturnState) (v : CheckVerdict)
    (o : Conclusion) (report : CheckReport) : State :=
  let put (t : State) : State := (t.put x.label (.checkReport report)).raise .check
  match v, ret with
  | .closed, _ => put s
  | _, .drafted => (put s.stopWatch.stopFrontEnd).applyPending k
  | _, .paused =>
    let s1 := put ((s.noteMapChange x.map o.map).changeWatch ((s.site k).map (·.map) |>.getD x.map))
    if rolesDiffer x.map o.map then s1.rechoose ((s.site k).map (·.map) |>.getD x.map) .mapChanged else s1

/-- A check ends (R50): with a verdict, what it concluded, and whether it completed Association. -/
def State.endCheck (s : State) (c : CheckRecord) (v : CheckVerdict) (completed : Bool) (o : Conclusion) : State :=
  match s.site c.slot with
  | none => { s with check := none }
  | some x =>
    let ret := x.returnState.getD .drafted
    let s1 := { s with check := none }.modSite c.slot (·.endCheck c ret v o)
    s1.afterCheck c.slot x ret v o (checkReport c x ret v completed o)

/-- A check ends before its verdict (R40, R43, R44, R47, R15). -/
def State.breakCheck (s : State) (c : CheckRecord) (v : CheckVerdict) : State :=
  match s.site c.slot with
  | none => { s with check := none }
  | some x => s.endCheck c v false (Conclusion.unreached x.map c (associations c false))

/-- The check runs and a lead of the live site has moved in Rotation or Association (R47). -/
def State.breakOnLead (s : State) (i : Input) : State :=
  match s.check with
  | some c =>
    if c.phase ≠ .presence ∧ i.isVoltage ∧ (c.inputs.get i).roleAtStart.isL then
      s.breakCheck c (.unusable .leadsMoved)
    else s
  | none => s

/-- The check takes a block result (R43 to R45); a block that gives no rotation ends it (R44). -/
def State.checkBlock (s : State) (x : Site) (b : BlockResult) (began fin : Stamp) : State :=
  match s.check with
  | none => s
  | some c =>
    let c1 := c.takeBlock x b began fin
    if c1.rotation = .indeterminate then s.breakCheck c1 (.unusable .noRotation)
    else { s with check := some c1 }

/-! ## The steps of a check -/

/-- The check record after the Presence phase (R41, R44): the next phase, at the end of the phase's last
half-cycle. A Single site's rotation result becomes Not Applicable here and not before (log 54). -/
def CheckRecord.endPresence (c : CheckRecord) (w : Wiring) (fin : Stamp) : CheckRecord :=
  let c1 := { c with inputs := PerInput.of fun i => (c.inputs.get i).judgePresence i }
  match w with
  | .single => { c1.enter .association fin with rotation := .notApplicable }
  | .wye | .delta => c1.enter .rotation fin

/-- An L-role voltage input was found Absent (R44). -/
def CheckRecord.anyAbsent (c : CheckRecord) : Bool :=
  Input.voltages.any fun i => (c.inputs.get i).roleAtStart.isL && decide ((c.inputs.get i).presence = .absent)

/-- PRESENCE_PHASE_END (R41, R44). -/
def execPresencePhaseEnd (s : State) : Result :=
  match s.check with
  | none => .next s
  | some c =>
    match c.phase, c.presenceEnd, s.site c.slot with
    | .presence, some fin, some x =>
      let c1 := c.endPresence x.wiring fin
      if c1.phase = .rotation ∧ c1.anyAbsent then
        .next (s.breakCheck { c1 with rotation := .indeterminate } (.unusable .noRotation))
      else .next { s with check := some c1 }
    | _, _, _ => .next s

/-- ROTATION_FOUND (R44): five qualifying blocks of one pattern. -/
def execRotationFound (s : State) : Result :=
  match s.check with
  | none => .next s
  | some c =>
    if c.phase = .rotation ∧ 5 ≤ c.run then
      .next { s with
        check := some { c.enter .association c.runEnd with rotation := c.runPattern.getD .indeterminate } }
    else .next s

/-- ASSOCIATION_COMPLETE (R46 to R49): the association results, and the verdict. -/
def execAssociationComplete (s : State) : Result :=
  match s.check with
  | none => .next s
  | some c =>
    match s.site c.slot with
    | none => .next s
    | some x =>
      if c.phase = .association ∧ 5 ≤ c.run then
        let a := associations c true
        if clampConflict a then
          .next (s.endCheck c (.unusable .clampConflict) true (Conclusion.unreached x.map c a))
        else .next (s.endCheck c (verdictOf x (conclude c x a)) true (conclude c x a))
      else .next s

/-- LOCK_WAIT_EXPIRY (R43): the lock wait has reached 10 s with the run count at 0. -/
def execLockWaitExpiry (s : State) : Result :=
  match s.check with
  | none => .next s
  | some c => if c.lockWaitDue then .next (s.breakCheck c (.unusable .noReference)) else .next s

/-- LEADS_MOVED (R47): a Leads Moved count has reached 10. -/
def execLeadsMoved (s : State) : Result :=
  match s.check with
  | none => .next s
  | some c => if c.leadsMoved then .next (s.breakCheck c (.unusable .leadsMoved)) else .next s

end Sys2Proof.Machine
end

