-- ==== Sys2Proof/Machine/Leads.lean ====
section
/-! DEFINITION. Lead watch's declarations: LEAD_LOST (R57) and LEAD_RESTORED (R58). -/

namespace Sys2Proof.Machine

/-! ## The Front End's guards, which a loss taken ahead of its half-cycle set shares -/

/-- A half-cycle of the live site is in progress (R28, R30). -/
def FrontEnd.halfRuns (f : FrontEnd) (x : Site) : Bool :=
  f.runs && decide (f.halvesInCycle < 2) && decide (f.cyclesInBlock < blockCycles x.frequency)

/-! ## Loss (R57) -/

/-- A loss as its entry gives it (R57): the start of the loss run or open time, the last measure or level,
and the holdoff it reached. -/
structure Loss where
  since : Stamp
  last : Nat
  holdoff : Nat
  deriving DecidableEq, Repr

/-- The loss that the last measure or pulse of an input made due (R53, R55, R56): a holdoff that a limits
set has changed since is judged on the next one. -/
def State.lossDue (s : State) (i : Input) : Option Loss :=
  match s.watch.get i with
  | some w => match w.run, w.due with
    | some r, some h => if w.status = .doubtful then some ⟨r, w.last, h⟩ else none
    | _, _ => none
  | none => none

/-- The loss that a half-cycle which ends now makes due, before its set is taken (R54, R55, R64). -/
def State.lossAhead (s : State) (x : Site) (i : Input) (samples : PerInput (List Int)) : Option Loss :=
  let measures := presenceMeasures (s.fe.cycleMap x.map) x.nominalVoltage samples
  match s.watch.get i, measures.get i with
  | some w, some v =>
    let run := w.run.getD s.fe.lastHalfEnd
    if s.fe.halfRuns x ∧ isLVoltage x.map i ∧ (w.status = .present ∨ w.status = .doubtful)
        ∧ lowMeasure v ∧ supportsLoss x.map x.active.sag measures i
        ∧ run.up + x.active.leadHoldoff * 10000 ≤ s.up then some ⟨run, v, x.active.leadHoldoff⟩
    else none
  | _, _ => none

/-- The presence of an input changes on the live site, and with it the block in progress (R31). -/
def Site.setPresence (x : Site) (i : Input) (p : Presence) : Site :=
  { x with map := x.map.set i { x.map.get i with presence := p } }

/-- Step 1 of R57, and the end of the loss run. -/
def State.markLost (s : State) (k : Fin 8) (i : Input) : State :=
  { s with
    watch := s.watch.set i ((s.watch.get i).map (LeadState.declareLost s.now))
    fe := { s.fe with absentInBlock := s.fe.absentInBlock.set i true } }.modSite k (·.setPresence i .absent)

/-- The Sag Monitor is told of a loss (step 3 of R57); a loss ahead of its half-cycle set is remembered
until that set is taken (R64). -/
def State.tellLoss (s : State) (k : Fin 8) (i : Input) (ahead : Bool) : State :=
  let s1 := s.sagLoses k i ahead
  if ahead then
    { s1 with sag := { s1.sag with lostAhead := s1.sag.lostAhead.set i (s.sag.detectors.get i) } }
  else s1

/-- The live map of a slot. -/
def State.mapOf (s : State) (k : Fin 8) (x : Site) : ChannelMap := ((s.site k).map (·.map)).getD x.map

/-- Steps 3 and 4 of R57 for an L-role voltage input. -/
def State.lineLost (s : State) (k : Fin 8) (x : Site) (i : Input) (ahead : Bool) : State :=
  if isLVoltage x.map i then (s.tellLoss k i ahead).rechoose (s.mapOf k x) .leadLost else s

/-- Lead watch declares an input Lost (R57), and a check that this reaches ends (R47), after the five steps of
R57 (log 59). -/
def State.declareLost (s : State) (k : Fin 8) (x : Site) (i : Input) (l : Loss) (ahead : Bool) : State :=
  let s1 := (s.markLost k i).put x.label
    (.leadLost i (x.map.get i).role l.holdoff l.last l.since.time)
  ((s1.lineLost k x i ahead).raise .lead).breakOnLead i

/-- LEAD_LOST (R57): `ahead` gives the samples of the half-cycle that ends now when the loss is taken
before its value set (R64). -/
def execLeadLost (dt : Nat) (i : Input) (ahead : Option (PerInput (List Int))) (s : State) : Result :=
  let t := s.elapse dt
  match t.liveSlot, t.liveSite with
  | some k, some x =>
    match ahead with
    | none =>
      match t.lossDue i with
      | some l => .next (t.declareLost k x i l false)
      | none => .next t
    | some samples =>
      match t.lossAhead x i samples with
      | some l => .next (t.declareLost k x i l true)
      | none => .next t
  | _, _ => .next t

/-! ## Return (R58) -/

/-- A survey time, its Clock Unset flag included, as a free value gives it. -/
def freeTime (n : Nat) : Time :=
  ⟨n / 1000 % 4294967296, n % 1000, decide (n / 4294967296000 % 2 = 1)⟩

/-- The time at which a returning input was declared Lost; no such time exists when it entered lead watch
in Lost (R53), and the value is free then. -/
def State.lostTime (s : State) (w : LeadState) (i : Input) : Time :=
  match w.lostAt with
  | some t => t.time
  | none => freeTime (Config.freeLostTime (8 * s.up + i.number))

/-- The site's part in a return (step 1 of R58). -/
def Site.restoreLead (x : Site) (i : Input) : Site :=
  { x with map := x.map.set i { x.map.get i with presence := .present, verified := false } }

/-- Steps 3 and 4 of R58 for an L-role voltage input. -/
def State.lineRestored (s : State) (k : Fin 8) (x : Site) (i : Input) : State :=
  if isLVoltage x.map i then (s.sagReturns i).rechoose (s.mapOf k x) .leadRestored else s

/-- Lead watch confirms an input Present (R58), and a check that this reaches ends (R47), after the five steps of
R58 (log 59). -/
def State.declarePresent (s : State) (k : Fin 8) (x : Site) (i : Input) (w : LeadState) (confirm : Stamp) :
    State :=
  let s1 := { s with watch := s.watch.set i (some w.declarePresent) }.modSite k (·.restoreLead i)
  let s2 := s1.put x.label (.leadRestored i (x.map.get i).role (s.lostTime w i) confirm.time)
  ((s2.lineRestored k x i).raise .lead).breakOnLead i

/-- LEAD_RESTORED (R58). -/
def execLeadRestored (i : Input) (s : State) : Result :=
  match s.liveSlot, s.liveSite with
  | some k, some x =>
    match s.watch.get i with
    | some w =>
      if w.returnDue (s.lastJudged i) then
        .next (s.declarePresent k x i w (w.confirm.getD s.now))
      else .next s
    | none => .next s
  | _, _ => .next s

end Sys2Proof.Machine
end

