-- ==== Sys2Proof/Machine/Cycles.lean ====
section
/-! DEFINITION. The steps of the Front End: ends of half-cycles, cycles and blocks, zero crossings, lock,
and the wrap of the survey clock (R24, R25, R28 to R34). -/

namespace Sys2Proof.Machine

/-! ## Half-cycles (R28, R29) -/

/-- The Sag Monitor takes the value set and hands on its report (R62, R63, R65); a set taken while the
site is not Surveying moves nothing. -/
def State.sagHalf (s : State) (k : Fin 8) (x : Site) (set : ValueSet) : State :=
  let s1 := if x.state = .surveying then (s.takeValueSet k x set.percents).report x else s
  { s1 with sag := { s1.sag with lostAhead := PerInput.same none } }

/-- A half-cycle ends now: its value set goes to the Sag Monitor, its presence measures to lead watch and
to the check (R28, R29, R41, R47). -/
def State.endHalf (s : State) (k : Fin 8) (x : Site) (samples : PerInput (List Int)) : State :=
  let inForce := s.fe.cycleMap x.map
  let measures := presenceMeasures inForce x.nominalVoltage samples
  let set := s.fe.valueSet x (fun i => (s.sag.lostAhead.get i).isSome) samples s.now
  let s1 := { s with fe := s.fe.takeHalf inForce samples s.now set }
  (((s1.sagHalf k x set).watchHalf x measures s.fe.lastHalfEnd).checkHalf x measures)

/-- HALF_CYCLE_END (R28). -/
def execHalfCycleEnd (dt : Nat) (samples : PerInput (List Int)) (s : State) : Result :=
  let t := s.elapse dt
  match t.liveSlot, t.liveSite with
  | some k, some x => if t.fe.halfRuns x then .next (t.endHalf k x samples) else .next t
  | _, _ => .next t

/-! ## Cycles (R24, R25, R33) -/

/-- The cycle in progress has run its length (R25): both its half-cycles have ended, and the millisecond of
its end has come. -/
def FrontEnd.cycleRuns (f : FrontEnd) (x : Site) (up : Nat) : Bool :=
  f.runs && decide (f.halvesInCycle = 2) && decide (f.cyclesInBlock < blockCycles x.frequency)
    && decide ((f.cycleEnd x).1 / nsPerMs ≤ up)

/-- The cycle in progress ends (R24, R25, R33). -/
def State.endCycle (s : State) (x : Site) : State :=
  let fe := s.fe.endCycle x
  { s with fe := fe, sag := s.sag.countCycle fe.cycleCount }

/-- CYCLE_END (R25). -/
def execCycleEnd (dt : Nat) (s : State) : Result :=
  let t := s.elapse dt
  match t.liveSite with
  | some x => if t.fe.cycleRuns x t.up then .next (t.endCycle x) else .next t
  | none => .next t

/-- The running Front End has a reference that may cross zero at an instant: one after its last crossing
(R25). -/
def FrontEnd.crosses (f : FrontEnd) (at_ : Nat) : Bool :=
  f.runs && f.reference.isSome && (match f.lastCrossing with
    | some before => decide (before < at_)
    | none => true)

/-- ZERO_CROSSING (R25): the reference crosses zero `ns` nanoseconds into the present millisecond. Without
a reference no frequency is measured. -/
def execZeroCrossing (dt ns : Nat) (s : State) : Result :=
  let t := s.elapse dt
  let at_ := t.up * nsPerMs + ns
  if t.fe.crosses at_ then .next { t with fe := t.fe.cross at_ } else .next t

/-- LOCK_ACQUIRED (R24): the good-cycle count has reached 5 in Seeking or Free-Run. The cycle that starts
at that moment is Locked from its start (R25). -/
def execLockAcquired (s : State) : Result :=
  if s.fe.good = 5 ∧ (s.fe.clock = .seeking ∨ s.fe.clock = .freeRun) then
    .next { s with fe := { s.fe with
      clock := .locked, cycleLocked := decide (s.fe.halvesInCycle = 0) } }
  else .next s

/-! ## Blocks (R29 to R32) -/

/-- A block of the live site is complete. -/
def FrontEnd.blockDone (f : FrontEnd) (x : Site) : Bool :=
  f.runs && decide (f.cyclesInBlock = blockCycles x.frequency)

/-- The next block begins, with its sense pulse (R29, R30). -/
def State.beginBlock (s : State) (levels : PerClamp Nat) : State :=
  match s.liveSite with
  | some x =>
    if s.fe.runs then
      { s with fe := (s.fe.nextBlock x.map).pulse x.map levels }.watchPulse x levels
    else s
  | none => s

/-- A block ends: its results go to the Interval Aggregator and to the check (R30). -/
def State.endBlock (s : State) (x : Site) (b : BlockResult) (levels : PerClamp Nat) : State :=
  ((s.takeBlock b).checkBlock x b s.fe.blockStart s.fe.cycleStart).beginBlock levels

/-- The sense levels of the four clamps. -/
def clampLevels (phases : PerPhase Nat) (neutral : Nat) : PerClamp Nat :=
  ⟨phases.i1, phases.i2, phases.i3, neutral⟩

/-- BLOCK_END (R30), with the sense levels of the pulse at the start of the next block (R29). -/
def execBlockEnd (dt : Nat) (phases : PerPhase Nat) (neutral : Nat) (s : State) : Result :=
  let t := s.elapse dt
  match t.liveSite with
  | some x =>
    if t.fe.blockDone x then
      .next (t.endBlock x (t.fe.blockResult x) (clampLevels phases neutral))
    else .next t
  | none => .next t

/-! ## The survey clock (R34) -/

/-- Milliseconds until the survey clock wraps (R34). -/
def Time.untilWrap (t : Time) : Nat := 4294967296000 - t.total

/-- CLOCK_WRAP (R34): time passes until the seconds count passes its maximum. -/
def execClockWrap (s : State) : Result := .next (s.elapse s.clock.untilWrap)

end Sys2Proof.Machine
end

