-- ==== Sys2Proof/Machine/PrintFormat.lean ====
section
/-! DEFINITION. The line formatter of the Print Engine (R144 to R148) and the frame of a line (R150). -/

namespace Sys2Proof.Machine

/-! ## Words (R144) -/

/-- The decimal digits of a number, least significant last; the fuel bounds their count. -/
def decimalDigits : Nat → Nat → List Byte
  | 0, _ => []
  | fuel + 1, n =>
    if n < 10 then [BitVec.ofNat 8 (48 + n)]
    else decimalDigits fuel (n / 10) ++ [BitVec.ofNat 8 (48 + n % 10)]

/-- A number in decimal without leading zeros. -/
def numWord (n : Nat) : List Byte := decimalDigits 80 n

/-- A number filled with leading zeros to a width. -/
def zeroFilled (width n : Nat) : List Byte :=
  List.replicate (width - (numWord n).length) 48 ++ numWord n

/-- A quantity in 0.01 units. -/
def dec2 (n : Nat) : List Byte := numWord (n / 100) ++ [46] ++ zeroFilled 2 (n % 100)

/-- A quantity in 0.001 units. -/
def dec3 (n : Nat) : List Byte := numWord (n / 1000) ++ [46] ++ zeroFilled 3 (n % 1000)

def percentWord (n : Nat) : List Byte := dec2 n ++ ascii "%"

/-- A duration in seconds with milliseconds. -/
def durationWord (ms : Nat) : List Byte := dec3 ms ++ ascii "S"

/-- Words separated by one space each. -/
def joinWords : List (List Byte) → List Byte
  | [] => []
  | [w] => w
  | w :: v :: ws => w ++ [32] ++ joinWords (v :: ws)

/-- The words that stand only under a condition. -/
def wordsIf (b : Bool) (ws : List (List Byte)) : List (List Byte) := if b then ws else []

/-- An absent value. -/
def absentWord : List Byte := ascii "--"

/-- The name of a numbered value; 255 is absent (R179). -/
def nameAt (names : List String) (n : Nat) : List Byte :=
  match names[n]? with
  | some w => ascii w
  | none => if n = 255 then absentWord else Config.freeName n

/-! ## Times (R144) -/

def monthDay (c : Calendar) : List Byte := zeroFilled 2 c.month ++ ascii "-" ++ zeroFilled 2 c.day

def fullDate (c : Calendar) : List Byte := zeroFilled 4 c.year ++ ascii "-" ++ monthDay c

def hourMinute (c : Calendar) : List Byte := zeroFilled 2 c.hour ++ ascii ":" ++ zeroFilled 2 c.minute

def hourSecond (c : Calendar) : List Byte := hourMinute c ++ ascii ":" ++ zeroFilled 2 c.second

/-- `U` after a time stamped while Clock Unset was set. -/
def unsetWord (t : Time) : List (List Byte) := wordsIf t.unset [ascii "U"]

def fullTime (t : Time) : List (List Byte) :=
  [fullDate (calendar t.sec), hourSecond (calendar t.sec)] ++ unsetWord t

def fullTimeMs (t : Time) : List (List Byte) :=
  [fullDate (calendar t.sec), hourSecond (calendar t.sec) ++ ascii "." ++ zeroFilled 3 t.ms] ++ unsetWord t

def shortDateTime (t : Time) : List (List Byte) :=
  [monthDay (calendar t.sec), hourSecond (calendar t.sec)] ++ unsetWord t

def minuteTime (t : Time) : List (List Byte) :=
  [fullDate (calendar t.sec), hourMinute (calendar t.sec)] ++ unsetWord t

/-! ## Lines (R144, R145) -/

/-- The place of the last space of a run, if it holds one. -/
def lastSpace (l : List Byte) : Option Nat :=
  ((List.range l.length).filter fun k => l.getD k 0 == 32).getLast?

/-- A text broken into lines of at most 42 characters (R145). -/
def breakText : Nat → List Byte → List (List Byte)
  | 0, l => [l.take 42]
  | fuel + 1, l =>
    if l.length ≤ 42 then [l]
    else
      let cut := (lastSpace (l.take 43)).getD 42
      let rest := match lastSpace (l.take 43) with
        | some k => l.drop (k + 1)
        | none => l.drop 42
      if rest.isEmpty then [l.take cut] else l.take cut :: breakText fuel rest

/-- A line filled with spaces to 42 characters. -/
def fillLine (l : List Byte) : PrintLine := .text ((l ++ List.replicate (42 - l.length) 32).take 42)

/-- The lines of a text (R145). -/
def textLines (t : List Byte) : List PrintLine := (breakText (t.length + 1) t).map fillLine

/-- The lines of a line of words (R144, R145). -/
def wordLines (ws : List (List Byte)) : List PrintLine := textLines (joinWords ws)

def blankLine : PrintLine := fillLine []

/-- A line of 42 hyphens (R145). -/
def ruleLine : PrintLine := .text (List.replicate 42 45)

/-! ## Names (R144) -/

def inputNames : List String := ["V1", "V2", "V3", "V4", "I1", "I2", "I3", "I4"]

def roleNames : List String := ["L1", "L2", "L3", "N-E", "N", "UNUSED"]

def wiringNames : List String := ["SINGLE", "WYE", "DELTA"]

def stateNames : List String := ["EMPTY", "DRAFTED", "CHECKING", "READY", "SURVEYING", "PAUSED", "CLOSED"]

def checkNames : List String := ["NEVER", "PASSED", "CORRECTED", "FINDINGS", "UNUSABLE", "ABORTED"]

def reasonNames : List String := ["NO-REFERENCE", "CLAMP-CONFLICT", "NO-ROTATION", "LEADS-MOVED"]

def classNames : List String := ["SAG", "INTERRUPTION"]

def endNames : List String := ["RECOVERED", "LONG", "LEAD-LOST", "PAUSED", "CLOSED"]

def harmonicNames : List String := ["NONE-COUNTED", "ALL-MARKED", "NO-FUNDAMENTAL"]

def kindNames : List String :=
  ["NOTE", "MARK", "LINE", "SITE", "CHECK-REPORT", "LEAD-LOST", "LEAD-RESTORED", "REFERENCE-MOVED",
   "LIMITS-APPLIED", "SNAPSHOT", "CAPTURE-DISCARDED", "SLIP-SKIPPED", "PRINT-ENDED", "CLOCK-SET", "AWAY",
   "BACK", "WOKE"]

def subKindNames : List String :=
  ["CREATED", "CHECK-STARTED", "STARTED", "PAUSED", "RESUMED", "CLOSED", "MAP-CHANGED"]

/-! ## Site Header, Event Table, Event Line (R146) -/

/-- The Site Header of a site at a survey time (R146). -/
def siteHeaderLines (x : Site) (short : Bool) (now : Time) : List PrintLine :=
  wordLines [ascii "SITE", numWord x.label, nameAt wiringNames (wiringNumber x.wiring),
      numWord x.nominalVoltage ++ ascii "V", numWord x.frequency ++ ascii "HZ"]
    ++ (if short then [] else
      wordLines ([ascii "STATE", nameAt stateNames x.state.number, ascii "CHECK",
          nameAt checkNames x.checkStatus.number]
        ++ (x.unusable.map fun r => nameAt reasonNames r.number).toList)
      ++ wordLines ([ascii "LIMITS", ascii "V", numWord x.version, ascii "SAG", percentWord x.active.sag]
        ++ wordsIf x.pendingSet.isSome [ascii "P"]))
    ++ wordLines (ascii "PRINTED" :: fullTime now)

/-- An entry stands before another in the order of rows shown (R146). -/
def worseThan (a b : WorstEntry) : Bool :=
  decide (a.residual < b.residual) || (a.residual == b.residual && decide (a.number < b.number))

/-- The entries that a row limit leaves: those with the lowest residuals (R146). -/
def tableRows (limit : Nat) (worst : List WorstEntry) : List WorstEntry :=
  worst.filter fun e => decide ((worst.filter fun f => worseThan f e).length < limit)

/-- An entry takes its place in event-number order. -/
def insertRow (e : WorstEntry) : List WorstEntry → List WorstEntry
  | [] => [e]
  | f :: fs => if e.number < f.number then e :: f :: fs else f :: insertRow e fs

/-- One row of an Event Table (R146). -/
def rowLines (e : WorstEntry) : List PrintLine :=
  wordLines ([numWord e.number] ++ shortDateTime e.start
    ++ [ascii (if e.cls = .sag then "S" else "I"), percentWord e.residual, durationWord e.durationMs])

/-- The Event Table of a worst-event list (R146). -/
def eventTableLines (worst : List WorstEntry) (limit : Nat) : List PrintLine :=
  let rows := (tableRows limit worst).foldl (fun l e => insertRow e l) []
  wordLines [ascii "WORST", ascii "EVENTS", numWord rows.length, ascii "OF", numWord worst.length]
    ++ (if worst.isEmpty then wordLines [ascii "no", ascii "events"] else rows.flatMap rowLines)

/-- The roles of an event's members in role order (R146). -/
def memberWords (ms : List Member) : List (List Byte) :=
  [Role.l1, .l2, .l3].flatMap fun r =>
    (ms.filter fun m => decide (m.role = r)).map fun m =>
      nameAt roleNames m.role.number ++ (if m.lost then ascii "*" else [])

/-- The Event Line of a copied record (R146). -/
def eventLineLines (r : EventRecord) : List PrintLine :=
  wordLines [ascii "EVENT", numWord r.number, nameAt classNames r.cls.number]
    ++ wordLines (ascii "START" :: fullTimeMs r.start)
    ++ wordLines [ascii "DEPTH", percentWord r.residual, nameAt inputNames r.residualInput.number,
        ascii "DUR", durationWord r.durationMs]
    ++ wordLines (memberWords r.members ++ [ascii "END", nameAt endNames r.endCause.number])

/-! ## Records read from a page (R147, R148) -/

/-- A field of a record read from a page; past the end of the record it is free. -/
def recordField (r : List Byte) (offset n : Nat) : Nat :=
  if offset + n ≤ r.length then field r offset n else Config.freeField offset n % 256 ^ n

/-- The time of a common record header (11.5). -/
def recordTime (r : List Byte) : Time := ⟨field r 8 4, field r 6 2 % 1024, bit (field r 3 1) 0⟩

/-- The unit of a channel's values (R99). -/
def inputUnit (input : Nat) : List Byte := if input < 4 then ascii "V" else ascii "A"

/-- The two lines of a channel sub-record at an offset of the record (R147). -/
def channelLines (r : List Byte) (o : Nat) : List PrintLine :=
  let flags := recordField r (o + 2) 1
  let input := recordField r o 1
  let value (k : Nat) : List Byte := dec2 (recordField r (o + k) 4) ++ inputUnit input
  wordLines ([nameAt inputNames input, nameAt roleNames (recordField r (o + 1) 1), ascii "RMS"]
      ++ (if bit flags 2 then [absentWord] else [value 8, value 12, value 16])
      ++ wordsIf (bit flags 0) [ascii "LOST"] ++ wordsIf (bit flags 1) [ascii "UNV"])
    ++ wordLines (ascii "THD" :: (if bit flags 3 then
        [absentWord, nameAt harmonicNames (recordField r (o + 3) 1)]
      else [percentWord (recordField r (o + 20) 2), percentWord (recordField r (o + 22) 2)]))

/-- An interval record (R147). -/
def intervalLines (r : List Byte) : List PrintLine :=
  let flags := recordField r 18 1
  let freq (k : Nat) : List Byte := dec3 (recordField r k 4) ++ ascii "HZ"
  wordLines ([ascii "INTERVAL", numWord (field r 12 4)] ++ minuteTime (recordTime r)
      ++ [numWord (recordField r 16 1) ++ ascii "MIN"] ++ wordsIf (bit flags 0 || bit flags 1) [ascii "P"])
    ++ wordLines [ascii "BLOCKS", numWord (recordField r 28 4), ascii "MARKED", numWord (recordField r 32 4),
        ascii "UNLOCKED", numWord (recordField r 36 4)]
    ++ wordLines (ascii "FREQ" :: (if bit flags 3 then [absentWord] else [freq 40, freq 44, freq 48]))
    ++ (List.range (recordField r 22 1)).flatMap fun j =>
        channelLines r (96 + j * (24 + 4 * recordField r 17 1))

/-- The site and sequence of an entry: its label or `DEV`, a slash and the number (R147). -/
def entryName (r : List Byte) : List Byte :=
  (if field r 4 2 = 0 then ascii "DEV" else numWord (field r 4 2)) ++ ascii "/" ++ numWord (field r 12 4)

/-- The kind of an entry, with its sub-kind for a Site entry (R147). -/
def kindWords (r : List Byte) : List (List Byte) :=
  nameAt kindNames (recordField r 16 1) ::
    wordsIf (recordField r 16 1 == 3) [nameAt subKindNames (recordField r 17 1)]

/-- The anchor line of an entry (R147); author 0 is no author (log 52). -/
def anchorLines (r : List Byte) : List PrintLine :=
  let anchored := decide (recordField r 19 1 ≠ 255)
  let author := recordField r 26 1
  if anchored ∨ author ≠ 0 then
    wordLines [ascii "ON", ascii "EVENT", if anchored then numWord (recordField r 20 4) else absentWord,
      ascii "BY", if author = 0 then absentWord else numWord author]
  else []

/-- The line that names entries missing before this one (R147). -/
def missingLines (r : List Byte) : List PrintLine :=
  let lost := recordField r 24 2
  if lost = 0 then []
  else wordLines [ascii "MISSING", ascii "BEFORE:",
    numWord lost ++ (if bit (recordField r 18 1) 1 then ascii "+" else [])]

/-- A journal entry (R147): one of another kind than Note has its kind line and its anchor line alone. A text
length that runs past the record's end prints the text bytes within the record (log 55), and text bytes outside
32 to 126 go to the printer as they are read (log 56). -/
def noteLines (r : List Byte) : List PrintLine :=
  wordLines ([entryName r] ++ fullTime (recordTime r) ++ kindWords r
      ++ wordsIf (bit (recordField r 18 1) 0) [ascii "LATE"])
    ++ anchorLines r
    ++ (if recordField r 16 1 = 0 then missingLines r ++ textLines ((r.drop 48).take (recordField r 28 2)) else [])

/-! ## Capture Strip (R148) -/

/-- The 128 counts of an input in a capture piece (11.5). -/
def pieceCounts (r : List Byte) (i : Input) : List Int :=
  (List.range 128).map fun p => signed16 (recordField r (32 + 16 * p + 2 * i.number) 2)

/-- The largest absolute count. -/
def peakOf (l : List Int) : Nat := l.foldl (fun m c => max m c.natAbs) 0

/-- The scale of an input in a capture piece (11.5). -/
def pieceScale (r : List Byte) (i : Input) : Nat :=
  let f := recordField r 20 12
  if i.isVoltage then f / 2 ^ (10 * i.number) % 1024
  else f / 2 ^ (40 + 12 * (i.number - 4)) % 4096

/-- A count in 0.01 V or 0.01 A by the factors of R21. -/
def supplyValue (i : Input) (scale count : Nat) : Nat :=
  if i.isVoltage then count * 5 * scale else roundDiv (count * scale * 100) 8192

/-- The pieces of a capture by its kind number (R77, 11.5). -/
def pieceCount (kind : Nat) : List Byte :=
  match kind with
  | 0 => numWord 12
  | 1 => numWord 8
  | 2 => numWord 4
  | n => Config.freeName n

/-- The line on which a point of a count is shown (R148). -/
def rasterRow (peak : Nat) (v : Int) : Int := if peak = 0 then 24 else 24 - (v * 23).tdiv peak

/-- A dot of a raster line (R148). -/
def rasterDot (rows : List Int) (line c : Nat) : Bool :=
  rows.getD (c * 128 / 336) 24 == (line : Int) || (line == 24 && c % 8 == 0)

/-- A raster line of 42 bytes, bit 7 the leftmost dot (R148, 11.6). -/
def rasterLine (rows : List Int) (line : Nat) : PrintLine :=
  .raster ((List.range 42).map fun j => BitVec.ofNat 8 (ofBits
    ((List.range 8).map fun b => rasterDot rows line (8 * j + (7 - b)))))

/-- A capture piece shown for one input (R148). -/
def stripLines (r : List Byte) (i : Input) : List PrintLine :=
  let flags := recordField r 3 1
  let counts := pieceCounts r i
  let peak := peakOf counts
  let head : List (List Byte) := [ascii "CAPTURE", numWord (field r 12 4),
    numWord (field r 6 2 / 1024 % 16) ++ ascii "/" ++ pieceCount (flags / 8 % 4), nameAt inputNames i.number]
  if bit flags 2 then
    wordLines (head ++ [ascii "NOT", ascii "SAMPLED"])
      ++ List.replicate 48 (.raster (List.replicate 42 0))
  else
    let unit := inputUnit i.number
    wordLines (head ++ [ascii "PEAK", dec2 (supplyValue i (pieceScale r i) peak) ++ unit])
      ++ (List.range 48).map fun l => rasterLine (counts.map (rasterRow peak)) (l + 1)

/-! ## The record read of a page item (R143) -/

/-- The kind of record that a page item names. -/
def Item.recordKind : Item → Nat
  | .interval _ _ _ => 2
  | .note _ _ _ => 3
  | .captureStrip _ _ _ _ => 4
  | .text _ | .siteHeader _ _ | .eventTable _ _ | .eventLine _ | .feed _ | .rule => 0

/-- The site, page and record offset of a page item. -/
def Item.source : Item → Option (Nat × Page × Nat)
  | .interval s p o => some (s, p, o)
  | .note s p o => some (s, p, o)
  | .captureStrip s p o _ => some (s, p, o)
  | .text _ | .siteHeader _ _ | .eventTable _ _ | .eventLine _ | .feed _ | .rule => none

/-- A record header is that of the item's record (R143). -/
def headerFound (item : Item) (header : List Byte) : Bool :=
  match item.source with
  | some (site, _, offset) =>
    decide (16 ≤ field header 0 2 ∧ field header 0 2 % 4 = 0
      ∧ offset + field header 0 2 ≤ Config.pageBytes
      ∧ field header 2 1 = item.recordKind ∧ field header 4 2 = site)
  | none => false

/-- The content of a record that is not found (R143). -/
def notFoundLines : List PrintLine := wordLines [ascii "record", ascii "not", ascii "found"]

/-- The lines of a record that is found (R147, R148). -/
def recordLines (item : Item) (r : List Byte) : List PrintLine :=
  match item with
  | .interval _ _ _ => intervalLines r
  | .note _ _ _ => noteLines r
  | .captureStrip _ _ _ i => stripLines r i
  | .text _ | .siteHeader _ _ | .eventTable _ _ | .eventLine _ | .feed _ | .rule => []

/-! ## Frames (R150, 11.6) -/

/-- The 44 bytes of a line's frame. -/
def frameBytes : PrintLine → List Byte
  | .text b => [16] ++ fitTo 42 b ++ [4]
  | .raster b => [17] ++ fitTo 42 b ++ [4]

end Sys2Proof.Machine
end

