-- ==== Sys2Proof/Machine/Print.lean ====
section
/-! DEFINITION. The Print Engine (chapter 08): the queue, the printer line and its frames, record reads,
the work on a job and its end. The print orders stand in PrintOrders.lean. -/

namespace Sys2Proof.Machine

/-! ## The queue (R136, R138) -/

def State.modPrint (s : State) (f : PrintEngine → PrintEngine) : State := { s with print := f s.print }

/-- A job is Printing or Held. -/
def Job.active (j : Job) : Bool := decide (j.state ≠ .queued)

/-- The one job that is Printing or Held (R138). -/
def PrintEngine.current (p : PrintEngine) : Option Job := p.jobs.find? (·.active)

def PrintEngine.modJob (p : PrintEngine) (number : Nat) (f : Job → Job) : PrintEngine :=
  { p with jobs := p.jobs.map fun j => if j.number = number then f j else j }

/-- A job number after another that no job of the queue holds (R136); the fuel bounds the search. -/
def freeNumber : Nat → List Job → Nat → Nat
  | 0, _, n => n
  | fuel + 1, jobs, n => if jobs.any fun j => j.number == n then freeNumber fuel jobs (nextFrom1 n) else n

/-- A job takes its place in the queue (R138): a Slip ahead of every Queued Order job. -/
def joinQueue (jobs : List Job) (j : Job) : List Job :=
  match j.owner with
  | .order => jobs ++ [j]
  | .slip =>
    let ahead (k : Job) : Bool := k.active || decide (k.owner = .slip)
    jobs.takeWhile ahead ++ [j] ++ jobs.dropWhile ahead

/-- A job as it is created (R137). -/
def Job.fresh (number : Nat) (owner : JobOwner) (copies : Nat) (items : List Item) (sites : List Nat)
    (pages : List Page) (event : Nat) (now : Time) : Job :=
  { number := number, owner := owner, state := .queued, cancelPending := false, copies := copies, copy := 1
    items := items, item := 1, line := 1, content := none, lines := 0, sites := sites, pages := pages
    event := event, created := now }

/-- One site pin is taken (R19). -/
def Site.takePin (x : Site) : Site := { x with pins := x.pins + 1 }

/-- One site pin is released (R19). -/
def Site.dropPin (x : Site) : Site := { x with pins := x.pins - 1 }

/-- A job is created (R136 to R138): it takes its site pins, its number and its place. -/
def State.createJob (s : State) (owner : JobOwner) (copies : Nat) (items : List Item) (sites : List Nat)
    (pages : List Page) (event : Nat) : State :=
  let j := Job.fresh s.print.nextJob owner copies items sites pages event s.clock
  let jobs := joinQueue s.print.jobs j
  (sites.foldl (fun t n => t.modLabel n Site.takePin) s).modPrint fun p =>
    { p with jobs := jobs, nextJob := freeNumber 16 jobs (nextFrom1 j.number) }

/-! ## The printer line (R149) -/

/-- The state of the line that its signals and the part's own sending give (R149); with Busy high and
nothing else in force, a line that leaves a Held state keeps it, and any other is Stalled. -/
def PrintEngine.judge (p : PrintEngine) : PrinterLine :=
  if ¬ p.judged ∨ ¬ p.present then .absent
  else if p.paperOut ∨ p.paperHold.isSome then .heldPaper
  else if p.headHot ∨ p.heatHold.isSome then .heldHeat
  else if p.stall.isSome then .stalled
  else if p.frame.isSome then .sending
  else if ¬ p.busy then .ready
  else match p.line with
    | .heldPaper => .heldPaper
    | .heldHeat => .heldHeat
    | .absent | .ready | .sending | .stalled => .stalled

/-- The hold reason of a Held job when the line passes from one state to another (R151). -/
def heldReason (old new : PrinterLine) (r : HoldReason) : HoldReason :=
  match r, old, new with
  | .paper, .heldPaper, .heldHeat => .heat
  | .heat, .heldHeat, .heldPaper => .paper
  | .heat, .heldHeat, .absent => .paper
  | r, _, _ => r

/-- A job when the line passes from one state to another (R151). -/
def Job.lineMoves (old new : PrinterLine) (j : Job) : Job :=
  match j.state with
  | .held r => { j with state := .held (heldReason old new r) }
  | .queued | .printing => j

/-- The line takes the state R149 gives. -/
def PrintEngine.setLine (p : PrintEngine) : PrintEngine :=
  { p with line := p.judge, jobs := p.jobs.map (Job.lineMoves p.line p.judge) }

/-! ## Frames (R150) -/

/-- The part places a byte on the data lines and raises Strobe (R150). -/
def PrintEngine.strobeByte (p : PrintEngine) (b : Byte) (rest : List Byte) (now : Nat) : PrintEngine :=
  { p with data := b, strobe := true, frame := some ⟨b :: rest, now, false⟩ }

/-- The frame of a line begins; the line is Sending (R150). -/
def PrintEngine.beginFrame (p : PrintEngine) (l : PrintLine) (now : Nat) : PrintEngine :=
  match frameBytes l with
  | [] => p
  | b :: rest => (p.strobeByte b rest now).setLine

/-- The line a Printing job has to send. -/
def Job.nextLine (j : Job) : Option PrintLine := j.content.bind fun ls => ls[j.line - 1]?

/-- A job is Held at its line (R151). -/
def PrintEngine.hold (p : PrintEngine) (number : Nat) (r : HoldReason) : PrintEngine :=
  p.modJob number fun j => { j with state := .held r }

/-- A Printing job sends its next line when the line is Ready, and becomes Held at it when the line is
Held or Absent (R150, R151). -/
def PrintEngine.send (p : PrintEngine) (j : Job) (l : PrintLine) (now : Nat) : PrintEngine :=
  match p.line with
  | .ready => p.beginFrame l now
  | .heldHeat => p.hold j.number .heat
  | .heldPaper => p.hold j.number .paper
  | .absent => p.hold j.number .paper
  | .stalled => p
  | .sending => p

/-- The work on a Printing job that has taken its item's content and has no frame in progress. -/
def State.drive (s : State) : State :=
  match s.print.current with
  | none => s
  | some j =>
    match j.nextLine with
    | none => s
    | some l =>
      if j.state = .printing ∧ s.print.frame.isNone ∧ s.print.read.isNone then
        s.modPrint fun p => p.send j l s.up
      else s

/-! ## Reaching an item (R142) -/

/-- The content of an item that needs no read, taken at this moment (R142). -/
def State.itemLines (s : State) : Item → List PrintLine
  | .text t => textLines t
  | .siteHeader n short => ((s.siteOf n).map fun x => siteHeaderLines x short s.clock).getD []
  | .eventTable n rows => ((s.siteOf n).map fun x => eventTableLines x.sag.worst rows).getD []
  | .eventLine r => eventLineLines r
  | .interval _ _ _ => []
  | .note _ _ _ => []
  | .captureStrip _ _ _ _ => []
  | .feed n => List.replicate n blankLine
  | .rule => [ruleLine]

/-- A record read starts (R143). -/
def State.startRead (s : State) (j : Job) (page : Page) (offset : Nat) : State :=
  let a : Access := ⟨.recordRead, page.ref.window, page.ref.offset + offset, [], s.up⟩
  s.modPrint fun p => { p with read := some ⟨j.number, .header, a⟩ }

/-- A Printing job reaches an item (R142). -/
def State.reach (s : State) (j : Job) (item : Item) : State :=
  match item.source with
  | some (_, page, offset) =>
    if s.linkOpen then s.startRead j page offset else s.modPrint fun p => p.hold j.number .link
  | none => s.modPrint fun p => p.modJob j.number fun k => { k with content := some (s.itemLines item) }

/-- A Printing job without content reaches its item (R142). -/
def State.reachItem (s : State) : State :=
  match s.print.current with
  | none => s
  | some j =>
    match j.items[j.item - 1]? with
    | none => s
    | some item =>
      if j.state = .printing ∧ j.content.isNone ∧ s.print.read.isNone ∧ s.print.frame.isNone then
        s.reach j item
      else s

/-- The work on the current job: its item is reached, and its next line sent (R142, R150). -/
def State.work (s : State) : State := s.reachItem.drive

/-- A Held (Paper) or Held (Heat) job goes on when the line is Ready (R151). -/
def Job.resume (j : Job) : Job :=
  match j.state with
  | .held .paper => { j with state := .printing }
  | .held .heat => { j with state := .printing }
  | .held .link => j
  | .queued => j
  | .printing => j

/-- The line is judged anew, and the current job goes on by it (R149, R151). -/
def State.settle (s : State) : State :=
  let s1 := s.modPrint PrintEngine.setLine
  (if s1.print.line = .ready then s1.modPrint fun p => { p with jobs := p.jobs.map Job.resume } else s1).work

/-- A Held (Link) job goes on when the link becomes Attended (R142, R151). -/
def Job.resumeLink (j : Job) : Job := if j.state = .held .link then { j with state := .printing } else j

/-- The link has become Attended (R142). -/
def State.linkReturns (s : State) : State :=
  if s.linkOpen then (s.modPrint fun p => { p with jobs := p.jobs.map Job.resumeLink }).work else s

/-! ## The end of a job (R154) -/

/-- The content of the Print Ended entry (R154). -/
def printEnded (j : Job) (o : JobOutcome) (copies : Nat) : PrintEnded :=
  { job := j.number, owner := j.owner, outcome := o, copies := copies
    site := if j.owner = .slip then j.sites.headD 0 else 0, event := j.event
    lines := j.lines, item := j.item, line := j.line }

/-- A job ends with its position, its outcome and its completed copies (R154). -/
def State.endJob (s : State) (j : Job) (o : JobOutcome) (copies : Nat) : State :=
  let s1 := { s with store := s.store.releasePins j.pages }
  let s2 := j.sites.foldl (fun t n => t.modLabel n Site.dropPin) s1
  ((s2.put 0 (.printEnded (printEnded j o copies))).raise .print).modPrint fun p =>
    { p with jobs := p.jobs.filter fun k => k.number != j.number }

/-- A job ends before its copy is complete. -/
def State.breakJob (s : State) (j : Job) (o : JobOutcome) : State := s.endJob j o (j.copy - 1)

/-- A job that must end at the end of a frame or read: Cancelled when a cancel is pending (R155). -/
def Job.endingOutcome (j : Job) (o : JobOutcome) : JobOutcome := if j.cancelPending then .cancelledOrder else o

/-! ## The end of a frame (R142, R150, R153) -/

/-- The position after a line: the next line, or line 1 of the next item; none after the last line of the
last item (R142). -/
def Job.advance (j : Job) : Option Job :=
  if j.line < (j.content.getD []).length then some { j with line := j.line + 1 }
  else if j.item < j.items.length then some { j with item := j.item + 1, line := 1, content := none }
  else none

/-- The next copy of a job (R153). -/
def Job.nextCopy (j : Job) : Job := { j with copy := j.copy + 1, item := 1, line := 1, content := none }

/-- A frame of the current job has completed (R150, R153, R155). -/
def State.completeLine (s : State) (j : Job) : State :=
  let k := { j with lines := j.lines + 1 }
  match k.advance with
  | some n =>
    if j.cancelPending then s.breakJob n .cancelledOrder else s.modPrint fun p => p.modJob j.number fun _ => n
  | none =>
    if j.cancelPending then s.endJob k .cancelledOrder j.copy
    else if j.copy < j.copies then s.modPrint fun p => p.modJob j.number fun _ => k.nextCopy
    else s.endJob k .done j.copy

/-- The last byte of a frame has ended (R150, R156). -/
def State.endFrame (s : State) (f : Frame) : State :=
  let s1 := s.modPrint fun p => PrintEngine.setLine { p with frame := none }
  match s1.print.current with
  | some j => if f.abandoned then s1.work else (s1.completeLine j).work
  | none => s1

/-- A byte's handshake has ended (R150). -/
def State.endByte (s : State) (f : Frame) : State :=
  match f.bytes with
  | _ :: b :: rest => s.modPrint fun p => p.strobeByte b rest s.up
  | _ => s.endFrame f

/-! ## Signals (R149 to R152) -/

/-- The reason of a job whose frame a signal abandons (R151). -/
def PrintEngine.abandonReason (p : PrintEngine) : HoldReason :=
  if p.headHot ∧ ¬ p.paperOut ∧ p.present then .heat else .paper

/-- The frame in progress is abandoned and Strobe dropped (R151). -/
def PrintEngine.dropFrame (p : PrintEngine) : PrintEngine := { p with frame := none, strobe := false }

/-- A signal abandons the frame in progress (R151, R155). -/
def State.abandonFrame (s : State) (f : Frame) : State :=
  let s1 := s.modPrint fun p => p.dropFrame
  match s1.print.current with
  | some j =>
    if f.abandoned then s1
    else if j.cancelPending then s1.breakJob j .cancelledOrder
    else s1.modPrint fun p => p.hold j.number p.abandonReason
  | none => s1

/-- A signal that stops the printer has become active, or one has changed otherwise (R149, R151). A job
whose record read is in flight goes on Printing, and is held when the read is over (log 44). -/
def State.signalMoves (s : State) (stops : Bool) : State :=
  match s.print.frame with
  | some f => if stops then (s.abandonFrame f).settle else s.settle
  | none => s.settle

/-- The 1 s of inactivity of a signal begins when the signal falls while the line is judged (R149). -/
def inactiveSince (p : PrintEngine) (active : Bool) (now : Nat) : Option Nat :=
  if active ∨ ¬ p.judged then none else some now

/-- PAPER_OUT_CHANGE (R149, R151). -/
def execPaperOutChange (dt : Nat) (active : Bool) (s : State) : Result :=
  let t := s.elapse dt
  if active = t.print.paperOut then .next t
  else .next ((t.modPrint fun p =>
    { p with paperOut := active, paperHold := inactiveSince p active t.up }).signalMoves active)

/-- HEAD_HOT_CHANGE (R149, R151). -/
def execHeadHotChange (dt : Nat) (active : Bool) (s : State) : Result :=
  let t := s.elapse dt
  if active = t.print.headHot then .next t
  else .next ((t.modPrint fun p =>
    { p with headHot := active, heatHold := inactiveSince p active t.up }).signalMoves active)

/-- PRESENT_CHANGE (R149, R151). -/
def execPresentChange (dt : Nat) (active : Bool) (s : State) : Result :=
  let t := s.elapse dt
  if active = t.print.present then .next t
  else .next ((t.modPrint fun p => { p with present := active }).signalMoves (!active))

/-- A hold that has lasted 1 s is over (R149). -/
def clearHold (h : Option Nat) (now : Nat) : Option Nat :=
  h.filter fun since => decide (now < since + Config.printerClearMs)

/-- PRINTER_HOLD_CLEARED (R149): Paper Out or Head Hot has been inactive for 1 s. -/
def execPrinterHoldCleared (dt : Nat) (s : State) : Result :=
  let t := s.elapse dt
  if clearHold t.print.paperHold t.up = t.print.paperHold ∧ clearHold t.print.heatHold t.up = t.print.heatHold
  then .next t
  else .next (t.modPrint fun p =>
    { p with paperHold := clearHold p.paperHold t.up, heatHold := clearHold p.heatHold t.up }).settle

/-- BUSY_RISE (R149, R150): within a byte the part drops Strobe; between frames the line is not Ready. -/
def execBusyRise (dt : Nat) (s : State) : Result :=
  let t := s.elapse dt
  if t.print.busy then .next t
  else .next (t.modPrint fun p => { p with busy := true, strobe := false }).settle

/-- A stall that a fall of Busy clears (R152). -/
def clearStall (st : Option Stall) : Option Stall := st.filter (·.busyLow)

/-- BUSY_FALL (R149, R150, R152): the byte ends, or Stalled clears. -/
def execBusyFall (dt : Nat) (s : State) : Result :=
  let t := s.elapse dt
  if t.print.busy then
    let u := t.modPrint fun p => { p with busy := false, stall := clearStall p.stall }
    match u.print.frame with
    | some f => .next (u.endByte f)
    | none => .next u.settle
  else .next t

/-- The handshake timer of the byte in progress has reached the printer timeout (R152). -/
def State.stallDue (s : State) : Option Frame :=
  s.print.frame.filter fun f =>
    s.passed f.timer (s.print.timeout * 1000) && !s.print.paperOut && !s.print.headHot && s.print.present

/-- A stall is declared (R152). -/
def State.declareStall (s : State) (f : Frame) : State :=
  let s1 := s.modPrint fun p =>
    PrintEngine.setLine { p.dropFrame with stall := some ⟨!p.busy, s.up⟩ }
  match s1.print.current with
  | some j => if f.abandoned then s1 else s1.breakJob j (j.endingOutcome .failedStall)
  | none => s1

/-- PRINTER_STALL (R152). -/
def execPrinterStall (dt : Nat) (s : State) : Result :=
  let t := s.elapse dt
  match t.stallDue with
  | some f => .next (t.declareStall f)
  | none => .next t

/-- A stall declared with Busy low is over after 1 s (R152). -/
def stallOver (st : Option Stall) (now : Nat) : Option Stall :=
  st.filter fun x => !(x.busyLow && decide (x.since + Config.printerClearMs ≤ now))

/-- STALL_CLEAR (R152). -/
def execStallClear (dt : Nat) (s : State) : Result :=
  let t := s.elapse dt
  if stallOver t.print.stall t.up = t.print.stall then .next t
  else .next (t.modPrint fun p => { p with stall := stallOver p.stall t.up }).settle

/-- The line is judged from the signals after self-test and at the wake (R149). -/
def State.judgeLine (s : State) : State :=
  (s.modPrint fun p => { p with judged := true, paperHold := none, heatHold := none }).settle

/-- The line is off while the part is Resting (R149, R166). -/
def PrintEngine.turnOff (p : PrintEngine) : PrintEngine :=
  { p.dropFrame with judged := false, paperHold := none, heatHold := none, stall := none, line := .absent }

/-! ## Jobs start, and record reads complete (R138, R143) -/

/-- PRINT_JOB_START (R138): with no job Printing or Held and the line Ready, the first Queued job becomes
Printing and begins at its position. -/
def execPrintJobStart (s : State) : Result :=
  if s.print.line = .ready ∧ s.print.current.isNone then
    match s.print.jobs with
    | [] => .next s
    | j :: _ => .next (s.modPrint fun p => p.modJob j.number fun k => { k with state := .printing }).work
  else .next s

/-- A record read is over with the lines it gives (R143, R155). -/
def State.endRead (s : State) (j : Job) (ls : List PrintLine) : State :=
  let s1 := s.modPrint fun p => { p with read := none }
  if j.cancelPending then s1.breakJob j .cancelledOrder
  else (s1.modPrint fun p => p.modJob j.number fun k => { k with content := some ls }).work

/-- The read of a record's rest is issued: it begins after the common record header (R143, R177). -/
def State.readRest (s : State) (r : RecordRead) (header : List Byte) : State :=
  let next : RecordRead :=
    { r with
      stage := .rest header
      access := { r.access with offset := r.access.offset + 16, issued := s.up } }
  s.modPrint fun p => { p with read := some next }

/-- An access of a record read completes with its bytes (R143). The rest is read only when the header's
length, kind and site label are all those of the item (log 43). -/
def State.readDone (s : State) (r : RecordRead) (j : Job) (item : Item) (bytes : List Byte) : State :=
  match r.stage with
  | .header =>
    let header := fitTo 16 bytes
    if ¬ headerFound item header then s.endRead j notFoundLines
    else if field header 0 2 = 16 then s.endRead j (recordLines item header)
    else s.readRest r header
  | .rest header => s.endRead j (recordLines item (header ++ fitTo (field header 0 2 - 16) bytes))

/-- RECORD_READ_DONE (R143). -/
def execRecordReadDone (dt : Nat) (bytes : List Byte) (s : State) : Result :=
  let t := s.elapse dt
  match t.print.read, t.print.current with
  | some r, some j =>
    match j.items[j.item - 1]? with
    | some item => .next (t.readDone r j item bytes)
    | none => .next t
  | _, _ => .next t

/-- A fault ends the record read in flight (R143, R156): its job ends Failed, Link Fault. -/
def State.failRead (s : State) : State :=
  match s.print.read, s.print.current with
  | some _, some j =>
    let s1 := s.modPrint fun p => { p with read := none }
    s1.breakJob j (j.endingOutcome .failedLink)
  | _, _ => s

/-! ## A link Stop (R156) -/

/-- A frame in progress sends no byte after the one already strobed (R156). -/
def Frame.cut (f : Frame) : Frame := ⟨f.bytes.take 1, f.timer, true⟩

/-- A link Stop reaches the Print Engine (R156): every job ends Cancelled (Link Stopped), in queue order, also
one whose cancel is pending (log 51). -/
def State.stopPrinting (s : State) : State :=
  let s1 := s.modPrint fun p => { p with read := none, frame := p.frame.map Frame.cut }
  s1.print.jobs.foldl (fun t j => t.breakJob j .cancelledStop) s1

/-! ## Slips (R141) -/

/-- A slip request (R141): a Slip job when the queue has room. -/
def State.requestSlip (s : State) (site : Nat) (r : EventRecord) : Option State :=
  if s.print.jobs.length < Config.printQueueMax then
    some (s.createJob .slip 1 [.siteHeader site true, .eventLine r] [site] [] r.number)
  else none

end Sys2Proof.Machine
end

