-- ==== Sys2Proof/Machine/Events.lean ====
section
/-! DEFINITION. Event records handed on (R75), the worst-event list (R82) and the Slip rule (R83). -/

namespace Sys2Proof.Machine

/-! ## The worst-event list (R82) -/

/-- An admitted event as the list keeps it. -/
def EventRecord.worst (r : EventRecord) : WorstEntry :=
  ⟨r.number, r.start, r.halves, r.durationMs, r.residual, r.cls⟩

/-- An entry leaves the list before another: a higher residual, or an equal one and a higher number. -/
def leavesBefore (a b : WorstEntry) : Bool :=
  decide (b.residual < a.residual) || (a.residual == b.residual && decide (b.number < a.number))

/-- The entry with the highest residual, and among equals the highest number. -/
def highest : List WorstEntry → Option WorstEntry
  | [] => none
  | e :: es => match highest es with
    | none => some e
    | some h => if leavesBefore e h then some e else some h

/-- The list after an admitted event (R82), in event-number order. -/
def enterWorst (l : List WorstEntry) (e : WorstEntry) : List WorstEntry :=
  if l.length < Config.worstMax then l ++ [e]
  else match highest l with
    | none => l
    | some h => if e.residual < h.residual then l.filter (· != h) ++ [e] else l

/-! ## The Slip rule (R83) -/

/-- The rule calls for a slip. -/
def callsSlip (o : SiteOptions) (r : EventRecord) : Bool :=
  match o.slipRule with
  | .off => false
  | .interruptions => decide (r.cls = .interruption)
  | .depth => decide (r.residual < o.slipDepth)

/-- The slips-skipped counter of a site (R18). -/
def Site.countSlip (x : Site) : Site :=
  { x with counters := { x.counters with slipsSkipped := satAdd x.counters.slipsSkipped 1 } }

/-- A slip that met a full queue (R83). -/
def State.skipSlip (s : State) (x : Site) (r : EventRecord) : State :=
  (s.modLabel r.site Site.countSlip).putAnchored r.site (.ownEvent r.number)
    (.slipSkipped r.number (satAdd x.counters.slipsSkipped 1))

/-- The Slip rule is tested (R83). -/
def State.testSlip (s : State) (r : EventRecord) : State :=
  match s.siteOf r.site with
  | none => s
  | some x =>
    if callsSlip x.options r then
      match s.requestSlip r.site r with
      | some t => t
      | none => s.skipSlip x r
    else s

/-! ## Handing on (R75) -/

/-- An outcome that can no longer change. -/
def CaptureOutcome.final (o : CaptureOutcome) : Bool := decide (o ≠ .collecting)

/-- The site's part in an admitted event record (steps 1 and 2 of R75). -/
def Site.admitEvent (x : Site) (r : EventRecord) : Site :=
  { x with
    counters := { x.counters with events := satAdd x.counters.events 1 }
    sag := { x.sag with worst := enterWorst x.sag.worst r.worst } }

/-- The head of the admission list leaves it. -/
def Site.popAdmission (x : Site) : Site := { x with sag := { x.sag with admission := x.sag.admission.drop 1 } }

/-- A record is handed to the store, and what follows its admission (R75). -/
def State.handOn (s : State) (r : EventRecord) : State :=
  let a := (s.modLabel r.site Site.popAdmission).admitRecord .events (.event r)
  if a.2 then (a.1.modLabel r.site (·.admitEvent r)).testSlip r else a.1

/-- The record at the head of a site's admission list whose capture outcomes are final (R75). -/
def State.readyRecord (s : State) (label : Nat) : Option EventRecord :=
  ((s.siteOf label).bind fun x => x.sag.admission.head?).filter fun r => r.onset.final && r.recovery.final

/-- Every event of a site's list whose turn has come is handed on (R75); the fuel is the list's length. -/
def State.handOnAll : Nat → State → Nat → State
  | 0, s, _ => s
  | fuel + 1, s, label =>
    match s.readyRecord label with
    | none => s
    | some r => State.handOnAll fuel (s.handOn r) label

/-- EVENT_RECORD_HANDED_ON (R75): the record at the head of a site's admission list is handed on when its
outcomes are final. -/
def execEventRecordHandedOn (label : Nat) (s : State) : Result :=
  match s.readyRecord label with
  | some r => .next (s.handOn r)
  | none => .next s

end Sys2Proof.Machine
end

