-- ==== Sys2Proof/Machine/Operands.lean ====
section
/-! DEFINITION. The encoding of orders (11.4, R175, R181): the header, the body of every kind, and what
the header alone decides. -/

namespace Sys2Proof.Machine

/-! ## Parts of a body -/

/-- A window reference (R180). -/
def parseRef (bytes : List Byte) (o : Nat) : WRef :=
  ⟨field bytes o 4, field bytes (o + 4) 1, field bytes (o + 5) 3⟩

/-- A limits block; its version is ignored in orders (11.4). -/
def parseLimits (b : List Byte) (o : Nat) : Limits :=
  { sag := field b (o + 2) 2, hysteresis := field b (o + 4) 2, interruption := field b (o + 6) 2
    settle := field b (o + 8) 2, longLimit := field b (o + 10) 2, anchorWindow := field b (o + 12) 2
    depth := field b (o + 14) 1, intervalLength := field b (o + 15) 1, leadHoldoff := field b (o + 16) 1
    clampHoldoff := field b (o + 17) 1 }

/-- A map entry; its presence and verified fields are not used (R4). -/
def parseMapEntry (b : List Byte) (o : Nat) : MapEntryBody :=
  ⟨field b o 1, bit (field b (o + 1) 1) 0, field b (o + 4) 2⟩

def parseCreateSite (b : List Byte) : CreateSiteBody :=
  { label := field b 0 2, nominalVoltage := field b 2 2, frequency := field b 4 1, wiring := field b 5 1
    options := field b 6 1, limitsGiven := field b 7 1, slipDepth := field b 8 2
    limits := parseLimits b 12 }

def parseSetMap (b : List Byte) : SetMapBody :=
  ⟨field b 0 2, PerInput.of fun i => parseMapEntry b (4 + 8 * i.number)⟩

def parseAddNote (b : List Byte) : AddNoteBody :=
  ⟨field b 0 2, field b 2 1, field b 3 1, field b 4 4, field b 8 2, b.drop 12⟩

/-- The references of a Give Pages list. -/
def parsePages (b : List Byte) : List WRef :=
  (List.range (field b 0 1)).map fun j => parseRef b (4 + 8 * j)

def parseStoreLevels (b : List Byte) : StoreLevels :=
  ⟨⟨field b 0 1, field b 1 1, field b 2 1, field b 3 1⟩, field b 4 1, field b 5 1⟩

def parseVanLines (b : List Byte) : PerLine LineSettingBody :=
  PerLine.of fun l => ⟨field b (2 * l.number) 1, field b (2 * l.number + 1) 1⟩

/-! ## Kinds -/

/-- The body length and the result area length that a kind needs before its order is handed to its block
(R181); a kind whose own rule judges the result area needs none here. -/
def kindNeeds (kind : Nat) : Option (Nat × Nat) :=
  match kind with
  | 1 => some (32, 4)
  | 2 => some (68, 0)
  | 3 => some (24, 0)
  | 4 => some (4, 0)
  | 5 => some (4, 0)
  | 6 => some (4, 0)
  | 7 => some (4, 0)
  | 8 => some (4, 0)
  | 9 => some (4, 0)
  | 10 => some (4, 0)
  | 11 => some (4, 0)
  | 12 => some (8, 8)
  | 13 => some (4, 12)
  | 14 => some (12, 24)
  | 15 => some (4, 0)
  | 16 => some (4, 0)
  | 17 => some (8, 0)
  | 18 => some (4, 0)
  | 19 => some (4, 4)
  | 20 => some (0, 0)
  | 21 => some (4, 4)
  | 22 => some (8, 0)
  | 23 => some (0, 0)
  | 24 => some (0, 0)
  | _ => none

/-- The order that a kind and a body spell (11.4); `result` is the length of the result area. -/
def parseOrder (kind : Nat) (b : List Byte) (result : Nat) : Option Order :=
  match kind with
  | 1 => some (.createSite (parseCreateSite b))
  | 2 => some (.setMap (parseSetMap b))
  | 3 => some (.setLimits ⟨field b 0 2, parseLimits b 4⟩)
  | 4 => some (.startSurvey (field b 0 2) (bit (field b 2 1) 0))
  | 5 => some (.pauseSurvey (field b 0 2))
  | 6 => some (.resumeSurvey (field b 0 2))
  | 7 => some (.closeSite (field b 0 2))
  | 8 => some (.discardSite (field b 0 2))
  | 9 => some (.readSite (field b 0 2) result)
  | 10 => some (.startCheck (field b 0 2))
  | 11 => some (.cancelCheck (field b 0 2))
  | 12 => some (.setClock (field b 0 4) (field b 4 2))
  | 13 => some (.snapshot (field b 0 2))
  | 14 => some (.addNote (parseAddNote b))
  | 15 => some (.givePages (field b 0 1) (parsePages b) result)
  | 16 => some (.flushStreams (field b 0 1) result)
  | 17 => some (.setStoreLevels (parseStoreLevels b) result)
  | 18 => some (.queuePrint ⟨field b 0 1, field b 1 1, b.drop 4⟩ result)
  | 19 => some (.cancelPrint (field b 0 2))
  | 20 => some (.readPrintQueue result)
  | 21 => some (.setPrinter (field b 0 1))
  | 22 => some (.setVanLines (parseVanLines b) result)
  | 23 => some .away
  | 24 => some .rest
  | _ => none

/-! ## The header (R175, R181) -/

/-- An order header as the walker reads it (11.4). -/
structure OrderHeader where
  kind : Nat
  recordLength : Nat
  bodyLength : Nat
  state : Nat
  deriving DecidableEq, Repr

def parseHeader (h : List Byte) : OrderHeader := ⟨field h 0 2, field h 2 2, field h 4 2, field h 6 1⟩

/-- The link of an order record (11.4). -/
def orderLink (h : List Byte) : WRef := parseRef h 8

/-- The state Done (R181). -/
def OrderHeader.isDone (h : OrderHeader) : Bool := h.state == 2

/-- The record lies within its window (R175). -/
def recordFits (lp : LinkPort) (r : WRef) (length : Nat) : Bool :=
  match lp.entry r with
  | some w => decide (r.offset + length ≤ w.length)
  | none => false

/-- The body and the result area are long enough for the kind (R181). -/
def OrderHeader.longEnough (h : OrderHeader) : Bool :=
  match kindNeeds h.kind with
  | some n => decide (n.1 ≤ h.bodyLength ∧ 64 + h.bodyLength + n.2 ≤ h.recordLength)
  | none => false

/-- A header that is not Done passes the walker's judgement (R175, R181). -/
def OrderHeader.sound (h : OrderHeader) (lp : LinkPort) (r : WRef) : Bool :=
  decide (h.state = 1 ∧ 64 ≤ h.recordLength ∧ h.recordLength ≤ 1024 ∧ h.recordLength % 16 = 0)
    && recordFits lp r h.recordLength
    && decide (h.bodyLength % 4 = 0 ∧ 64 + h.bodyLength ≤ h.recordLength)
    && h.longEnough

/-- The list of a Give Pages lies within its body (R181); other kinds have no such test. -/
def listFits (h : OrderHeader) (body : List Byte) : Bool :=
  h.kind != 15 || decide (4 + 8 * field body 0 1 ≤ h.bodyLength)

/-- The body of an order record. -/
def bodyOf (h : OrderHeader) (record : List Byte) : List Byte := fitTo h.bodyLength (record.drop 64)

/-- The order that a record spells (R175, R181): none is a Bad Order. The list of a Give Pages is judged here,
before its count (log 53). -/
def orderOf (lp : LinkPort) (r : WRef) (record : List Byte) : Option Order :=
  let h := parseHeader (fitTo 64 record)
  if h.sound lp r && listFits h (bodyOf h record) then
    parseOrder h.kind (bodyOf h record) (h.recordLength - 64 - h.bodyLength)
  else none

end Sys2Proof.Machine
end

