-- ==== Sys2Proof/Machine/Orders.lean ====
section
/-! DEFINITION. How an order reaches its block and how its result goes back (R175): one shared operation
for every order. -/

namespace Sys2Proof.Machine

/-- What a block gives back for an order: the state after it, the result code and the result area. -/
structure Answer where
  state : State
  code : ResultCode
  area : List Byte
  deriving DecidableEq, Repr

/-- A refusal leaves every block's state as it was (R9) and writes no result area (R181). -/
def refuse (s : State) (c : ResultCode) : Answer := ⟨s, c, []⟩

/-- An order carried out. -/
def accept (s : State) (area : List Byte) : Answer := ⟨s, .ok, area⟩

/-- The walker offers this order to its block. -/
def State.offered (s : State) (o : Order) : Option Offer :=
  match s.lp.walker with
  | .offering f => if s.lp.link = .attended ∧ f.order = o then some f else none
  | .idle | .readingLink _ | .waiting _ | .readingOrder _ _ | .writingResult _ _ | .writingDone _ _
  | .stopped => none

/-- The write of an order's result area, then of its result code (R175). -/
def resultWrites (bodyLength : Nat) (code : ResultCode) (area : List Byte) : List (Nat × List Byte) :=
  (if area.isEmpty then [] else [(64 + bodyLength, area)]) ++ [(7, byte code.number)]

/-- The walker issues the write of an order's result (R175). -/
def State.writeResult (s : State) (at_ : WRef) (bodyLength : Nat) (code : ResultCode) (area : List Byte) :
    State :=
  let a : Access := ⟨.resultWrite, at_.window, at_.offset, resultWrites bodyLength code area, s.up⟩
  { s with lp := { s.lp with walker := .writingResult at_ a } }

/-- An order is taken by its block whole, and the walker writes what it gives (R175). An order that the
walker does not offer has no effect. -/
def State.answer (s : State) (o : Order) (f : State → Answer) : Result :=
  match s.offered o with
  | none => .next s
  | some offer =>
    .next ((f s).state.writeResult offer.at_ offer.bodyLength (f s).code (f s).area)

end Sys2Proof.Machine
end

