-- ==== Sys2Proof/Machine/Sites.lean ====
section
/-! DEFINITION. The Site Controller (chapter 01) and the orders judged like its own: checks (R39, R40),
the clock (R36), snapshots (R80) and notes (R110, R111). -/

namespace Sys2Proof.Machine

/-! ## Ranges (R6, R9) -/

/-- A label in its range (R9). -/
def labelOk (n : Nat) : Bool := decide (1 ≤ n ∧ n ≤ 65535)

/-- A limits set passes its ranges and the two cross-checks (R6). -/
def limitsValid (l : Limits) : Bool :=
  decide (5000 ≤ l.sag ∧ l.sag ≤ 9800 ∧ 100 ≤ l.hysteresis ∧ l.hysteresis ≤ 1000
    ∧ 100 ≤ l.interruption ∧ l.interruption ≤ 2000 ∧ 10 ≤ l.settle ∧ l.settle ≤ 500)
  && decide (1 ≤ l.longLimit ∧ l.longLimit ≤ 600 ∧ 8 ≤ l.depth ∧ l.depth ≤ 50
    ∧ l.leadHoldoff ≤ 15 ∧ l.clampHoldoff ≤ 15 ∧ l.anchorWindow ≤ 300)
  && [1, 2, 3, 5, 10, 15, 30, 60].contains l.intervalLength
  && decide (l.interruption < l.sag ∧ l.sag + l.hysteresis ≤ 10000)

/-- The default limits set (R6). -/
def defaultLimits : Limits := ⟨9000, 200, 1000, 50, 60, 60, 40, 10, 3, 3⟩

/-! ## The default map (R3) -/

def defaultRole (w : Wiring) (i : Input) : Role :=
  match w, i with
  | _, .v1 => .l1
  | _, .i1 => .l1
  | .single, .v2 => .unused
  | .single, .v3 => .unused
  | .single, .i2 => .unused
  | .single, .i3 => .unused
  | _, .v2 => .l2
  | _, .i2 => .l2
  | _, .v3 => .l3
  | _, .i3 => .l3
  | .delta, .v4 => .unused
  | .delta, .i4 => .unused
  | _, .v4 => .ne
  | _, .i4 => .n

def defaultMap (w : Wiring) : ChannelMap :=
  PerInput.of fun i => ⟨defaultRole w i, if i.isVoltage then 1 else 100, false, .unknown, false⟩

/-! ## A well-formed map (R4) -/

/-- An entry's own range (R3, R9): the list of roles, and the scale of its input. A role of the list that
its input cannot hold is a fault of the map as a whole (R4, log 27). -/
def entryOk (i : Input) (e : MapEntryBody) : Bool :=
  (Role.ofNumber e.role).isSome && decide (1 ≤ e.scale ∧ e.scale ≤ if i.isVoltage then 1000 else 3000)

/-- The role of an entry whose range has been checked. -/
def entryRole (e : MapEntryBody) : Role := (Role.ofNumber e.role).getD .unused

/-- How many inputs of a list hold a role. -/
def holders (m : PerInput MapEntryBody) (is : List Input) (r : Role) : Nat :=
  (is.filter fun i => decide (entryRole (m.get i) = r)).length

/-- Every input of a list is Unused or holds one of the given roles. -/
def onlyRoles (m : PerInput MapEntryBody) (is : List Input) (rs : List Role) : Bool :=
  is.all fun i => decide (entryRole (m.get i) = .unused) || rs.contains (entryRole (m.get i))

/-- The roles as a whole satisfy the rule for a wiring (R4). -/
def mapFits (w : Wiring) (m : PerInput MapEntryBody) : Bool :=
  let vs : List Input := [.v1, .v2, .v3]
  let cs : List Input := [.i1, .i2, .i3]
  match w with
  | .single =>
    holders m vs .l1 == 1 && onlyRoles m vs [.l1] && onlyRoles m [.v4] [.ne]
      && decide (holders m cs .l1 ≤ 1) && onlyRoles m cs [.l1] && onlyRoles m [.i4] [.n]
  | .wye =>
    [Role.l1, .l2, .l3].all (fun r => holders m vs r == 1 && decide (holders m cs r ≤ 1))
      && onlyRoles m [.v4] [.ne] && onlyRoles m cs [.l1, .l2, .l3] && onlyRoles m [.i4] [.n]
  | .delta =>
    [Role.l1, .l2, .l3].all (fun r => holders m vs r == 1 && decide (holders m cs r ≤ 1))
      && onlyRoles m [.v4] [] && onlyRoles m cs [.l1, .l2, .l3] && onlyRoles m [.i4] []

/-! ## Create Site (R10) -/

/-- The options byte (11.4); none for a Slip rule that is not in the list. Only the Depth rule has a
depth (R2), and an absent number is 0 (11.1). -/
def parseOptions (b depth : Nat) : Option SiteOptions :=
  let rule : Option SlipRule := match b / 4 % 4 with
    | 0 => some .off
    | 1 => some .interruptions
    | 2 => some .depth
    | _ => none
  rule.map fun r => ⟨bit b 0, bit b 1, r, if r = .depth then depth else 0, bit b 4⟩

def parseWiring : Nat → Option Wiring
  | 0 => some .single
  | 1 => some .wye
  | 2 => some .delta
  | _ => none

/-- The slip depth is in its range when the rule uses it (R2). -/
def slipOk (o : SiteOptions) : Bool :=
  o.slipRule != .depth || decide (100 ≤ o.slipDepth ∧ o.slipDepth ≤ 9800)

/-- Every field of a Create Site is in its range (R2, R6, R9): the wiring and the options it gives. -/
def judgeCreate (b : CreateSiteBody) : Option (Wiring × SiteOptions) :=
  match parseWiring b.wiring, parseOptions b.options b.slipDepth with
  | some w, some o =>
    if labelOk b.label ∧ 50 ≤ b.nominalVoltage ∧ b.nominalVoltage ≤ 800
        ∧ (b.frequency = 50 ∨ b.frequency = 60) ∧ b.limitsGiven ≤ 1 ∧ slipOk o
        ∧ (b.limitsGiven = 1 → limitsValid b.limits = true) then some (w, o)
    else none
  | _, _ => none

/-- A site record at Create Site (R2, R10). -/
def Site.create (b : CreateSiteBody) (w : Wiring) (o : SiteOptions) (now : Time) : Site :=
  { label := b.label, state := .drafted, nominalVoltage := b.nominalVoltage, frequency := b.frequency
    wiring := w, options := o
    active := if b.limitsGiven = 1 then b.limits else defaultLimits
    pendingSet := none, version := 1, map := defaultMap w
    checkStatus := .never, unusable := none, returnState := none
    counters := ⟨0, 0, 0, 0, 0, 0, 0, 0⟩, created := now, started := none, closed := none
    openEvent := 0, pins := 0
    sag := { nextEvent := 1, nextCapture := 1, worst := [], lastClosed := none, admission := [] }
    nextInterval := 1, journal := JournalState.fresh }

/-- Create Site as the Site Controller takes it (R10). -/
def State.createSite (s : State) (b : CreateSiteBody) : Answer :=
  match judgeCreate b with
  | none => refuse s .badValue
  | some (w, o) =>
    if (s.findSlot b.label).isSome then refuse s .duplicateSite
    else match s.emptySlot with
      | none => refuse s .siteTableFull
      | some k =>
        accept ((s.setSlot k (some (Site.create b w o s.clock))).put b.label
          (.created b.nominalVoltage b.frequency w o)) (byte k.val ++ zeros 3)

/-- CREATE_SITE (R10). -/
def execCreateSite (b : CreateSiteBody) (s : State) : Result := s.answer (.createSite b) (·.createSite b)

/-! ## The common judgement of the other site orders (R9) -/

/-- Steps 1 and 2 of R9 for an order whose other fields are in range when `inRange` holds. -/
def State.judgeSite (s : State) (label : Nat) (inRange : Bool) (f : Fin 8 → Site → Answer) : Answer :=
  if ¬ (labelOk label ∧ inRange) then refuse s .badValue
  else match s.findSlot label with
    | none => refuse s .unknownSite
    | some k => match s.site k with
      | none => refuse s .unknownSite
      | some x => f k x

/-! ## Set Map (R11) -/

/-- A map entry that Set Map writes (R11). -/
def newEntry (b : MapEntryBody) (p : Presence) : MapEntry := ⟨entryRole b, b.scale, b.invert, p, false⟩

/-- The map that Set Map writes: presence is kept on a Paused site, and Unknown otherwise (R11). -/
def newMap (m : PerInput MapEntryBody) (x : Site) : ChannelMap :=
  PerInput.of fun i =>
    newEntry (m.get i) (if x.state = .paused then (x.map.get i).presence else .unknown)

/-- The site record after Set Map (R11). -/
def Site.setMap (x : Site) (m : ChannelMap) : Site :=
  { x with
    map := m, checkStatus := .never, unusable := none
    state := if x.state = .ready then .drafted else x.state }

/-- The new map takes effect on a live site (R11, R22, R27, R53). -/
def State.liveMapChanges (s : State) (x : Site) (m : ChannelMap) : State :=
  if x.state = .paused then
    ((s.noteMapChange x.map m).changeWatch m).rechoose m .mapChanged
  else s

/-- Set Map as the Site Controller takes it (R11). -/
def State.setMap (s : State) (b : SetMapBody) : Answer :=
  s.judgeSite b.label (Input.all.all fun i => entryOk i (b.entries.get i)) fun k x =>
    if ¬ mapFits x.wiring b.entries then refuse s .badValue
    else match x.state with
      | .checking => refuse s .wrongState
      | .surveying => refuse s .wrongState
      | .closed => refuse s .wrongState
      | .drafted | .ready | .paused =>
        let m := newMap b.entries x
        accept (((s.modSite k (·.setMap m)).liveMapChanges x m).put x.label (.mapChanged m)) []

/-- SET_MAP (R11). -/
def execSetMap (b : SetMapBody) (s : State) : Result := s.answer (.setMap b) (·.setMap b)

/-! ## Set Limits (R8) -/

/-- Set Limits as the Site Controller takes it (R8). -/
def State.setLimits (s : State) (b : SetLimitsBody) : Answer :=
  s.judgeSite b.label (limitsValid b.limits) fun k x =>
    match x.state with
    | .closed => refuse s .wrongState
    | .drafted | .ready => accept (s.applyLimits k b.limits) []
    | .surveying | .paused | .checking =>
      accept (s.modSite k fun y => { y with pendingSet := some b.limits }) []

/-- SET_LIMITS (R8). -/
def execSetLimits (b : SetLimitsBody) (s : State) : Result := s.answer (.setLimits b) (·.setLimits b)

/-! ## A site becomes live (R12, R39) -/

/-- Another site is live (R5). -/
def State.otherLive (s : State) (k : Fin 8) : Bool :=
  match s.liveSlot with
  | some j => decide (j ≠ k)
  | none => false

/-- The pulse at the start of the Front End's first block (R29). -/
def State.firstPulse (s : State) (x : Site) (levels : PerClamp Nat) : State :=
  { s with fe := s.fe.pulse x.map levels }.watchPulse x levels

/-- Detectors are built for a map (R61, R64), and no loss taken ahead of a set is remembered (R65). -/
def State.startDetectors (s : State) (m : ChannelMap) : State :=
  { s with sag := { s.sag with detectors := buildDetectors m, lostAhead := PerInput.same none } }

/-- The site record after step 2 of R12. -/
def Site.start (x : Site) (now : Time) : Site := { x with state := .surveying, started := some now }

/-- Steps 1 to 7 of R12. -/
def State.beginSurvey (s : State) (k : Fin 8) (x : Site) (levels : PerClamp Nat) : State :=
  let s1 := ((s.modSite k (·.start s.clock)).startFrontEnd x.map).startWatch x.map
  let s2 := s1.startDetectors x.map
  ((s2.openInterval k s.clock).put x.label (.started x.version (decide (x.state = .drafted)))).firstPulse
    x levels

/-- A state from which Start Survey is accepted (R12). -/
def startable (st : SiteState) (unchecked : Bool) : Bool :=
  match st with
  | .ready => true
  | .drafted => unchecked
  | .checking | .surveying | .paused | .closed => false

/-- Start Survey as the Site Controller takes it (R12). -/
def State.startSurvey (s : State) (label : Nat) (unchecked : Bool) (levels : PerClamp Nat) : Answer :=
  s.judgeSite label true fun k x =>
    if ¬ startable x.state unchecked then refuse s .wrongState
    else if s.otherLive k then refuse s .siteLive
    else accept (s.beginSurvey k x levels) []

/-- START_SURVEY (R12); the sense levels are those of the first block's pulse (R29). -/
def execStartSurvey (label : Nat) (unchecked : Bool) (levels : PerClamp Nat) (s : State) : Result :=
  s.answer (.startSurvey label unchecked) (·.startSurvey label unchecked levels)

/-! ## Pause and Resume (R13, R14) -/

/-- The site's waiting events whose outcomes are final are handed on (R75). -/
def State.handOnWaiting (s : State) (label : Nat) : State :=
  State.handOnAll (((s.siteOf label).map fun x => x.sag.admission.length).getD 0) s label

/-- Every effect of R13 on a Surveying site, for an order or for a van line. An event record that waits for
nothing more is handed on before the interval closes (R75, R96). -/
def State.pause (s : State) (k : Fin 8) (label : Nat) (cause : Option VanLine) : State :=
  let s1 := ((s.modSite k fun y => { y with state := .paused }).closeEventByOrder k .paused).handOnWaiting
    label
  let s2 := { s1 with sag := { s1.sag with detectors := s1.sag.detectors.map (Option.map Detector.hold) } }
  (s2.closeIntervalByOrder .paused).put label (.paused cause)

/-- Pause Survey as the Site Controller takes it (R13). -/
def State.pauseSurvey (s : State) (label : Nat) : Answer :=
  s.judgeSite label true fun k x =>
    if x.state ≠ .surveying then refuse s .wrongState else accept (s.pause k x.label none) []

/-- PAUSE_SURVEY (R13). -/
def execPauseSurvey (label : Nat) (s : State) : Result := s.answer (.pauseSurvey label) (·.pauseSurvey label)

/-- Every effect of R14 on a Paused site. -/
def State.resume (s : State) (k : Fin 8) (x : Site) : State :=
  let s1 := ((s.modSite k fun y => { y with state := .surveying }).put x.label .resumed).applyPending k
  (s1.startDetectors x.map).openInterval k s.clock

/-- Resume Survey as the Site Controller takes it (R14). -/
def State.resumeSurvey (s : State) (label : Nat) : Answer :=
  s.judgeSite label true fun k x =>
    if x.state ≠ .paused then refuse s .wrongState else accept (s.resume k x) []

/-- RESUME_SURVEY (R14). -/
def execResumeSurvey (label : Nat) (s : State) : Result :=
  s.answer (.resumeSurvey label) (·.resumeSurvey label)

/-! ## Close Site (R15) -/

/-- A running check ends Aborted, Closed (R15, R50). -/
def State.abortCheck (s : State) : State :=
  match s.check with
  | some c => s.breakCheck c .closed
  | none => s

/-- Steps 1 to 3 of R15. -/
def State.closeWork (s : State) (k : Fin 8) (x : Site) : State :=
  match x.state with
  | .checking => ((s.abandonTrackers x.label).handOnWaiting x.label).abortCheck
  | .surveying =>
    (((s.abandonTrackers x.label).closeEventByOrder k .closed).handOnWaiting x.label).closeIntervalByOrder
      .closed
  | .paused => (s.abandonTrackers x.label).handOnWaiting x.label
  | .drafted | .ready | .closed => s

/-- Step 4 of R15. -/
def Site.close (x : Site) (now : Time) : Site :=
  { x with state := .closed, pendingSet := none, returnState := none, closed := some now }

/-- Step 5 of R15, with the detectors dropped (R61). -/
def State.leaveLive (s : State) (was : SiteState) : State :=
  if was.isLive then
    { s.stopWatch.stopFrontEnd with
      sag := { s.sag with detectors := PerInput.same none, lostAhead := PerInput.same none } }
  else s

/-- Close Site as the Site Controller takes it (R15). -/
def State.closeSite (s : State) (label : Nat) : Answer :=
  s.judgeSite label true fun k x =>
    if x.state = .closed then refuse s .wrongState
    else accept ((((s.closeWork k x).modSite k (·.close s.clock)).leaveLive x.state).put x.label
      (.closed x.state)) []

/-- CLOSE_SITE (R15). -/
def execCloseSite (label : Nat) (s : State) : Result := s.answer (.closeSite label) (·.closeSite label)

/-! ## Discard Site (R16) -/

/-- The store still holds a record of a site (R16). -/
def RecordStore.holdsSite (r : RecordStore) (label : Nat) : Bool :=
  Stream.all.any fun st => (r.queues.get st).any fun q => q.site == label

/-- Discard Site as the Site Controller takes it (R16). -/
def State.discardSite (s : State) (label : Nat) : Answer :=
  s.judgeSite label true fun k x =>
    if x.state ≠ .drafted ∧ x.state ≠ .closed then refuse s .wrongState
    else if x.pins ≠ 0 then refuse s .siteInUse
    else if s.store.holdsSite label then refuse s .recordsPending
    else accept (s.setSlot k none) []

/-- DISCARD_SITE (R16). -/
def execDiscardSite (label : Nat) (s : State) : Result := s.answer (.discardSite label) (·.discardSite label)

/-! ## Read Site (R17) -/

/-- The counters in the order of R18. -/
def countersBytes (c : Counters) : List Byte :=
  le 4 c.events ++ le 4 c.intervals ++ le 4 c.journal ++ le 4 c.lostEvents ++ le 4 c.lostIntervals
    ++ le 4 c.lostCaptures ++ le 4 c.lostJournal ++ le 4 c.slipsSkipped

/-- The limits block of a pending set; its version is a free value from 1 (log 9). -/
def pendingBlock (x : Site) : List Byte :=
  match x.pendingSet with
  | some l => limitsBlock (1 + Config.freePendingVersion x.version % 65535) l
  | none => zeros 20

/-- The channel set of an event as a byte (11.4). -/
def channelSet (e : OpenEvent) : Nat := ofBits (Input.all.map e.hasMember)

/-- The open event of a site, when it has one. -/
def State.eventOf (s : State) (x : Site) : Option OpenEvent := s.sag.openEvent.filter fun e => e.number == x.openEvent

/-- The site summary, 192 bytes (R17, 11.4). -/
def State.siteSummary (s : State) (k : Fin 8) (x : Site) : List Byte :=
  let e := s.eventOf x
  byte k.val ++ le 2 x.label ++ byte x.state.number ++ byte (orNone ReturnState.number x.returnState)
    ++ byte (wiringNumber x.wiring) ++ byte x.frequency ++ byte (optionsByte x.options)
    ++ le 2 x.nominalVoltage ++ le 2 x.options.slipDepth
    ++ byte x.checkStatus.number ++ byte (orNone UnusableReason.number x.unusable) ++ byte x.pins
    ++ byte ((e.map channelSet).getD 0)
    ++ le 2 (((e.bind fun v => residualMember v.members).map (·.minimum)).getD 0)
    ++ limitsBlock x.version x.active ++ pendingBlock x
    ++ x.map.toList.flatMap mapEntryBytes ++ countersBytes x.counters
    ++ timeBlock x.created ++ timeBlockOr x.started ++ timeBlockOr x.closed
    ++ le 4 x.openEvent ++ timeBlockOr (e.map (·.start.time)) ++ zeros 2

/-- The slot list (R17, 11.4). -/
def State.slotList (s : State) : List Byte :=
  (slotNumbers.flatMap fun k => match s.site k with
    | some x => le 2 x.label ++ byte x.state.number ++ zeros 1
    | none => zeros 4) ++ zeros 160

/-- Read Site as the Site Controller takes it (R17). -/
def State.readSite (s : State) (label result : Nat) : Answer :=
  if label = 0 then if result < 192 then refuse s .badOrder else accept s s.slotList
  else s.judgeSite label true fun k x =>
    if result < 192 then refuse s .badOrder else accept s (s.siteSummary k x)

/-- READ_SITE (R17). -/
def execReadSite (label result : Nat) (s : State) : Result :=
  s.answer (.readSite label result) (·.readSite label result)

/-! ## Kit checks (R39, R40) -/

/-- The return state of a check (step 1 of R39). -/
def returnFor (st : SiteState) : ReturnState := if st = .paused then .paused else .drafted

/-- Step 3 of R39: a site that was not live starts the Front End and lead watch. -/
def State.checkStarts (s : State) (x : Site) : State :=
  if x.state = .paused then s else (s.startFrontEnd x.map).startWatch x.map

/-- The pulse that the Presence phase asks for (R42), and that of the first block when the Front End has
just started (R29). -/
def State.checkPulse (s : State) (x : Site) (levels : PerClamp Nat) : State :=
  if x.state = .paused then { s with fe := s.fe.pulse x.map levels } else s.firstPulse x levels

/-- Steps 1 to 5 of R39. -/
def State.beginCheck (s : State) (k : Fin 8) (x : Site) (levels : PerClamp Nat) : State :=
  let s1 := (s.modSite k fun y =>
    { y with state := .checking, returnState := some (returnFor x.state) }).checkStarts x
  let s2 := s1.checkPulse x levels
  { s2 with check := some (CheckRecord.fresh k x.map s2.fe.sense levels s.now) }.put x.label
    (.checkStarted (returnFor x.state) x.wiring x.options x.version)

/-- Start Check as the Kit Check Unit takes it (R39). -/
def State.startCheck (s : State) (label : Nat) (levels : PerClamp Nat) : Answer :=
  s.judgeSite label true fun k x =>
    match x.state with
    | .checking => refuse s .wrongState
    | .surveying => refuse s .wrongState
    | .closed => refuse s .wrongState
    | .drafted | .ready | .paused =>
      if s.otherLive k then refuse s .siteLive else accept (s.beginCheck k x levels) []

/-- START_CHECK (R39). -/
def execStartCheck (label : Nat) (levels : PerClamp Nat) (s : State) : Result :=
  s.answer (.startCheck label) (·.startCheck label levels)

/-- Cancel Check as the Kit Check Unit takes it (R40). -/
def State.cancelCheck (s : State) (label : Nat) : Answer :=
  s.judgeSite label true fun _ x =>
    match x.state, s.check with
    | .checking, some c => accept (s.breakCheck c .cancelled) []
    | _, _ => refuse s .wrongState

/-- CANCEL_CHECK (R40). -/
def execCancelCheck (label : Nat) (s : State) : Result := s.answer (.cancelCheck label) (·.cancelCheck label)

/-! ## Set Clock (R36) -/

/-- Set Clock as the Front End takes it (R36). -/
def State.setClock (s : State) (sec ms : Nat) : Answer :=
  if 999 < ms ∨ 4294967295 < sec then refuse s .badValue
  else if s.liveSlot.isSome then refuse s .siteLive
  else accept ({ s with clock := ⟨sec, ms, false⟩ }.put 0 (.clockSet s.clock ⟨sec, ms, false⟩))
    (timeBlock s.clock)

/-- SET_CLOCK (R36). -/
def execSetClock (sec ms : Nat) (s : State) : Result := s.answer (.setClock sec ms) (·.setClock sec ms)

/-! ## Snapshot (R80) -/

/-- A site whose Front End will keep running (R80). -/
def snapshotAllowed (x : Site) : Bool :=
  match x.state with
  | .surveying | .paused => true
  | .checking => decide (x.returnState = some .paused)
  | .drafted | .ready | .closed => false

/-- Snapshot as the Sag Monitor takes it (R80). -/
def State.snapshot (s : State) (label : Nat) : Answer :=
  s.judgeSite label true fun _ x =>
    if ¬ snapshotAllowed x then refuse s .wrongState
    else match (s.claim .snapshot x.label 0).2 with
      | none => refuse s .trackerBusy
      | some k => accept (s.claim .snapshot x.label 0).1 (byte k.val ++ zeros 3 ++ timeBlock s.clock)

/-- SNAPSHOT (R80). -/
def execSnapshot (label : Nat) (s : State) : Result := s.answer (.snapshot label) (·.snapshot label)

/-! ## Add Note (R110, R111) -/

/-- The anchor that a note's request gives; none when the request is none of the three (R110, 11.4:
numbered None 255, Auto 0, Event 1). -/
inductive NoteAnchor where
  | none
  | auto
  | event (n : Nat)
  deriving DecidableEq, Repr

def parseNoteAnchor (request event : Nat) : Option NoteAnchor :=
  match request with
  | 0 => some .auto
  | 1 => some (.event event)
  | 255 => some .none
  | _ => Option.none

/-- A named event exists for a note's journal; the device journal has none (step 3 of R110). -/
def State.eventNamed (s : State) (label n : Nat) : Bool :=
  match s.siteOf label with
  | some x => decide (label ≠ 0 ∧ 1 ≤ n ∧ n < x.sag.nextEvent)
  | none => false

/-- The anchor written into a note (R111). -/
def State.noteAnchor (s : State) (label : Nat) : NoteAnchor → Anchor
  | .none => .none
  | .auto => s.autoAnchor label
  | .event n => .namedEvent n

/-- A note's refusals of steps 1 to 3 of R110; the anchor to write when none applies. -/
def State.judgeNote (s : State) (b : AddNoteBody) : Except ResultCode Anchor :=
  match parseNoteAnchor b.request b.event with
  | none => .error .badValue
  | some a =>
    if 480 < b.textLength ∨ b.text.length < b.textLength then .error .badValue
    else if b.label ≠ 0 ∧ (s.findSlot b.label).isNone then .error .unknownSite
    else match a with
      | .event n =>
        if s.eventNamed b.label n then .ok (.namedEvent n) else .error .badAnchor
      | .none => .ok (s.noteAnchor b.label .none)
      | .auto => .ok (s.noteAnchor b.label .auto)

/-- The site is Closed: a note to it carries the Late flag (R111). -/
def State.isClosed (s : State) (label : Nat) : Bool :=
  match s.siteOf label with
  | some x => decide (x.state = .closed)
  | none => false

/-- The lost total of a journal (R101, R111). -/
def State.lostTotal (s : State) (label : Nat) : Nat :=
  if label = 0 then s.device.lostTotal else ((s.siteOf label).map (·.counters.lostJournal)).getD 0

/-- The result area of Add Note (R111, 11.4). -/
def noteArea (sequence : Nat) (a : Anchor) (t : Time) (lost : Nat) : List Byte :=
  le 4 sequence ++ byte a.numbers.1 ++ zeros 3 ++ le 4 a.numbers.2 ++ timeBlock t ++ le 4 lost

/-- Add Note as the Journal takes it (R110, R111). -/
def State.addNote (s : State) (b : AddNoteBody) : Answer :=
  match s.judgeNote b with
  | .error c => refuse s c
  | .ok a =>
    let r := s.enter ⟨b.label, a, b.author, s.isClosed b.label,
      .note ((b.text.take b.textLength).map textByte)⟩
    match r.2 with
    | some n => accept r.1 (noteArea n a s.clock (r.1.lostTotal b.label))
    | none => ⟨r.1, .journalFull, noteArea 0 .none s.clock (r.1.lostTotal b.label)⟩

/-- ADD_NOTE (R110). -/
def execAddNote (b : AddNoteBody) (s : State) : Result := s.answer (.addNote b) (·.addNote b)

end Sys2Proof.Machine
end

