-- ==== Sys2Proof/Machine/StoreOrders.lean ====
section
/-! DEFINITION. The Record Store's orders (R125, R133, R134) and the steps of a delivery (R123, R129 to
R131). -/

namespace Sys2Proof.Machine

/-! ## Orders -/

/-- The result area of Give Pages (R125, 11.4). -/
def givePagesArea (r : RecordStore) (codes : List PageCode) : List Byte :=
  padded (codes.flatMap fun c => byte c.number) ++ le 2 r.pool.length ++ le 2 r.waiting.length

/-- Give Pages as the Record Store takes it (R125): a count out of range is refused before a result area that is
too short (log 60). -/
def State.givePages (s : State) (count : Nat) (pages : List WRef) (result : Nat) : Answer :=
  if count < 1 ∨ 64 < count then refuse s .badValue
  else if result < pad4 count + 4 then refuse s .badOrder
  else
    let j := s.judgePages pages
    accept j.1 (givePagesArea j.1.store j.2)

/-- GIVE_PAGES (R125). -/
def execGivePages (count : Nat) (pages : List WRef) (result : Nat) (s : State) : Result :=
  s.answer (.givePages count pages result) (·.givePages count pages result)

/-- Flush Streams as the Record Store takes it (R133). -/
def State.flushStreams (s : State) (mask result : Nat) : Answer :=
  if result < 88 then refuse s .badOrder
  else accept { s with store := s.store.flush mask } (s.store.flush mask).summary

/-- FLUSH_STREAMS (R133). -/
def execFlushStreams (mask result : Nat) (s : State) : Result :=
  s.answer (.flushStreams mask result) (·.flushStreams mask result)

/-- The store under new levels (R134). -/
def RecordStore.setLevels (r : RecordStore) (l : StoreLevels) : RecordStore := { r with levels := l }

/-- Set Store Levels as the Record Store takes it (R134): a level out of range is refused before a result area that
is too short (log 60). -/
def State.setStoreLevels (s : State) (l : StoreLevels) (result : Nat) : Answer :=
  if ¬ StoreLevels.inRange l then refuse s .badValue
  else if result < 88 then refuse s .badOrder
  else accept { s with store := s.store.setLevels l } (s.store.setLevels l).summary

/-- SET_STORE_LEVELS (R134). -/
def execSetStoreLevels (l : StoreLevels) (result : Nat) (s : State) : Result :=
  s.answer (.setStoreLevels l result) (·.setStoreLevels l result)

/-! ## Deliveries -/

/-- HOLD_TIME_EXPIRY (R123, R129): the head record of a stream has waited its hold time, which can start a
delivery. -/
def execHoldTimeExpiry (dt : Nat) (st : Stream) (s : State) : Result :=
  let t := s.elapse dt
  if t.headWaited st then .next (t.startDelivery st) else .next t

/-- DELIVERY_START (R129). -/
def execDeliveryStart (st : Stream) (s : State) : Result := .next (s.startDelivery st)

/-- PAGE_WRITE_DONE (R130): the records or the header of a page are written. -/
def execPageWriteDone (dt : Nat) (st : Stream) (s : State) : Result :=
  let t := s.elapse dt
  match t.store.deliveries.get st with
  | some d => .next (t.nextStage st d)
  | none => .next t

/-- PAGE_LINK_WRITE_DONE (R131): the page is published. -/
def execPageLinkWriteDone (dt : Nat) (st : Stream) (s : State) : Result :=
  let t := s.elapse dt
  match t.store.deliveries.get st with
  | some d => if d.stage = .link then .next (t.publish st d) else .next t
  | none => .next t

end Sys2Proof.Machine
end

