-- ==== Sys2Proof/Machine/PrintOrders.lean ====
section
/-! DEFINITION. The Print Engine's orders (R139, R140, R155, R157, R158). -/

namespace Sys2Proof.Machine

/-! ## Item entries (R139, 11.6) -/

/-- The entries of a Queue Print body, each with its length byte: none when they do not fit (R140). -/
def splitItems : Nat → List Byte → Option (List (List Byte))
  | 0, _ => some []
  | n + 1, b =>
    if b.length < 2 ∨ b.length < field b 1 1 then none
    else (splitItems n (b.drop (field b 1 1))).map fun es => b.take (max 2 (field b 1 1)) :: es

/-- A page item as its entry gives it, with the reference before its judgement (R140). -/
structure PageFields where
  label : Nat
  offset : Nat
  ref : WRef
  deriving DecidableEq, Repr

/-- An item of an order before its sites and pages are judged. -/
inductive RawItem where
  | plain (i : Item)
  | sited (label : Nat) (i : Item)
  | paged (f : PageFields) (make : Option Input) (kind : Nat)
  deriving DecidableEq, Repr

/-- The fields that a page item's entry shares (11.6). -/
def pageFields (e : List Byte) : PageFields := ⟨field e 4 2, field e 6 2, parseRef e 8⟩

/-- A record offset in its range (R139). -/
def offsetOk (n : Nat) : Bool := decide (64 ≤ n ∧ n % 4 = 0)

/-- A page item in its range: a label from 1, or 0 for the device journal of a Note (R139). -/
def pagedItem (e : List Byte) (kind : Nat) (input : Option Input) (labelFrom : Nat) : Option RawItem :=
  let f := pageFields e
  if labelFrom ≤ f.label ∧ offsetOk f.offset then some (.paged f input kind) else none

/-- The length that an entry's kind gives it (11.6). -/
def entryLengthOf (e : List Byte) : Nat :=
  match field e 0 1 with
  | 0 => 4 + pad4 (field e 2 1)
  | 1 => 8
  | 2 => 8
  | 4 => 16
  | 5 => 16
  | 6 => 16
  | 7 => 4
  | 8 => 4
  | _ => 0

/-- An item in its range (R139): none is Bad Value. -/
def parseItem (e : List Byte) : Option RawItem :=
  if field e 1 1 ≠ entryLengthOf e then none
  else match field e 0 1 with
    | 0 =>
      if field e 2 1 ≤ 120 then some (.plain (.text (((e.drop 4).take (field e 2 1)).map textByte))) else none
    | 1 =>
      if labelOk (field e 4 2) then
        some (.sited (field e 4 2) (.siteHeader (field e 4 2) (field e 2 1 != 0)))
      else none
    | 2 =>
      if labelOk (field e 4 2) ∧ 1 ≤ field e 2 1 ∧ field e 2 1 ≤ 32 then
        some (.sited (field e 4 2) (.eventTable (field e 4 2) (field e 2 1)))
      else none
    | 4 => pagedItem e 4 none 1
    | 5 => pagedItem e 5 none 0
    | 6 => match Input.ofNumber (field e 2 1) with
      | some i => pagedItem e 6 (some i) 1
      | none => none
    | 7 =>
      if 1 ≤ field e 2 1 ∧ field e 2 1 ≤ 20 then some (.plain (.feed (field e 2 1))) else none
    | 8 => some (.plain .rule)
    | _ => none

/-- Every item is in its range (R140). -/
def parseItems : List (List Byte) → Option (List RawItem)
  | [] => some []
  | e :: es => match parseItem e, parseItems es with
    | some i, some is => some (i :: is)
    | _, _ => none

/-- The site an item names; 0 for none. -/
def RawItem.label : RawItem → Nat
  | .plain _ => 0
  | .sited n _ => n
  | .paged f _ _ => f.label

/-- A page item's reference is sound (step 4 of R140). -/
def RawItem.refOk (lp : LinkPort) : RawItem → Bool
  | .plain _ => true
  | .sited _ _ => true
  | .paged f _ _ => lp.pageSound f.ref false && decide (f.offset ≤ 8176)

/-- The page an item names. -/
def RawItem.page (lp : LinkPort) : RawItem → List Page
  | .plain _ => []
  | .sited _ _ => []
  | .paged f _ _ => [⟨f.ref, lp.bus f.ref⟩]

/-- The item of a job. -/
def RawItem.item (lp : LinkPort) : RawItem → Item
  | .plain i => i
  | .sited _ i => i
  | .paged f (some input) _ => .captureStrip f.label ⟨f.ref, lp.bus f.ref⟩ f.offset input
  | .paged f none kind =>
    if kind = 4 then .interval f.label ⟨f.ref, lp.bus f.ref⟩ f.offset
    else .note f.label ⟨f.ref, lp.bus f.ref⟩ f.offset

/-- The distinct pages of a list: two references name one page when their bus addresses agree (R140). -/
def distinctPages : List Page → List Page
  | [] => []
  | p :: ps => p :: (distinctPages ps).filter fun q => q.bus != p.bus

/-- The distinct sites of a list other than 0. -/
def distinctSites (ns : List Nat) : List Nat := (ns.filter (· != 0)).eraseDups

/-! ## Queue Print (R140) -/

/-- The place of a job in the queue, from 1 (R140). -/
def placeOf (jobs : List Job) (number : Nat) : Nat := (jobs.takeWhile fun j => j.number != number).length + 1

/-- The acceptance of a Queue Print whose pins are granted (R140). -/
def State.queueJob (s : State) (copies : Nat) (is : List RawItem) (r : RecordStore) : Answer :=
  let number := s.print.nextJob
  let t := { s with store := r }.createJob .order copies (is.map (RawItem.item s.lp))
    (distinctSites (is.map RawItem.label)) (distinctPages (is.flatMap (RawItem.page s.lp))) 0
  accept t (le 2 number ++ byte (placeOf t.print.jobs number) ++ zeros 1)

/-- Steps 3 to 6 of R140 for items in their ranges. -/
def State.judgeJob (s : State) (copies : Nat) (is : List RawItem) : Answer :=
  if is.any fun i => i.label != 0 && (s.findSlot i.label).isNone then refuse s .unknownSite
  else if is.any fun i => !i.refOk s.lp then refuse s .badReference
  else if Config.printQueueMax ≤ s.print.jobs.length then refuse s .queueFull
  else match s.store.requestPins (distinctPages (is.flatMap (RawItem.page s.lp))) with
    | .error c => refuse s c
    | .ok r => s.queueJob copies is r

/-- Queue Print as the Print Engine takes it (R140). -/
def State.queuePrint (s : State) (b : QueuePrintBody) (result : Nat) : Answer :=
  if result < 4 then refuse s .badOrder
  else match splitItems b.itemCount b.items with
    | none => refuse s .badOrder
    | some es =>
      if b.copies < 1 ∨ 9 < b.copies ∨ b.itemCount < 1 ∨ 32 < b.itemCount then refuse s .badValue
      else match parseItems es with
        | none => refuse s .badValue
        | some is => s.judgeJob b.copies is

/-- QUEUE_PRINT (R140). -/
def execQueuePrint (b : QueuePrintBody) (result : Nat) (s : State) : Result :=
  s.answer (.queuePrint b result) (·.queuePrint b result)

/-! ## Cancel Print (R155) -/

/-- A frame or a record read of a Printing job is in flight (R155). -/
def State.inFlight (s : State) (j : Job) : Bool :=
  decide (j.state = .printing) && (s.print.frame.isSome || s.print.read.isSome)

/-- The result area of Cancel Print (R155, 11.4). -/
def cancelArea (st : JobState) (pending : Bool) : List Byte := byte st.number ++ byte pending.toNat ++ zeros 2

/-- Cancel Print as the Print Engine takes it (R155). -/
def State.cancelPrint (s : State) (number : Nat) : Answer :=
  match s.print.jobs.find? fun j => j.number == number with
  | none => refuse s .unknownJob
  | some j =>
    if s.inFlight j then
      accept (s.modPrint fun p => p.modJob number fun k => { k with cancelPending := true })
        (cancelArea j.state true)
    else accept (s.breakJob j .cancelledOrder) (cancelArea j.state false)

/-- CANCEL_PRINT (R155). -/
def execCancelPrint (number : Nat) (s : State) : Result := s.answer (.cancelPrint number) (·.cancelPrint number)

/-! ## Read Print Queue (R157) -/

/-- The hold reason of a job state; 255 when it is not Held. -/
def holdNumber : JobState → Nat
  | .held r => r.number
  | .queued => 255
  | .printing => 255

/-- A job block, 48 bytes (R157, 11.4). -/
def jobBlock (j : Job) : List Byte :=
  le 2 j.number ++ byte j.owner.number ++ byte j.state.number ++ byte (holdNumber j.state)
    ++ byte j.cancelPending.toNat ++ byte j.copies ++ byte j.copy ++ byte j.items.length ++ byte j.item
    ++ le 2 j.line ++ le 4 j.lines ++ timeBlock j.created ++ byte j.pages.length ++ zeros 3
    ++ le 4 j.event ++ fitTo 16 (j.sites.flatMap (le 2))

/-- The print queue summary, 392 bytes (R157, 11.4). -/
def PrintEngine.summary (p : PrintEngine) : List Byte :=
  byte p.line.number ++ byte p.timeout ++ le 2 p.nextJob ++ byte p.jobs.length ++ zeros 3
    ++ fitTo 384 (p.jobs.flatMap jobBlock)

/-- Read Print Queue as the Print Engine takes it (R157). -/
def State.readPrintQueue (s : State) (result : Nat) : Answer :=
  if result < 392 then refuse s .badOrder else accept s s.print.summary

/-- READ_PRINT_QUEUE (R157). -/
def execReadPrintQueue (result : Nat) (s : State) : Result :=
  s.answer (.readPrintQueue result) (·.readPrintQueue result)

/-! ## Set Printer (R158) -/

/-- Set Printer as the Print Engine takes it (R158). -/
def State.setPrinter (s : State) (timeout : Nat) : Answer :=
  if timeout < 2 ∨ 60 < timeout then refuse s .badValue
  else accept (s.modPrint fun p => { p with timeout := timeout })
    (byte s.print.timeout ++ byte s.print.line.number ++ zeros 2)

/-- SET_PRINTER (R158). -/
def execSetPrinter (timeout : Nat) (s : State) : Result := s.answer (.setPrinter timeout) (·.setPrinter timeout)

end Sys2Proof.Machine
end

