-- ==== Sys2Proof/Machine/Van.lean ====
section
/-! DEFINITION. The Van Line Unit (chapter 09): line levels and edges, Set Van Lines, the departure, Back
and Rest. -/

namespace Sys2Proof.Machine

def State.modVan (s : State) (f : VanLines → VanLines) : State := { s with van := f s.van }

def State.modLine (s : State) (l : VanLine) (f : LineState → LineState) : State :=
  s.modVan fun v => { v with lines := v.lines.set l (f (v.lines.get l)) }

/-! ## Raw changes (R159) -/

/-- A raw level as the debounce meets it (R159): until the first level is taken the 20 ms begin again;
afterwards a level that differs from the debounced one starts the pending change, and a return drops it. -/
def LineState.rawChange (l : LineState) (level : Level) (now : Stamp) : LineState :=
  if level = l.raw then l
  else match l.settling with
    | some _ => { l with raw := level, settling := some now.up }
    | none => { l with raw := level, pendingChange := if level = l.level then none else some now }

/-- VAN_LINE_CHANGE (R159). -/
def execVanLineChange (dt : Nat) (line : VanLine) (level : Level) (s : State) : Result :=
  let t := s.elapse dt
  .next (t.modLine line fun l => l.rawChange level t.now)

/-! ## Actions (R160) -/

/-- The part acts on edges: in Running and Resting (R159). -/
def State.actsOnEdges (s : State) : Bool := decide (s.lp.part = .running ∨ s.lp.part = .resting)

/-- An edge matches a sense (R160). -/
def edgeMatches (sense : EdgeSense) (e : Edge) : Bool :=
  match sense, e with
  | .both, _ => true
  | .rising, .rising => true
  | .falling, .falling => true
  | .rising, .falling => false
  | .falling, .rising => false
  | .none, _ => false

/-- The edge that leads to a level (R159). -/
def edgeTo : Level → Edge
  | .high => .rising
  | .low => .falling

/-- A Mark entry (R112): it goes to the live site's journal or the device's, and the count advances. -/
def State.markEntry (s : State) (e : Edge) (t : Time) : State :=
  ((s.putAnchored s.liveLabel (s.autoAnchor s.liveLabel) (.mark e s.van.nextMark t))).modVan fun v =>
    { v with nextMark := nextFrom1 v.nextMark }

/-- A Line entry (R113). -/
def State.lineEntry (s : State) (l : VanLine) (e : Edge) (after : Level) (o : Option LineOutcome) (t : Time) :
    State :=
  s.put s.liveLabel (.line l e after o t)

/-- Pause Live Site (R160). -/
def State.pauseLive (s : State) (l : VanLine) (e : Edge) (after : Level) (t : Time) : State :=
  match s.liveSlot, s.liveSite with
  | some k, some x =>
    if x.state = .surveying then
      (s.pause k x.label (some l)).lineEntry l e after (some .paused) t
    else s.lineEntry l e after (some .notSurveying) t
  | _, _ => s.lineEntry l e after (some .noSite) t

/-- The first exit from Rest begins the wake delay and sets the wake source (R167). -/
def State.restExit (s : State) (source : WakeSource) : State :=
  match s.lp.part, s.van.rest with
  | .resting, some r =>
    match r.exit with
    | none => s.modVan fun v =>
        { v with source := source, rest := some { r with exit := some ⟨source, s.now, false⟩ } }
    | some _ => s
  | _, _ => s

/-- The wake delay runs: a further Wake edge changes nothing (R167). -/
def State.inWakeDelay (s : State) : Bool :=
  decide (s.lp.part = .resting) && (match s.van.rest with
    | some r => r.exit.isSome
    | none => false)

/-- The Wake action of a matching edge (R160, R167). -/
def State.wakeAction (s : State) (l : VanLine) : State :=
  if s.inWakeDelay then s else (s.wakeRequest (.line l)).restExit (.line l)

/-- The action of a matching edge (R160). -/
def State.lineAction (s : State) (line : VanLine) (action : LineAction) (e : Edge) (after : Level) (t : Time) :
    State :=
  match action, line with
  | .none, _ => s
  | .wake, l => s.wakeAction l
  | .journal, .mark => s.markEntry e t
  | .journal, l => s.lineEntry l e after none t
  | .pauseLiveSite, .mark => s
  | .pauseLiveSite, l => s.pauseLive l e after t

/-- A matching edge performs its action whole, and Attention Van Line is raised (R160). -/
def State.edge (s : State) (line : VanLine) (l : LineState) (after : Level) (t : Time) : State :=
  if s.actsOnEdges && edgeMatches l.sense (edgeTo after) then
    (s.lineAction line l.action (edgeTo after) after t).raise .vanLine
  else s

/-- The 20 ms of a stable level have passed (R159). -/
def State.settled (s : State) (since : Nat) : Bool := s.passed since Config.debounceMs

/-- LINE_DEBOUNCED (R159, R160). -/
def execLineDebounced (dt : Nat) (line : VanLine) (s : State) : Result :=
  let t := s.elapse dt
  let l := t.van.lines.get line
  match l.settling, l.pendingChange with
  | some since, _ =>
    if t.settled since then
      .next (t.modLine line fun m => { m with level := m.raw, settling := none })
    else .next t
  | none, some p =>
    if t.settled p.up then
      .next ((t.modLine line fun m => { m with level := m.raw, pendingChange := none }).edge line l l.raw p.time)
    else .next t
  | none, none => .next t

/-! ## Set Van Lines (R161) -/

def parseSense : Nat → Option EdgeSense
  | 0 => some .rising
  | 1 => some .falling
  | 2 => some .both
  | 255 => some .none
  | _ => none

def parseAction : Nat → Option LineAction
  | 0 => some .journal
  | 1 => some .pauseLiveSite
  | 2 => some .wake
  | 255 => some .none
  | _ => none

/-- One line's setting in its range (R161). -/
def parseSetting (l : VanLine) (b : LineSettingBody) : Option (EdgeSense × LineAction) :=
  match parseSense b.sense, parseAction b.action with
  | some s, some a => if l = .mark ∧ a = .pauseLiveSite then none else some (s, a)
  | _, _ => none

def LineState.take (l : LineState) (s : EdgeSense × LineAction) : LineState :=
  { l with sense := s.1, action := s.2 }

/-- The four lines under new settings (R161): none is Bad Value. -/
def newSettings (v : PerLine LineState) (b : PerLine LineSettingBody) : Option (PerLine LineState) :=
  match parseSetting .ignition b.ignition, parseSetting .mark b.mark, parseSetting .door b.door,
      parseSetting .aux b.aux with
  | some i, some m, some d, some a => some ⟨v.ignition.take i, v.mark.take m, v.door.take d, v.aux.take a⟩
  | _, _, _, _ => none

/-- The previous settings and the debounced levels (R161, 11.4). -/
def settingsArea (v : PerLine LineState) : List Byte :=
  v.toList.flatMap (fun l => byte (edgeSenseNumber l.sense) ++ byte (lineActionNumber l.action))
    ++ v.toList.flatMap fun l => byte (levelNumber l.level)

/-- Set Van Lines as the Van Line Unit takes it (R161): the result area must hold the settings and the
levels, 12 bytes (log 48). -/
def State.setVanLines (s : State) (b : PerLine LineSettingBody) (result : Nat) : Answer :=
  match newSettings s.van.lines b with
  | none => refuse s .badValue
  | some lines =>
    if result < 12 then refuse s .badOrder
    else accept (s.modVan fun v => { v with lines := lines }) (settingsArea s.van.lines)

/-- SET_VAN_LINES (R161). -/
def execSetVanLines (b : PerLine LineSettingBody) (result : Nat) (s : State) : Result :=
  s.answer (.setVanLines b result) (·.setVanLines b result)

/-! ## The departure (R162, R166) -/

def State.modLink (s : State) (f : LinkPort → LinkPort) : State := { s with lp := f s.lp }

/-- A departure becomes pending (step 1 of R162). -/
def State.depart (s : State) (cause : DepartureCause) : State :=
  s.modLink fun p => { p with departure := some ⟨cause, s.now⟩ }

/-- AWAY (R162). -/
def execAway (s : State) : Result := s.answer .away fun t => accept (t.depart .away) []

/-- Rest as the Van Line Unit takes it (R166). -/
def State.rest (s : State) : Answer :=
  if s.liveSlot.isSome ∨ s.print.jobs ≠ [] then refuse s .wrongState else accept (s.depart .rest) []

/-- REST (R166). -/
def execRest (s : State) : Result := s.answer .rest (·.rest)

/-- A departure has nothing left to wait for (R162): its order is Done, and no delivery and no record read
is in flight. -/
def State.departureReady (s : State) : Option Departure :=
  s.lp.departure.filter fun _ =>
    decide (s.lp.walker = .stopped) && decide (s.lp.link = .attended) && s.print.read.isNone
      && Stream.all.all fun st => (s.store.deliveries.get st).isNone

/-- The part enters Resting (R166). -/
def State.enterRest (s : State) : State :=
  { s with
    lp := { s.lp with part := .resting }
    print := s.print.turnOff
    van := { s.van with rest := some ⟨s.now, none⟩ } }

/-- The link becomes Away, with its entry; a Rest departure then enters Resting (R162, R166). -/
def State.becomeAway (s : State) (d : Departure) : State :=
  let s1 := s.modLink fun p => { p with link := .away, departure := none, awaySince := some s.now }
  let s2 := s1.put 0 (.away d.cause s.store.pool.length s.store.total d.ordered.time)
  match d.cause with
  | .away => s2
  | .rest => s2.enterRest

/-- LINK_BECOMES_AWAY (R162, R166). -/
def execLinkBecomesAway (s : State) : Result :=
  match s.departureReady with
  | some d => .next (s.becomeAway d)
  | none => .next s

/-! ## Back (R165) -/

/-- The walker waits at its position, and its sweep begins (R165, R176): the period runs from the moment the
walker begins to wait, which after a re-read is the completion that found null (log 57). -/
def State.walkerWaits (s : State) : State := s.modLink fun p => { p with walker := .waiting s.up }

/-- The time the link became Away. -/
def State.awayTime (s : State) : Time := (s.lp.awaySince.map (·.time)).getD s.clock

/-- Back on an Away link (R165). -/
def State.linkBack (s : State) : State :=
  let s1 := (s.modLink fun p => { p with link := .attended, awaySince := none }).modVan
    fun v => { v with wake := .low }
  ((s1.put 0 (.back s.van.source s.van.wake s.store.total s.awayTime)).walkerWaits).linkReturns

/-- Back on a pending departure (R162, R165): it is dropped; a walker that has not yet written its order
Done waits after it. -/
def State.dropDeparture (s : State) : State :=
  let s1 := s.modLink fun p => { p with departure := none }
  (if s.lp.walker = .stopped then s1.walkerWaits
  else s1.modLink fun p => { p with waitsAfterDone := true }).linkReturns

/-- Back while the part is Running (R165). -/
def State.backRunning (s : State) : State :=
  match s.lp.link with
  | .away => s.linkBack
  | .attended => if s.lp.departure.isSome then s.dropDeparture else s
  | .idle => s
  | .halted => s

/-- Back while the part is Resting (R167): the first exit, or remembered during the wake delay. -/
def State.backResting (s : State) : State :=
  match s.van.rest with
  | some r =>
    match r.exit with
    | some e => s.modVan fun v => { v with rest := some { r with exit := some { e with backRemembered := true } } }
    | none => s.restExit .back
  | none => s

/-- Back as the part takes it (R165). -/
def State.back (s : State) : State :=
  match s.lp.part with
  | .running => s.backRunning
  | .resting => s.backResting
  | .selfTest => s
  | .broken => s

/-- BACK (R165). -/
def execBack (dt : Nat) (s : State) : Result := .next (s.elapse dt).back

/-! ## The end of the wake delay (R167) -/

/-- The rest record whose wake delay is over. -/
def State.wakeDue (s : State) : Option (RestRecord × RestExit) :=
  match s.lp.part, s.van.rest with
  | .resting, some r => (r.exit.filter fun e => s.passed e.at_.up Config.wakeDelayMs).map fun e => (r, e)
  | _, _ => none

/-- Steps 1 to 4 of R167. -/
def State.wakeUp (s : State) (r : RestRecord) (e : RestExit) : State :=
  let s1 := ((s.modLink fun p => { p with part := .running }).modVan fun v => { v with rest := none }).judgeLine
  let s2 := s1.put 0 (.woke s.van.source r.began.time e.at_.time)
  if e.source = .back ∨ e.backRemembered then s2.backRunning else s2

/-- WAKE_DELAY_END (R167). -/
def execWakeDelayEnd (dt : Nat) (s : State) : Result :=
  let t := s.elapse dt
  match t.wakeDue with
  | some (r, e) => .next (t.wakeUp r e)
  | none => .next t

end Sys2Proof.Machine
end

