-- ==== Sys2Proof/Machine/Link.lean ====
section
/-! DEFINITION. The Link Port (chapter 10): power-on and Reset, self-test, Start and Stop, the walker,
faults, and the register window. -/

namespace Sys2Proof.Machine

/-! ## Faults (R177) -/

/-- The Fault register is written (R172, R177). -/
def State.writeFault (s : State) (cause : FaultCause) (kind : AccessKind) (window offset : Nat) : State :=
  s.modLink fun p => { p with fault := ⟨cause, kind, window, offset⟩ }

/-- A fault of the running link (R177): the register, the accesses abandoned, Halted. -/
def State.linkFault (s : State) (cause : FaultCause) (a : Access) : State :=
  let s1 := s.writeFault cause a.kind a.window a.offset
  let s2 := { s1 with store := s1.store.abandonDeliveries }.modLink fun p =>
    { p with walker := .idle, departure := none, waitsAfterDone := false, link := .halted }
  s2.failRead.raise .linkHalted

/-- The access that the walker has in flight. -/
def WalkPhase.access : WalkPhase → Option Access
  | .readingLink a => some a
  | .readingOrder _ a => some a
  | .writingResult _ a => some a
  | .writingDone _ a => some a
  | .idle => none
  | .waiting _ => none
  | .offering _ => none
  | .stopped => none

/-- The access in flight that an error belongs to (R177). -/
def State.accessOf (s : State) : AccessSel → Option Access
  | .walker => s.lp.walker.access
  | .delivery st => (s.store.deliveries.get st).map (·.access)
  | .recordRead => s.print.read.map (·.access)

/-- An access of the running link in flight. -/
def State.linkAccessOf (s : State) (sel : AccessSel) : Option Access :=
  if s.lp.link = .attended then s.accessOf sel else none

/-- BUS_ERROR (R177). -/
def execBusError (dt : Nat) (sel : AccessSel) (s : State) : Result :=
  let t := s.elapse dt
  match t.linkAccessOf sel with
  | some a => .next (t.linkFault .busError a)
  | none => .next t

/-- ACCESS_TIMEOUT (R177): the access has been in flight for 50 ms. -/
def execAccessTimeout (dt : Nat) (sel : AccessSel) (s : State) : Result :=
  let t := s.elapse dt
  match t.linkAccessOf sel with
  | some a => if t.passed a.issued Config.accessTimeoutMs then .next (t.linkFault .accessTimeout a) else .next t
  | none => .next t

/-! ## Power-on, Reset and self-test (R170, R171) -/

/-- The printer's pins as they stand. -/
def PrintEngine.resetKeepingPins (p : PrintEngine) : PrintEngine :=
  { PrintEngine.reset with busy := p.busy, paperOut := p.paperOut, headHot := p.headHot, present := p.present }

/-- The raw levels of the van lines. -/
def VanLines.rawLevels (v : VanLines) : PerLine Level := PerLine.of fun l => (v.lines.get l).raw

/-- Every block at its Reset value but the clock, the input pins and the queue (R171). -/
def State.resetBlocks (s : State) (clock : Time) (up : Nat) : State :=
  { State.reset with
    pending := s.pending
    clock := clock
    up := up
    print := s.print.resetKeepingPins
    van := VanLines.reset s.van.rawLevels up }

/-- POWER_ON (R171): as Reset, and the survey clock at 0 with Clock Unset. -/
def execPowerOn (s : State) : Result := .next (s.resetBlocks Time.zero 0)

/-- The rest record that a Reset leaves for the Woke entry (R167, R171). -/
def State.restAtReset (s : State) : Option RestRecord :=
  match s.lp.part, s.van.rest with
  | .resting, some r => some { r with exit := some ⟨.reset, s.now, false⟩ }
  | .resting, none => none
  | .selfTest, _ => none
  | .running, _ => none
  | .broken, _ => none

/-- A Reset (R171); one that ends Rest sets the wake source to Reset (R164, R167). -/
def State.resetPart (s : State) : State :=
  (s.resetBlocks s.clock s.up).modVan fun v =>
    { v with rest := s.restAtReset, source := if s.restAtReset.isSome then .reset else .none }

/-- RESET (R171). -/
def execReset (dt : Nat) (s : State) : Result := .next (s.elapse dt).resetPart

/-- The self-test code of a failed step (R170). -/
def selfTestCode : SelfTestStep → Nat
  | .storeAddress => 11
  | .storePattern => 12
  | .storeClear => 13
  | .converter i => 21 + i.number
  | .ringPattern => 31
  | .ringClear => 32
  | .printerData => 41
  | .printerStrobe => 42

/-- The Woke entry of a Reset that ended Rest (R167). -/
def State.wokeAfterReset (s : State) : State :=
  match s.van.rest with
  | some r => (s.modVan fun v => { v with rest := none }).put 0
      (.woke s.van.source r.began.time ((r.exit.map (·.at_.time)).getD s.clock))
  | none => s

/-- Self-test passes (R170): the part is Running and the printer line is judged. -/
def State.testPasses (s : State) : State :=
  ((s.modLink fun p => { p with part := .running, selfTestCode := 0 }).judgeLine).wokeAfterReset

/-- Self-test fails (R170): the part is Broken, with the code of the step and no Woke entry (R167), and the
printer line is judged, since self-test is over (R149). -/
def State.testFails (s : State) (step : SelfTestStep) : State :=
  ((s.modLink fun p => { p with part := .broken, selfTestCode := selfTestCode step }).modVan fun v =>
    { v with rest := none }).judgeLine

/-- SELF_TEST_DONE (R170). -/
def execSelfTestDone (dt : Nat) (failed : Option SelfTestStep) (s : State) : Result :=
  let t := s.elapse dt
  if t.lp.part = .selfTest then
    match failed with
    | none => .next t.testPasses
    | some step => .next (t.testFails step)
  else .next t

/-! ## Start (R172) -/

/-- Start as the part takes it (R172): the anchor block is read, unless its address is not sound. -/
def State.start (s : State) : State :=
  if s.lp.part = .running ∧ s.lp.link = .idle then
    if s.lp.anchor.toNat % 4096 = 0 then
      s.modLink fun p => { p with anchorRead := some ⟨p.anchor.toNat, s.up⟩ }
    else (s.modLink fun p => { p with anchorRead := none }).writeFault .badAnchor .anchorRead 255 0
  else s

/-- START (R172). -/
def execStart (dt : Nat) (s : State) : Result := .next (s.elapse dt).start

/-- The signature of an anchor block (R180). -/
def anchorSignature : List Byte := ascii "PEKARO48"

/-- A window entry of the anchor (R180). -/
def parseWindow (b : List Byte) (n : Nat) : Window :=
  ⟨field b (64 + 16 * n) 8, field b (72 + 16 * n) 4, bit (field b (76 + 16 * n) 1) 0, bit (field b (76 + 16 * n) 1) 1⟩

/-- An entry of length 0 and no rights is absent (R180). -/
def Window.isAbsent (w : Window) : Bool := decide (w.length = 0) && !w.read && !w.write

/-- A window entry is sound (R172). -/
def Window.sound (w : Window) : Bool :=
  w.isAbsent || (decide (w.base % 4096 = 0 ∧ w.length % 4096 = 0 ∧ 0 < w.length) && (w.read || w.write))

/-- The window table of an anchor block (R172). -/
def parseWindows (b : List Byte) : Vector (Option Window) 16 :=
  Vector.ofFn fun n => if (parseWindow b n.val).isAbsent then none else some (parseWindow b n.val)

/-- The sweep period is 0 or from 10 to 1,000 ms (R172). -/
def sweepOk (n : Nat) : Bool := n == 0 || decide (10 ≤ n ∧ n ≤ 1000)

/-- The offset of the first field of an anchor block that is not sound (R172). -/
def badAnchorField (lp : LinkPort) (b : List Byte) : Option Nat :=
  if b.take 8 ≠ anchorSignature then some 0
  else match (List.range 16).find? fun n => !(parseWindow b n).sound with
    | some n => some (64 + 16 * n)
    | none =>
      if ¬ sweepOk (field b 8 2) then some 8
      else if ¬ { lp with windows := parseWindows b }.linkPasses (parseRef b 16) then some 16
      else none

/-- The access that reads the link of the walker's position (R176). -/
def State.linkRead (s : State) : Access :=
  match s.lp.position with
  | some (.order r) => ⟨.linkRead, r.window, r.offset + 8, [], s.up⟩
  | some .anchor => ⟨.linkRead, 255, 16, [], s.up⟩
  | none => ⟨.linkRead, 255, 16, [], s.up⟩

/-- The walker reads the link of its position (R176). -/
def State.readLink (s : State) : State := s.modLink fun p => { p with walker := .readingLink s.linkRead }

/-- Steps 1 to 5 of R172 for a sound block. -/
def State.attend (s : State) (address : Nat) (b : List Byte) : State :=
  let s1 := s.modLink fun p =>
    { p with
      windows := parseWindows b, sweep := field b 8 2, anchorBase := address
      fault := { p.fault with cause := .none }, position := some .anchor, link := .attended
      waitsAfterDone := false, anchorRead := none }
  { s1 with store := { s1.store with pageSequence := PerStream.same 0 } }.readLink

/-- The anchor is not sound, or its read failed: the link stays Idle (R172). -/
def State.refuseAnchor (s : State) (cause : FaultCause) (offset : Nat) : State :=
  (s.modLink fun p => { p with anchorRead := none }).writeFault cause .anchorRead 255 offset

/-- The anchor read completes or fails (R172); it is timed as one access, issued at the Start, which times out
after 50 ms (R177; log 58). -/
def State.anchorDone (s : State) (a : AnchorAccess) (r : AnchorRead) : State :=
  match r with
  | .busError o => s.refuseAnchor .busError o
  | .timeout o => if s.passed a.issued Config.accessTimeoutMs then s.refuseAnchor .accessTimeout o else s
  | .complete bytes =>
    match badAnchorField s.lp (fitTo 320 bytes) with
    | some o => s.refuseAnchor .badAnchor o
    | none => s.attend a.address (fitTo 320 bytes)

/-- ANCHOR_READ_DONE (R172). -/
def execAnchorReadDone (dt : Nat) (r : AnchorRead) (s : State) : Result :=
  let t := s.elapse dt
  match t.lp.anchorRead with
  | some a => .next (t.anchorDone a r)
  | none => .next t

/-! ## Stop (R173) -/

/-- The store forgets what belongs to the link (step 4 of R173). -/
def RecordStore.forgetPages (r : RecordStore) : RecordStore :=
  { r with pool := [], waiting := [], tails := PerStream.same none }

/-- The link's own state at a Stop (steps 2, 4 and 6 of R173). -/
def LinkPort.stop (p : LinkPort) : LinkPort :=
  { p with
    windows := Vector.replicate 16 none, position := none, walker := .idle, departure := none
    waitsAfterDone := false, awaySince := none, anchorRead := none, link := .idle }

/-- Stop as the part takes it (R173). -/
def State.stop (s : State) : State :=
  match s.lp.part with
  | .selfTest => s
  | .broken => s
  | .running | .resting =>
    let s1 := { s with store := s.store.abandonDeliveries }.stopPrinting
    let s2 := { s1 with store := s1.store.forgetPages }.modVan fun v => { v with wake := .low }
    s2.modLink LinkPort.stop

/-- STOP (R173). -/
def execStop (dt : Nat) (s : State) : Result := .next (s.elapse dt).stop

/-! ## The walker (R175, R176) -/

/-- The walker waits at a null link of a running link with no departure pending (R176). -/
def State.waitsSince (s : State) : Option Nat :=
  match s.lp.walker with
  | .waiting since => if s.linkOpen then some since else none
  | .idle | .readingLink _ | .readingOrder _ _ | .offering _ | .writingResult _ _ | .writingDone _ _
  | .stopped => none

/-- NUDGE (R176). -/
def execNudge (dt : Nat) (_value : BitVec 32) (s : State) : Result :=
  let t := s.elapse dt
  if t.waitsSince.isSome then .next t.readLink else .next t

/-- SWEEP_EXPIRY (R176): a sweep period of 0 means no sweep. -/
def execSweepExpiry (dt : Nat) (s : State) : Result :=
  let t := s.elapse dt
  match t.waitsSince with
  | some since => if t.lp.sweep ≠ 0 ∧ t.passed since t.lp.sweep then .next t.readLink else .next t
  | none => .next t

/-- The read of an order record is issued (R175). -/
def State.readOrder (s : State) (link : WRef) : State :=
  s.modLink fun p => { p with walker := .readingOrder link ⟨.orderRead, link.window, link.offset, [], s.up⟩ }

/-- A link has been read (R174 to R176). -/
def State.takeLink (s : State) (a : Access) (link : WRef) : State :=
  if link = WRef.null then s.walkerWaits
  else if s.lp.linkPasses link then s.readOrder link
  else s.linkFault .badLink a

/-- LINK_READ_DONE (R176). -/
def execLinkReadDone (dt : Nat) (link : WRef) (s : State) : Result :=
  let t := s.elapse dt
  match t.lp.walker with
  | .readingLink a => .next (t.takeLink a link)
  | _ => .next t

/-- An order is offered to its block (R175). -/
def State.offer (s : State) (r : WRef) (record : List Byte) (o : Order) : State :=
  s.modLink fun p => { p with walker := .offering ⟨r, (parseHeader (fitTo 64 record)).bodyLength, o⟩ }

/-- The walker takes the order that it has read (R175): its current order from now on. -/
def State.takeRecord (s : State) (r : WRef) (record : List Byte) : State :=
  let s1 := s.modLink fun p => { p with position := some (.order r) }
  if (parseHeader (fitTo 64 record)).isDone then s1.readLink
  else match orderOf s.lp r record with
    | some o => s1.offer r record o
    | none => s1.writeResult r 0 .badOrder []

/-- ORDER_READ_DONE (R175): the bytes of the record, header first. -/
def execOrderReadDone (dt : Nat) (bytes : List Byte) (s : State) : Result :=
  let t := s.elapse dt
  match t.lp.walker with
  | .readingOrder r _ => .next (t.takeRecord r bytes)
  | _ => .next t

/-- The Done write of an order is issued (R175). -/
def State.writeDone (s : State) (r : WRef) : State :=
  s.modLink fun p => { p with walker := .writingDone r ⟨.resultWrite, r.window, r.offset, [(6, [2])], s.up⟩ }

/-- RESULT_WRITE_DONE (R175). -/
def execResultWriteDone (dt : Nat) (s : State) : Result :=
  let t := s.elapse dt
  match t.lp.walker with
  | .writingResult r _ => .next (t.writeDone r)
  | _ => .next t

/-- What the walker does after a Done write (R175, R162): it stops while a departure is pending, waits
when Back has dropped one, and reads the order's link otherwise. -/
def State.afterDone (s : State) : State :=
  if s.lp.departure.isSome then s.modLink fun p => { p with walker := .stopped }
  else if s.lp.waitsAfterDone then (s.modLink fun p => { p with waitsAfterDone := false }).walkerWaits
  else s.readLink

/-- DONE_WRITE_DONE (R175). -/
def execDoneWriteDone (dt : Nat) (s : State) : Result :=
  let t := s.elapse dt
  match t.lp.walker with
  | .writingDone _ _ => .next (t.raise .orderDone).afterDone
  | _ => .next t

/-! ## Register writes (R169, R178) -/

/-- ATTENTION_WRITE (R178). -/
def execAttentionWrite (dt : Nat) (value : BitVec 32) (s : State) : Result :=
  .next ((s.elapse dt).clearAttention value)

/-- ATTENTION_MASK_WRITE (R178). -/
def execAttentionMaskWrite (dt : Nat) (value : BitVec 32) (s : State) : Result :=
  .next ((s.elapse dt).modLink fun p => { p with mask := value })

/-- A write to Control/Status (R169, 11.3): a command when exactly one of bits 0 to 3 is set. -/
def State.control (s : State) (value : BitVec 64) : State :=
  match value.toNat % 16 with
  | 1 => s.start
  | 2 => s.stop
  | 4 => s.back
  | 8 => s.resetPart
  | _ => s

/-- REGISTER_WRITE (R169). -/
def execRegisterWrite (dt : Nat) (r : PlainRegister) (value : BitVec 64) (s : State) : Result :=
  let t := s.elapse dt
  match r with
  | .anchor => .next (t.modLink fun p => { p with anchor := value })
  | .controlStatus => .next (t.control value)
  | .identity => .next t
  | .fault => .next t

/-! ## Register reads (R169, 11.3) -/

/-- Identity: the part code, and the revision in bits 16 to 23. -/
def identity : BitVec 32 := BitVec.ofNat 32 (18440 + 65536 * Config.revision.toNat)

/-- The live slot, or 8 (R1). -/
def State.liveSlotNumber (s : State) : Nat := (s.liveSlot.map (·.val)).getD 8

/-- The store occupancy in KiB, rounded up (R115). -/
def RecordStore.occupancyKiB (r : RecordStore) : Nat := (r.total + 1023) / 1024

/-- Control/Status, taken whole (R169, 11.3). -/
def State.controlStatus (s : State) : BitVec 64 :=
  BitVec.ofNat 64 (s.lp.part.number + 2 ^ 2 * s.lp.link.number + 2 ^ 4 * s.lp.selfTestCode
    + 2 ^ 12 * s.store.pool.length + 2 ^ 21 * s.store.occupancyKiB + 2 ^ 31 * s.liveSlotNumber
    + 2 ^ 35 * s.print.line.number + 2 ^ 38 * s.van.source.number)

/-- Fault (R177, 11.3). -/
def State.faultValue (s : State) : BitVec 64 :=
  BitVec.ofNat 64 (s.lp.fault.cause.number + 2 ^ 8 * s.lp.fault.kind.number + 2 ^ 16 * s.lp.fault.window
    + 2 ^ 32 * s.lp.fault.offset)

/-- Nudge reads 0 (R169). -/
def nudgeValue : BitVec 32 := 0

/-- The registers of the window (R169, 11.3). -/
inductive Register where
  | identity | controlStatus | anchor | nudge | attention | attentionMask | fault
  deriving DecidableEq, Repr

def Register.all : List Register :=
  [.identity, .controlStatus, .anchor, .nudge, .attention, .attentionMask, .fault]

/-- The offset of a register in the window (11.3). -/
def Register.offset : Register → Nat
  | .identity => 0 | .controlStatus => 8 | .anchor => 16 | .nudge => 24 | .attention => 28
  | .attentionMask => 32 | .fault => 40

/-- The size of a register in bytes (11.3). -/
def Register.size : Register → Nat
  | .identity | .nudge | .attention | .attentionMask => 4
  | .controlStatus | .anchor | .fault => 8

/-- The value a read of a register gives (R169, 11.3). -/
def State.registerValue (s : State) : Register → Nat
  | .identity => identity.toNat
  | .controlStatus => s.controlStatus.toNat
  | .anchor => s.lp.anchor.toNat
  | .nudge => nudgeValue.toNat
  | .attention => s.lp.attention.toNat
  | .attentionMask => s.lp.mask.toNat
  | .fault => s.faultValue.toNat

/-- The bytes that a read of the window gives at a register's offset, lowest byte first (11.1, 11.3); no
register stands at another offset. -/
def State.readRegister (s : State) (offset : Nat) : Option (List Byte) :=
  (Register.all.find? fun r => r.offset == offset).map fun r => le r.size (s.registerValue r)

end Sys2Proof.Machine
end

