-- ==== Sys2Proof/Machine/Dispatch.lean ====
section
/-! DEFINITION. One arm for each command of the table. -/

namespace Sys2Proof.Machine

def exec (i : Instr) (s : State) : Host.Outcome State Fault Refusal :=
  match i with
  | .powerOn => Sys2Proof.Machine.execPowerOn s
  | .reset dt => Sys2Proof.Machine.execReset dt s
  | .start dt => Sys2Proof.Machine.execStart dt s
  | .anchorReadDone dt r => Sys2Proof.Machine.execAnchorReadDone dt r s
  | .stop dt => Sys2Proof.Machine.execStop dt s
  | .back dt => Sys2Proof.Machine.execBack dt s
  | .nudge dt value => Sys2Proof.Machine.execNudge dt value s
  | .attentionWrite dt value => Sys2Proof.Machine.execAttentionWrite dt value s
  | .attentionMaskWrite dt value => Sys2Proof.Machine.execAttentionMaskWrite dt value s
  | .registerWrite dt r value => Sys2Proof.Machine.execRegisterWrite dt r value s
  | .selfTestDone dt failed => Sys2Proof.Machine.execSelfTestDone dt failed s
  | .sweepExpiry dt => Sys2Proof.Machine.execSweepExpiry dt s
  | .linkReadDone dt link => Sys2Proof.Machine.execLinkReadDone dt link s
  | .orderReadDone dt bytes => Sys2Proof.Machine.execOrderReadDone dt bytes s
  | .resultWriteDone dt => Sys2Proof.Machine.execResultWriteDone dt s
  | .doneWriteDone dt => Sys2Proof.Machine.execDoneWriteDone dt s
  | .busError dt access => Sys2Proof.Machine.execBusError dt access s
  | .accessTimeout dt access => Sys2Proof.Machine.execAccessTimeout dt access s
  | .createSite b => Sys2Proof.Machine.execCreateSite b s
  | .setMap b => Sys2Proof.Machine.execSetMap b s
  | .setLimits b => Sys2Proof.Machine.execSetLimits b s
  | .startSurvey label unchecked sense => Sys2Proof.Machine.execStartSurvey label unchecked sense s
  | .pauseSurvey label => Sys2Proof.Machine.execPauseSurvey label s
  | .resumeSurvey label => Sys2Proof.Machine.execResumeSurvey label s
  | .closeSite label => Sys2Proof.Machine.execCloseSite label s
  | .discardSite label => Sys2Proof.Machine.execDiscardSite label s
  | .readSite label resultLength => Sys2Proof.Machine.execReadSite label resultLength s
  | .startCheck label sense => Sys2Proof.Machine.execStartCheck label sense s
  | .cancelCheck label => Sys2Proof.Machine.execCancelCheck label s
  | .setClock seconds milliseconds => Sys2Proof.Machine.execSetClock seconds milliseconds s
  | .snapshot label => Sys2Proof.Machine.execSnapshot label s
  | .addNote b => Sys2Proof.Machine.execAddNote b s
  | .givePages count pages resultLength => Sys2Proof.Machine.execGivePages count pages resultLength s
  | .flushStreams mask resultLength => Sys2Proof.Machine.execFlushStreams mask resultLength s
  | .setStoreLevels levels resultLength => Sys2Proof.Machine.execSetStoreLevels levels resultLength s
  | .queuePrint b resultLength => Sys2Proof.Machine.execQueuePrint b resultLength s
  | .cancelPrint job => Sys2Proof.Machine.execCancelPrint job s
  | .readPrintQueue resultLength => Sys2Proof.Machine.execReadPrintQueue resultLength s
  | .setPrinter timeout => Sys2Proof.Machine.execSetPrinter timeout s
  | .setVanLines lines resultLength => Sys2Proof.Machine.execSetVanLines lines resultLength s
  | .away => Sys2Proof.Machine.execAway s
  | .rest => Sys2Proof.Machine.execRest s
  | .linkBecomesAway => Sys2Proof.Machine.execLinkBecomesAway s
  | .cycleEnd dt => Sys2Proof.Machine.execCycleEnd dt s
  | .zeroCrossing dt ns => Sys2Proof.Machine.execZeroCrossing dt ns s
  | .lockAcquired => Sys2Proof.Machine.execLockAcquired s
  | .halfCycleEnd dt samples => Sys2Proof.Machine.execHalfCycleEnd dt samples s
  | .blockEnd dt phases neutral => Sys2Proof.Machine.execBlockEnd dt phases neutral s
  | .clockWrap => Sys2Proof.Machine.execClockWrap s
  | .presencePhaseEnd => Sys2Proof.Machine.execPresencePhaseEnd s
  | .rotationFound => Sys2Proof.Machine.execRotationFound s
  | .associationComplete => Sys2Proof.Machine.execAssociationComplete s
  | .lockWaitExpiry => Sys2Proof.Machine.execLockWaitExpiry s
  | .leadsMoved => Sys2Proof.Machine.execLeadsMoved s
  | .leadLost dt input ahead => Sys2Proof.Machine.execLeadLost dt input ahead s
  | .leadRestored input => Sys2Proof.Machine.execLeadRestored input s
  | .settleDone input => Sys2Proof.Machine.execSettleDone input s
  | .eventLong => Sys2Proof.Machine.execEventLong s
  | .captureComplete => Sys2Proof.Machine.execCaptureComplete s
  | .eventRecordHandedOn label => Sys2Proof.Machine.execEventRecordHandedOn label s
  | .holdTimeExpiry dt stream => Sys2Proof.Machine.execHoldTimeExpiry dt stream s
  | .deliveryStart stream => Sys2Proof.Machine.execDeliveryStart stream s
  | .pageWriteDone dt stream => Sys2Proof.Machine.execPageWriteDone dt stream s
  | .pageLinkWriteDone dt stream => Sys2Proof.Machine.execPageLinkWriteDone dt stream s
  | .printJobStart => Sys2Proof.Machine.execPrintJobStart s
  | .recordReadDone dt bytes => Sys2Proof.Machine.execRecordReadDone dt bytes s
  | .busyRise dt => Sys2Proof.Machine.execBusyRise dt s
  | .busyFall dt => Sys2Proof.Machine.execBusyFall dt s
  | .paperOutChange dt active => Sys2Proof.Machine.execPaperOutChange dt active s
  | .headHotChange dt active => Sys2Proof.Machine.execHeadHotChange dt active s
  | .presentChange dt active => Sys2Proof.Machine.execPresentChange dt active s
  | .printerHoldCleared dt => Sys2Proof.Machine.execPrinterHoldCleared dt s
  | .printerStall dt => Sys2Proof.Machine.execPrinterStall dt s
  | .stallClear dt => Sys2Proof.Machine.execStallClear dt s
  | .vanLineChange dt line level => Sys2Proof.Machine.execVanLineChange dt line level s
  | .lineDebounced dt line => Sys2Proof.Machine.execLineDebounced dt line s
  | .wakeDelayEnd dt => Sys2Proof.Machine.execWakeDelayEnd dt s

end Sys2Proof.Machine
end

