-- ==== Sys2Proof/Safety.lean ====
section
/-! DEFINITION. What is asked of a state and of a step: the properties that hold in every state the part
can reach, and the words in which statements about one command are made. -/

namespace Sys2Proof.Machine

/-! ## Properties of a state -/

/-- The survey clock reads a legal time (R34). -/
abbrev ClockLegal (s : State) : Prop := s.clock.sec ≤ 4294967295 ∧ s.clock.ms ≤ 999

/-- The states of the part and of the link fit each other (R162, R166, R170, R172, R173): a link other
than Idle needs a Running part or, Away, a Resting one; a pending departure needs an Attended link; the
anchor is read only by a Running part with an Idle link; the walker works only on an Attended link. -/
abbrev LinkFitsPart (s : State) : Prop :=
  (s.lp.part = .selfTest ∨ s.lp.part = .broken → s.lp.link = .idle)
    ∧ (s.lp.part = .resting → s.lp.link = .away ∨ s.lp.link = .idle)
    ∧ (s.lp.departure.isSome → s.lp.link = .attended)
    ∧ (s.lp.anchorRead.isSome → s.lp.part = .running ∧ s.lp.link = .idle)
    ∧ (s.lp.link = .attended ∨ s.lp.walker = .idle ∨ s.lp.walker = .stopped)

/-- The record store keeps its caps (R115). -/
abbrev StoreWithinCaps (s : State) : Prop :=
  s.store.nonJournalOccupancy ≤ 491520 ∧ s.store.total ≤ 524288

/-- The free pool, the waiting list, the pin table and the print queue keep their largest numbers (R124,
R127, R136). -/
abbrev TablesWithinBounds (s : State) : Prop :=
  s.store.pool.length ≤ 256 ∧ s.store.waiting.length ≤ 64 ∧ s.store.pins.length ≤ 64
    ∧ s.print.jobs.length ≤ 8

/-- No two slots hold one label, at most one site is live, and a check record names a Checking site (R1,
R5, R38). -/
def SiteTableSound (s : State) : Prop :=
  (∀ j k : Fin 8, ∀ x y : Site, s.site j = some x → s.site k = some y →
    x.label = y.label ∨ (x.state.isLive = true ∧ y.state.isLive = true) → j = k)
  ∧ ∀ c : CheckRecord, s.check = some c → ∃ x : Site, s.site c.slot = some x ∧ x.state = .checking

/-! ## Words of the statements -/

/-- The walker offers an order to its block on an Attended link (R175). -/
abbrev Offers (s : State) (f : Offer) : Prop := s.lp.link = .attended ∧ s.lp.walker = .offering f

/-- The command `c` takes the order `o`: whatever record the walker offers it from, the command answers
the state `u` with the order's result being written, a code and a result area (R175). -/
def Takes (c : Instr) (o : Order) (s u : State) (code : ResultCode) (area : List Byte) : Prop :=
  ∀ f : Offer, Offers s f → f.order = o →
    exec c s = .next (u.writeResult f.at_ f.bodyLength code area)

/-- The order that a command of the table carries, for the commands that are orders (11.4). -/
def orderOfCommand : Instr → Option Order
  | .createSite b => some (.createSite b)
  | .setMap b => some (.setMap b)
  | .setLimits b => some (.setLimits b)
  | .startSurvey label unchecked _ => some (.startSurvey label unchecked)
  | .pauseSurvey label => some (.pauseSurvey label)
  | .resumeSurvey label => some (.resumeSurvey label)
  | .closeSite label => some (.closeSite label)
  | .discardSite label => some (.discardSite label)
  | .readSite label result => some (.readSite label result)
  | .startCheck label _ => some (.startCheck label)
  | .cancelCheck label => some (.cancelCheck label)
  | .setClock sec ms => some (.setClock sec ms)
  | .snapshot label => some (.snapshot label)
  | .addNote b => some (.addNote b)
  | .givePages count pages result => some (.givePages count pages result)
  | .flushStreams mask result => some (.flushStreams mask result)
  | .setStoreLevels levels result => some (.setStoreLevels levels result)
  | .queuePrint b result => some (.queuePrint b result)
  | .cancelPrint job => some (.cancelPrint job)
  | .readPrintQueue result => some (.readPrintQueue result)
  | .setPrinter timeout => some (.setPrinter timeout)
  | .setVanLines lines result => some (.setVanLines lines result)
  | .away => some .away
  | .rest => some .rest
  | _ => none

/-- The site with a label in its range stands in a slot. -/
abbrev Holds (s : State) (label : Nat) (k : Fin 8) (x : Site) : Prop :=
  labelOk label = true ∧ s.findSlot label = some k ∧ s.site k = some x

/-- The live site and its slot. -/
abbrev Live (s : State) (k : Fin 8) (x : Site) : Prop := s.liveSlot = some k ∧ s.site k = some x

/-- The blocks that measure, keep records and print are the same in two states. -/
abbrev SameWork (s t : State) : Prop :=
  t.sites = s.sites ∧ t.fe = s.fe ∧ t.check = s.check ∧ t.watch = s.watch ∧ t.sag = s.sag
    ∧ t.interval = s.interval ∧ t.device = s.device ∧ t.store = s.store ∧ t.print = s.print

/-- The Link Port is the same in two states but for latched attention bits. -/
abbrev SameLink (s t : State) : Prop :=
  { t.lp with attention := 0 } = { s.lp with attention := 0 }

/-- The queue of commands, the running milliseconds and the survey clock are the same in two states. -/
abbrev SameTime (s t : State) : Prop :=
  t.pending = s.pending ∧ t.up = s.up ∧ t.clock = s.clock

/-- The blocks that measure are the same in two states. -/
abbrev SameMeasuring (s t : State) : Prop :=
  t.fe = s.fe ∧ t.check = s.check ∧ t.watch = s.watch ∧ t.sag = s.sag ∧ t.interval = s.interval

/-- What only the orders of the Site Controller and the ends of a check change in a site record. -/
structure SiteCore where
  label : Nat
  state : SiteState
  nominalVoltage : Nat
  frequency : Nat
  wiring : Wiring
  options : SiteOptions
  checkStatus : CheckStatus
  unusable : Option UnusableReason
  returnState : Option ReturnState
  created : Time
  started : Option Time
  closed : Option Time
  deriving DecidableEq, Repr

def Site.core (x : Site) : SiteCore :=
  ⟨x.label, x.state, x.nominalVoltage, x.frequency, x.wiring, x.options, x.checkStatus, x.unusable,
    x.returnState, x.created, x.started, x.closed⟩

/-- Every slot holds the same core of a site record in two states. -/
abbrev SameSites (s t : State) : Prop := ∀ k : Fin 8, (t.site k).map Site.core = (s.site k).map Site.core

/-- Every slot but one does. -/
abbrev SameOtherSites (s t : State) (k : Fin 8) : Prop :=
  ∀ j : Fin 8, j ≠ k → (t.site j).map Site.core = (s.site j).map Site.core

/-- The half-cycles that a block contains, both counted from 1 (R89). -/
abbrev InBlock (b : BlockResult) (half : Nat) : Prop :=
  2 * b.cycles * (b.number - 1) < half ∧ half ≤ 2 * b.cycles * (b.number - 1) + 2 * b.cycles

/-- What a change at the printer leaves alone after `dt` milliseconds: everything but the Print Engine and
what the end of its job reaches (R154). -/
abbrev PrinterFrame (s t : State) (dt : Nat) : Prop :=
  SameSites s t ∧ SameLink s t ∧ SameMeasuring s t ∧ t.pending = s.pending ∧ t.up = s.up + dt
    ∧ t.clock = s.clock.advance dt

/-- Only the Print Engine differs from the state after `dt` milliseconds. -/
abbrev OnlyPrinter (s t : State) (dt : Nat) : Prop := { t with print := s.print } = s.elapse dt

/-- Where the walker reads the link of a position (R176). -/
def linkPlace (up : Nat) : Option WalkPosition → Access
  | some (.order r) => ⟨.linkRead, r.window, r.offset + 8, [], up⟩
  | _ => ⟨.linkRead, 255, 16, [], up⟩

/-- The part at a fault of the running link, before the job of a record read in flight ends and Attention Link
Halted is raised: the Fault register, the link Halted, no access in flight, the records of the deliveries queued
again, and a pending departure dropped (R177, R132). -/
def haltedLink (s : State) (dt : Nat) (f : FaultRegister) : State :=
  { s.elapse dt with
    lp := { s.lp with fault := f, walker := .idle, departure := none, waitsAfterDone := false, link := .halted }
    store := { s.store with
      deliveries := PerStream.same none
      queues := s.store.queues.map fun q => q.map fun x => { x with inDelivery := false } }
    print := { s.print with read := none } }

/-- What a fault of the running link leaves (R177): the Fault register, the link Halted with Attention Link
Halted, every access in flight abandoned and a pending departure dropped. The job of a record read in flight ends
Failed (Link Fault), or Cancelled (Order) with its cancel pending, whichever access has faulted (R143, R155, R156;
log 18); without a read in flight no job ends. -/
def HaltedBy (s t : State) (dt : Nat) (f : FaultRegister) : Prop :=
  t.lp.fault = f ∧ t.lp.link = .halted ∧ t.lp.walker = .idle ∧ t.lp.departure = none
    ∧ t.attends .linkHalted = true ∧ t.lp.windows = s.lp.windows ∧ t.lp.position = s.lp.position
    ∧ t.lp.part = s.lp.part ∧ t.lp.mask = s.lp.mask ∧ t.lp.anchor = s.lp.anchor
    ∧ t.store.deliveries = PerStream.same none
    ∧ t.store.tails = s.store.tails ∧ (s.print.current.isSome = true → t.print.read = none)
    ∧ SameSites s t ∧ t.fe = s.fe ∧ t.check = s.check ∧ t.watch = s.watch ∧ t.sag = s.sag
    ∧ t.interval = s.interval ∧ t.up = s.up + dt ∧ t.clock = s.clock.advance dt
    ∧ (s.print.read = none → t = (haltedLink s dt f).raise .linkHalted)
    ∧ ∀ r j, s.print.read = some r → s.print.current = some j →
        t = ((haltedLink s dt f).endJob j (if j.cancelPending then .cancelledOrder else .failedLink)
          (j.copy - 1)).raise .linkHalted

/-- A check has ended before a verdict that gives Ready (R50): the site in a slot returns to its return state
with a status and a reason, no entry is verified, and Attention Check is raised; a site that leaves the live
states stops lead watch and the Front End. -/
def CheckBroken (s t : State) (k : Fin 8) (x : Site) (status : CheckStatus) (reason : Option UnusableReason) :
    Prop :=
  t.check = none ∧ t.attends .check = true
    ∧ (t.site k).map Site.core = some { x.core with
        state := if x.returnState = some .paused then .paused else .drafted
        checkStatus := status, unusable := reason, returnState := none }
    ∧ (∀ y i, t.site k = some y → (y.map.get i).verified = false ∧ (y.map.get i).role = (x.map.get i).role)
    ∧ (x.returnState ≠ some .paused → t.fe = FrontEnd.reset ∧ t.watch = PerInput.same none)
    ∧ (x.returnState = some .paused → t.fe = s.fe)
    ∧ SameOtherSites s t k ∧ SameTime s t ∧ SameLink s t ∧ t.sag = s.sag ∧ t.interval = s.interval
    ∧ t.print = s.print

end Sys2Proof.Machine
end

