-- ==== Sys2Proof/Certificates/Slice0/Obligations.lean ====
section
/-! DEFINITION. The statements about the model. Those about an order speak of the order as the walker
offers it (`Takes`); those about the other commands name the state the command answers. -/

open Sys2Proof Sys2Proof.Machine

/-! ## Steps, time and the queue -/

/-- A step takes the command at the front of the queue; an empty queue idles (the model's choice, log 2). -/
def Obligations.StepRunsTheFrontCommand : Prop :=
  (∀ (c : Instr) (q : List Instr) (s : State), s.pending = c :: q → step s = exec c (s.withPending q))
    ∧ ∀ s : State, s.pending = [] → step s = .next s

/-- The survey clock counts milliseconds into seconds, and CLOCK_WRAP brings it to 0 with Clock Unset set
(R34). -/
def Obligations.TheClockCountsAndWraps : Prop :=
  (∀ (t : Time) (dt : Nat), t.ms ≤ 999 → t.total + dt < 4294967296000 →
      (t.advance dt).total = t.total + dt ∧ (t.advance dt).ms ≤ 999 ∧ (t.advance dt).unset = t.unset)
    ∧ ∀ s : State, ClockLegal s → exec .clockWrap s = .next { s with
        up := s.up + (4294967296000 - s.clock.total), clock := ⟨0, 0, true⟩ }

/-! ## Invariants that every step keeps -/

def Obligations.TheClockStaysLegal : Prop :=
  ∀ s t : State, ClockLegal s → step s = .next t → ClockLegal t

def Obligations.TheLinkStaysFit : Prop :=
  ∀ s t : State, LinkFitsPart s → step s = .next t → LinkFitsPart t

def Obligations.TheStoreKeepsItsCaps : Prop :=
  ∀ s t : State, StoreWithinCaps s → step s = .next t → StoreWithinCaps t

def Obligations.TheTablesKeepTheirBounds : Prop :=
  ∀ s t : State, TablesWithinBounds s → step s = .next t → TablesWithinBounds t

def Obligations.TheSiteTableStaysSound : Prop :=
  ∀ s t : State, SiteTableSound s → step s = .next t → SiteTableSound t

def Obligations.TheInvariantsHoldAtReset : Prop :=
  ClockLegal State.reset ∧ LinkFitsPart State.reset ∧ StoreWithinCaps State.reset
    ∧ TablesWithinBounds State.reset ∧ SiteTableSound State.reset

/-! ## Power-on, Reset, self-test and the registers -/

/-- POWER_ON gives every block its reset value; the input pins stay as their drivers hold them (the model's
choice, log 10), a van line shows its raw level as the debounced one (log 22), and the time begins again.
RESET does the same but keeps the survey clock (R171); one that ends Rest, also in the wake delay (log 34),
sets the wake source to Reset and leaves what its Woke entry needs (R164, R167). -/
def Obligations.PowerOnAndResetRestoreEveryBlock : Prop :=
  (∀ s : State, exec .powerOn s = .next { State.reset with
    pending := s.pending
    print := { PrintEngine.reset with
      busy := s.print.busy, paperOut := s.print.paperOut, headHot := s.print.headHot
      present := s.print.present }
    van := VanLines.reset ⟨s.van.lines.ignition.raw, s.van.lines.mark.raw, s.van.lines.door.raw,
      s.van.lines.aux.raw⟩ 0 })
  ∧ (∀ (dt : Nat) (s : State), ∃ t, exec (.reset dt) s = .next t
    ∧ { t with van := State.reset.van } = { State.reset with
        pending := s.pending, up := s.up + dt, clock := s.clock.advance dt
        print := { PrintEngine.reset with
          busy := s.print.busy, paperOut := s.print.paperOut, headHot := s.print.headHot
          present := s.print.present } }
    ∧ t.van.lines = ⟨⟨.rising, .journal, s.van.lines.ignition.raw, none, s.van.lines.ignition.raw, some (s.up + dt)⟩,
        ⟨.falling, .journal, s.van.lines.mark.raw, none, s.van.lines.mark.raw, some (s.up + dt)⟩,
        ⟨.both, .journal, s.van.lines.door.raw, none, s.van.lines.door.raw, some (s.up + dt)⟩,
        ⟨.none, .none, s.van.lines.aux.raw, none, s.van.lines.aux.raw, some (s.up + dt)⟩⟩
    ∧ t.van.nextMark = 1 ∧ t.van.wake = .low
    ∧ (s.lp.part ≠ .resting → t.van.source = .none ∧ t.van.rest = none)
    ∧ ∀ r, s.lp.part = .resting → s.van.rest = some r → t.van.source = .reset
        ∧ t.van.rest = some ⟨r.began, some ⟨.reset, ⟨s.clock.advance dt, s.up + dt⟩, false⟩⟩)

/-- SELF_TEST_DONE ends Self-Test in Running, or in Broken with the code of the step that failed (R170), in both
with the printer line judged (R149), and in Running puts the Woke entry of a Reset that ended Rest (R167). -/
def Obligations.SelfTestEndsRunningOrBroken : Prop :=
  ∀ (dt : Nat) (s : State), s.lp.part = .selfTest →
    (s.print.jobs = [] → s.van.rest = none → exec (.selfTestDone dt none) s = .next { s.elapse dt with
      lp := { s.lp with part := .running, selfTestCode := 0 }
      print := PrintEngine.setLine { s.print with judged := true, paperHold := none, heatHold := none } })
    ∧ (∀ r e, s.print.jobs = [] → s.van.rest = some r → r.exit = some e →
        exec (.selfTestDone dt none) s = .next (State.put { s.elapse dt with
          lp := { s.lp with part := .running, selfTestCode := 0 }
          print := PrintEngine.setLine { s.print with judged := true, paperHold := none, heatHold := none }
          van := { s.van with rest := none } } 0 (.woke s.van.source r.began.time e.at_.time)))
    ∧ (∃ t, exec (.selfTestDone dt none) s = .next t ∧ t.lp.part = .running ∧ t.lp.selfTestCode = 0
        ∧ t.print.judged = true ∧ t.van.rest = none)
    ∧ (∀ step, s.print.jobs = [] → exec (.selfTestDone dt (some step)) s = .next { s.elapse dt with
        lp := { s.lp with part := .broken, selfTestCode := selfTestCode step }
        print := PrintEngine.setLine { s.print with judged := true, paperHold := none, heatHold := none }
        van := { s.van with rest := none } })
    ∧ (∀ step, ∃ t, exec (.selfTestDone dt (some step)) s = .next t ∧ t.lp.part = .broken
        ∧ t.lp.selfTestCode = selfTestCode step ∧ t.print.judged = true ∧ t.van.rest = none)
    ∧ ([SelfTestStep.storeAddress, .storePattern, .storeClear, .ringPattern, .ringClear, .printerData,
        .printerStrobe].map selfTestCode = [11, 12, 13, 31, 32, 41, 42])
    ∧ Input.all.map (fun i => selfTestCode (.converter i)) = [21, 22, 23, 24, 25, 26, 27, 28]

/-- A write to Attention clears the bits written as 1, a write to Attention Mask replaces it, and the interrupt
request is asserted while a bit is set in both; a write to Anchor takes the value, writes to Identity and
Fault are ignored, and a write to Control/Status is a command when it holds exactly one (R169, R178). -/
def Obligations.RegisterWritesActByTheirRegister : Prop :=
  (∀ (dt : Nat) (v : BitVec 32) (s : State),
    (exec (.attentionWrite dt v) s = .next { s.elapse dt with
      lp := { s.lp with attention := s.lp.attention &&& ~~~v } })
    ∧ (exec (.attentionMaskWrite dt v) s = .next { s.elapse dt with lp := { s.lp with mask := v } })
    ∧ (s.interrupt = true ↔ ∃ k, s.lp.attention.getLsbD k = true ∧ s.lp.mask.getLsbD k = true)
    ∧ ∀ b : AttentionBit, (s.raise b).attends b = true ∧ ∀ c : AttentionBit, c ≠ b →
        (s.raise b).attends c = s.attends c)
  ∧ (∀ (dt : Nat) (v : BitVec 64) (s : State),
    exec (.registerWrite dt .anchor v) s = .next { s.elapse dt with lp := { s.lp with anchor := v } }
    ∧ exec (.registerWrite dt .identity v) s = .next (s.elapse dt)
    ∧ exec (.registerWrite dt .fault v) s = .next (s.elapse dt)
    ∧ (v.toNat % 16 = 1 → exec (.registerWrite dt .controlStatus v) s = exec (.start dt) s)
    ∧ (v.toNat % 16 = 2 → exec (.registerWrite dt .controlStatus v) s = exec (.stop dt) s)
    ∧ (v.toNat % 16 = 4 → exec (.registerWrite dt .controlStatus v) s = exec (.back dt) s)
    ∧ (v.toNat % 16 = 8 → exec (.registerWrite dt .controlStatus v) s = exec (.reset dt) s)
    ∧ (v.toNat % 16 ∉ [1, 2, 4, 8] → exec (.registerWrite dt .controlStatus v) s = .next (s.elapse dt)))

/-- Control/Status and Fault read the fields of 11.3 in their places, and the window holds seven registers at
the offsets and with the sizes of 11.3; a read gives the register's value, lowest byte first (R169). -/
def Obligations.StatusRegistersReadTheirFields : Prop :=
  (∀ s : State, TablesWithinBounds s → StoreWithinCaps s → s.lp.selfTestCode < 256 →
    s.lp.fault.window < 256 → s.lp.fault.offset < 4294967296 →
    s.controlStatus.toNat % 4 = s.lp.part.number ∧ s.controlStatus.toNat / 2 ^ 2 % 4 = s.lp.link.number
    ∧ s.controlStatus.toNat / 2 ^ 4 % 256 = s.lp.selfTestCode
    ∧ s.controlStatus.toNat / 2 ^ 12 % 512 = s.store.pool.length
    ∧ s.controlStatus.toNat / 2 ^ 21 % 1024 = s.store.occupancyKiB
    ∧ s.controlStatus.toNat / 2 ^ 31 % 16 = s.liveSlotNumber
    ∧ s.controlStatus.toNat / 2 ^ 35 % 8 = s.print.line.number
    ∧ s.controlStatus.toNat / 2 ^ 38 % 16 = s.van.source.number
    ∧ s.faultValue.toNat % 256 = s.lp.fault.cause.number ∧ s.faultValue.toNat / 2 ^ 8 % 256 = s.lp.fault.kind.number
    ∧ s.faultValue.toNat / 2 ^ 16 % 256 = s.lp.fault.window ∧ s.faultValue.toNat / 2 ^ 32 = s.lp.fault.offset
    ∧ identity.toNat % 65536 = 18440)
  ∧ Register.all.map (fun r => (r.offset, r.size))
    = [(0, 4), (8, 8), (16, 8), (24, 4), (28, 4), (32, 4), (40, 8)]
  ∧ ∀ s : State, (∀ r : Register, s.readRegister r.offset = some (le r.size (s.registerValue r)))
    ∧ (∀ n, n ∉ [0, 8, 16, 24, 28, 32, 40] → s.readRegister n = none)
    ∧ Register.all.map s.registerValue = [identity.toNat, s.controlStatus.toNat, s.lp.anchor.toNat, 0,
        s.lp.attention.toNat, s.lp.mask.toNat, s.faultValue.toNat]

/-! ## Start, Stop and Back -/

/-- START begins the read of the anchor block when the part is Running and the link Idle, also while an
earlier read of it is in flight (log 11), refuses an address that is no multiple of 4,096, naming offset 0
(log 8), and is ignored in every other state. ANCHOR_READ_DONE: a sound block starts the
link (steps 1 to 5 of R172); a block that is not sound or a read that failed leaves it Idle with the Fault
register written (R172). By the model's choice the whole read is timed as one access issued at the Start
(log 58; R177). -/
def Obligations.StartReadsTheAnchorAndStartsTheLink : Prop :=
  (∀ (dt : Nat) (s : State),
    (s.lp.part = .running → s.lp.link = .idle → s.lp.anchor.toNat % 4096 = 0 →
      exec (.start dt) s = .next { s.elapse dt with
        lp := { s.lp with anchorRead := some ⟨s.lp.anchor.toNat, s.up + dt⟩ } })
    ∧ (s.lp.part = .running → s.lp.link = .idle → s.lp.anchor.toNat % 4096 ≠ 0 →
      exec (.start dt) s = .next { s.elapse dt with
        lp := { s.lp with anchorRead := none, fault := ⟨.badAnchor, .anchorRead, 255, 0⟩ } })
    ∧ (s.lp.part ≠ .running ∨ s.lp.link ≠ .idle → exec (.start dt) s = .next (s.elapse dt)))
  ∧ (∀ (dt : Nat) (s : State) (a : AnchorAccess) (b : List Byte), s.lp.anchorRead = some a → b.length = 320 →
    (badAnchorField s.lp b = none → exec (.anchorReadDone dt (.complete b)) s = .next { s.elapse dt with
      lp := { s.lp with
        windows := parseWindows b, sweep := field b 8 2, anchorBase := a.address
        fault := { s.lp.fault with cause := .none }, position := some .anchor, link := .attended
        walker := .readingLink ⟨.linkRead, 255, 16, [], s.up + dt⟩, waitsAfterDone := false
        anchorRead := none }
      store := { s.store with pageSequence := PerStream.same 0 } })
    ∧ (∀ o, badAnchorField s.lp b = some o → exec (.anchorReadDone dt (.complete b)) s = .next { s.elapse dt with
        lp := { s.lp with anchorRead := none, fault := ⟨.badAnchor, .anchorRead, 255, o⟩ } })
    ∧ (∀ o, exec (.anchorReadDone dt (.busError o)) s = .next { s.elapse dt with
        lp := { s.lp with anchorRead := none, fault := ⟨.busError, .anchorRead, 255, o⟩ } })
    ∧ (∀ o, a.issued + 50 ≤ s.up + dt → exec (.anchorReadDone dt (.timeout o)) s = .next { s.elapse dt with
        lp := { s.lp with anchorRead := none, fault := ⟨.accessTimeout, .anchorRead, 255, o⟩ } })
    ∧ (badAnchorField s.lp b = none ↔ b.take 8 = ascii "PEKARO48"
        ∧ (∀ n, n < 16 → (parseWindow b n).isAbsent = true ∨ ((parseWindow b n).base % 4096 = 0
            ∧ (parseWindow b n).length % 4096 = 0 ∧ 0 < (parseWindow b n).length
            ∧ ((parseWindow b n).read = true ∨ (parseWindow b n).write = true)))
        ∧ (field b 8 2 = 0 ∨ (10 ≤ field b 8 2 ∧ field b 8 2 ≤ 1000))
        ∧ { s.lp with windows := parseWindows b }.linkPasses (parseRef b 16) = true))

/-- STOP abandons every access in flight, with the records of the deliveries queued again, ends every job
Cancelled (Link Stopped), in queue order, each by the steps of R154, drops what belongs to the link, lowers WAKE
and makes the link Idle, in this order, in every link state of a Running or Resting part; it is ignored in
Self-Test and Broken (R132, R143, R156, R173). So every page pin and site pin of a job is released, and Attention
Print is raised where there is a job. A job whose cancel is pending ends Link Stopped too (log 51). -/
def Obligations.StopEndsTheLink : Prop :=
  ∀ (dt : Nat) (s : State),
    (∀ u w : State, s.lp.part = .running ∨ s.lp.part = .resting →
      u = { s.elapse dt with
        store := { s.store with
          deliveries := PerStream.same none
          queues := s.store.queues.map fun q => q.map fun x => { x with inDelivery := false } }
        print := { s.print with
          read := none, frame := s.print.frame.map fun f => ⟨f.bytes.take 1, f.timer, true⟩ } } →
      w = s.print.jobs.foldl (fun t j => t.endJob j .cancelledStop (j.copy - 1)) u →
      exec (.stop dt) s = .next { w with
          store := { w.store with pool := [], waiting := [], tails := PerStream.same none }
          van := { w.van with wake := .low }
          lp := { w.lp with
            windows := Vector.replicate 16 none, position := none, walker := .idle, departure := none
            waitsAfterDone := false, awaySince := none, anchorRead := none, link := .idle } }
      ∧ w.store.pins = s.print.jobs.foldl (fun pins j => j.pages.foldl dropPin pins) s.store.pins
      ∧ (∀ k x, s.site k = some x → s.findSlot x.label = some k → ∃ y, w.site k = some y
          ∧ y.pins = s.print.jobs.foldl (fun n j => n - j.sites.count x.label) x.pins)
      ∧ (∀ st q, q ∈ w.store.queues.get st → q.inDelivery = false)
      ∧ (s.print.jobs ≠ [] → w.attends .print = true))
    ∧ (s.lp.part = .running ∨ s.lp.part = .resting → ∃ t, exec (.stop dt) s = .next t
      ∧ { t.lp with attention := s.lp.attention } = { s.lp with
          windows := Vector.replicate 16 none, position := none, walker := .idle, departure := none
          waitsAfterDone := false, awaySince := none, anchorRead := none, link := .idle }
      ∧ t.store.deliveries = PerStream.same none ∧ t.store.pool = [] ∧ t.store.waiting = []
      ∧ t.store.tails = PerStream.same none ∧ t.store.pageSequence = s.store.pageSequence
      ∧ t.print.jobs = [] ∧ t.print.read = none
      ∧ t.print.frame = s.print.frame.map (fun f => ⟨f.bytes.take 1, f.timer, true⟩)
      ∧ t.van.wake = .low ∧ t.van.rest = s.van.rest ∧ t.van.lines = s.van.lines
      ∧ SameSites s t ∧ t.fe = s.fe ∧ t.check = s.check ∧ t.watch = s.watch ∧ t.sag = s.sag
      ∧ t.interval = s.interval ∧ t.up = s.up + dt ∧ t.clock = s.clock.advance dt)
    ∧ (s.print.jobs = [] → s.lp.part = .running ∨ s.lp.part = .resting → ∃ t, exec (.stop dt) s = .next t
      ∧ t.lp.attention = s.lp.attention ∧ t.device = s.device ∧ t.van.source = s.van.source)
    ∧ (s.lp.part = .selfTest ∨ s.lp.part = .broken → exec (.stop dt) s = .next (s.elapse dt))

/-- BACK: an Away link becomes Attended with WAKE Low and the Back entry; a pending departure is dropped,
also before its order is Done, after which the walker waits (log 34); a Resting part leaves Rest; in every
other state there is no effect (R165, R167). -/
def Obligations.BackBringsTheLinkBack : Prop :=
  ∀ (dt : Nat) (s : State),
    (∀ away, s.lp.part = .running → s.lp.link = .away → s.lp.awaySince = some away →
      ∃ u : State, u = State.put { s.elapse dt with
          lp := { s.lp with link := .attended, awaySince := none }, van := { s.van with wake := .low } }
          0 (.back s.van.source s.van.wake s.store.total away.time)
        ∧ exec (.back dt) s = .next (State.linkReturns { u with
            lp := { u.lp with walker := .waiting (s.up + dt) } }))
    ∧ (∀ d, s.lp.part = .running → s.lp.link = .attended → s.lp.departure = some d → s.lp.walker = .stopped →
      exec (.back dt) s = .next (State.linkReturns { s.elapse dt with
        lp := { s.lp with departure := none, walker := .waiting (s.up + dt) } }))
    ∧ (∀ d, s.lp.part = .running → s.lp.link = .attended → s.lp.departure = some d → s.lp.walker ≠ .stopped →
      exec (.back dt) s = .next (State.linkReturns { s.elapse dt with
        lp := { s.lp with departure := none, waitsAfterDone := true } }))
    ∧ (∀ r, s.lp.part = .resting → s.van.rest = some r → r.exit = none →
      exec (.back dt) s = .next { s.elapse dt with
        van := { s.van with
          source := .back
          rest := some ⟨r.began, some ⟨.back, ⟨s.clock.advance dt, s.up + dt⟩, false⟩⟩ } })
    ∧ (∀ r e, s.lp.part = .resting → s.van.rest = some r → r.exit = some e →
      exec (.back dt) s = .next { s.elapse dt with
        van := { s.van with rest := some ⟨r.began, some ⟨e.source, e.at_, true⟩⟩ } })
    ∧ (s.lp.part = .selfTest ∨ s.lp.part = .broken
        ∨ (s.lp.part = .running ∧ (s.lp.link = .idle ∨ s.lp.link = .halted
          ∨ (s.lp.link = .attended ∧ s.lp.departure = none))) →
      exec (.back dt) s = .next (s.elapse dt))

/-! ## The walker -/

/-- NUDGE and SWEEP_EXPIRY make a waiting walker read its link again, the sweep when its period has passed and
is not 0; otherwise they have no effect (R176). LINK_READ_DONE: a null link leaves the walker waiting, with the
sweep period begun at that completion (the model's choice, log 57), a sound one starts the read of the order's
record, and any other is a Bad Link fault, which names the access that read the link at the place of its link
(R174 to R177; log 8), and ends the job of a record read in flight (R143; log 18). -/
def Obligations.TheWalkerFollowsTheLink : Prop :=
  (∀ (dt : Nat) (v : BitVec 32) (s : State),
    (∀ since, s.lp.link = .attended → s.lp.departure = none → s.lp.walker = .waiting since →
      exec (.nudge dt v) s = .next { s.elapse dt with
        lp := { s.lp with walker := .readingLink (linkPlace (s.up + dt) s.lp.position) } })
    ∧ (∀ since, s.lp.link = .attended → s.lp.departure = none → s.lp.walker = .waiting since →
      s.lp.sweep ≠ 0 → since + s.lp.sweep ≤ s.up + dt →
      exec (.sweepExpiry dt) s = .next { s.elapse dt with
        lp := { s.lp with walker := .readingLink (linkPlace (s.up + dt) s.lp.position) } })
    ∧ (s.lp.sweep = 0 → exec (.sweepExpiry dt) s = .next (s.elapse dt))
    ∧ (∀ since, s.lp.walker = .waiting since → s.up + dt < since + s.lp.sweep →
      exec (.sweepExpiry dt) s = .next (s.elapse dt))
    ∧ (s.lp.link ≠ .attended ∨ s.lp.departure.isSome = true ∨ (∀ since, s.lp.walker ≠ .waiting since) →
      exec (.nudge dt v) s = .next (s.elapse dt) ∧ exec (.sweepExpiry dt) s = .next (s.elapse dt)))
  ∧ ∀ (dt : Nat) (s : State) (a : Access) (r : WRef), s.lp.walker = .readingLink a →
    (exec (.linkReadDone dt WRef.null) s = .next { s.elapse dt with
      lp := { s.lp with walker := .waiting (s.up + dt) } })
    ∧ (r ≠ WRef.null → s.lp.linkPasses r = true → exec (.linkReadDone dt r) s = .next { s.elapse dt with
        lp := { s.lp with walker := .readingOrder r ⟨.orderRead, r.window, r.offset, [], s.up + dt⟩ } })
    ∧ (r ≠ WRef.null → s.lp.linkPasses r = false → ∃ t, exec (.linkReadDone dt r) s = .next t
        ∧ HaltedBy s t dt ⟨.badLink, a.kind, a.window, a.offset⟩)
    ∧ (r ≠ WRef.null → (s.lp.linkPasses r = true ↔ r.offset % 16 = 0 ∧ r.reserved = 0
        ∧ ∃ h : r.window < 16, ∃ w : Window, s.lp.windows[r.window] = some w
          ∧ r.offset + 64 ≤ w.length ∧ w.read = true ∧ w.write = true))

/-- ORDER_READ_DONE: a Done order is passed over, an order that is not sound gets Bad Order, and any other is
offered to its block; in each case it is the walker's current order (R175). A Posted, well-formed record of a
known kind, with a body and a result area as long as its kind needs, is decoded (R181). By the model's choice the
record is read by one access, the read of an order's link is placed at its record's offset + 8, and the result
write of a Bad Order at the record's start (log 8). -/
def Obligations.TheWalkerJudgesTheOrder : Prop :=
  (∀ (dt : Nat) (s : State) (r : WRef) (a : Access) (b : List Byte), s.lp.walker = .readingOrder r a →
    64 ≤ b.length →
    (field b 6 1 = 2 → exec (.orderReadDone dt b) s = .next { s.elapse dt with
      lp := { s.lp with
        position := some (.order r)
        walker := .readingLink ⟨.linkRead, r.window, r.offset + 8, [], s.up + dt⟩ } })
    ∧ (∀ o, field b 6 1 ≠ 2 → orderOf s.lp r b = some o → exec (.orderReadDone dt b) s = .next { s.elapse dt with
        lp := { s.lp with
          position := some (.order r), walker := .offering ⟨r, field b 4 2, o⟩ } })
    ∧ (field b 6 1 ≠ 2 → orderOf s.lp r b = none → exec (.orderReadDone dt b) s = .next { s.elapse dt with
        lp := { s.lp with
          position := some (.order r)
          walker := .writingResult r ⟨.resultWrite, r.window, r.offset, [(7, [1])], s.up + dt⟩ } })
    ∧ (orderOf s.lp r b ≠ none → field b 6 1 = 1 ∧ 64 ≤ field b 2 2 ∧ field b 2 2 ≤ 1024 ∧ field b 2 2 % 16 = 0
        ∧ field b 4 2 % 4 = 0 ∧ 64 + field b 4 2 ≤ field b 2 2 ∧ 1 ≤ field b 0 2 ∧ field b 0 2 ≤ 24
        ∧ recordFits s.lp r (field b 2 2) = true))
  ∧ (∀ (p : LinkPort) (r : WRef) (b : List Byte) (n : Nat × Nat), b.length = field b 2 2 → field b 6 1 = 1 →
    64 ≤ field b 2 2 → field b 2 2 ≤ 1024 → field b 2 2 % 16 = 0 → recordFits p r (field b 2 2) = true →
    field b 4 2 % 4 = 0 → kindNeeds (field b 0 2) = some n → n.1 ≤ field b 4 2 →
    64 + field b 4 2 + n.2 ≤ field b 2 2 → (field b 0 2 = 15 → 4 + 8 * field b 64 1 ≤ field b 4 2) →
    ∃ o, orderOf p r b = some o ∧ parseOrder (field b 0 2) ((b.drop 64).take (field b 4 2))
      (field b 2 2 - 64 - field b 4 2) = some o)
  ∧ (∀ k, kindNeeds k = none ↔ k = 0 ∨ 24 < k)
  ∧ (List.range 24).map (fun k => kindNeeds (k + 1)) = ([(32, 4), (68, 0), (24, 0), (4, 0), (4, 0), (4, 0), (4, 0),
      (4, 0), (4, 0), (4, 0), (4, 0), (8, 8), (4, 12), (12, 24), (4, 0), (4, 0), (8, 0), (4, 0), (4, 4), (0, 0),
      (4, 4), (8, 0), (0, 0), (0, 0)] : List (Nat × Nat)).map some
  ∧ ∀ (b : List Byte) (n : Nat),
    parseOrder 1 b n = some (.createSite (parseCreateSite b)) ∧ parseOrder 2 b n = some (.setMap (parseSetMap b))
    ∧ parseOrder 3 b n = some (.setLimits ⟨field b 0 2, parseLimits b 4⟩)
    ∧ parseOrder 4 b n = some (.startSurvey (field b 0 2) ((field b 2 1).testBit 0))
    ∧ parseOrder 5 b n = some (.pauseSurvey (field b 0 2)) ∧ parseOrder 6 b n = some (.resumeSurvey (field b 0 2))
    ∧ parseOrder 7 b n = some (.closeSite (field b 0 2)) ∧ parseOrder 8 b n = some (.discardSite (field b 0 2))
    ∧ parseOrder 9 b n = some (.readSite (field b 0 2) n) ∧ parseOrder 10 b n = some (.startCheck (field b 0 2))
    ∧ parseOrder 11 b n = some (.cancelCheck (field b 0 2))
    ∧ parseOrder 12 b n = some (.setClock (field b 0 4) (field b 4 2))
    ∧ parseOrder 13 b n = some (.snapshot (field b 0 2)) ∧ parseOrder 14 b n = some (.addNote (parseAddNote b))
    ∧ parseOrder 15 b n = some (.givePages (field b 0 1) (parsePages b) n)
    ∧ parseOrder 16 b n = some (.flushStreams (field b 0 1) n)
    ∧ parseOrder 17 b n = some (.setStoreLevels (parseStoreLevels b) n)
    ∧ parseOrder 18 b n = some (.queuePrint ⟨field b 0 1, field b 1 1, b.drop 4⟩ n)
    ∧ parseOrder 19 b n = some (.cancelPrint (field b 0 2)) ∧ parseOrder 20 b n = some (.readPrintQueue n)
    ∧ parseOrder 21 b n = some (.setPrinter (field b 0 1))
    ∧ parseOrder 22 b n = some (.setVanLines (parseVanLines b) n)
    ∧ parseOrder 23 b n = some .away ∧ parseOrder 24 b n = some .rest

/-- RESULT_WRITE_DONE issues the Done write, an access of the kind Result Write at the record's start
(log 8); DONE_WRITE_DONE raises Order Done, and the walker reads the order's link, stops when a departure is
pending, or waits when Back has dropped one (log 34; R175, R162, R165). -/
def Obligations.TheWalkerWritesDone : Prop :=
  ∀ (dt : Nat) (s : State) (r : WRef) (a : Access),
    (s.lp.walker = .writingResult r a → exec (.resultWriteDone dt) s = .next { s.elapse dt with
      lp := { s.lp with walker := .writingDone r ⟨.resultWrite, r.window, r.offset, [(6, [2])], s.up + dt⟩ } })
    ∧ (s.lp.walker = .writingDone r a → s.lp.departure.isSome = true →
      exec (.doneWriteDone dt) s = .next { s.elapse dt with
        lp := { s.lp with attention := s.lp.attention ||| 1, walker := .stopped } })
    ∧ (s.lp.walker = .writingDone r a → s.lp.departure = none → s.lp.waitsAfterDone = true →
      exec (.doneWriteDone dt) s = .next { s.elapse dt with
        lp := { s.lp with
          attention := s.lp.attention ||| 1, waitsAfterDone := false, walker := .waiting (s.up + dt) } })
    ∧ (s.lp.walker = .writingDone r a → s.lp.departure = none → s.lp.waitsAfterDone = false →
      exec (.doneWriteDone dt) s = .next { s.elapse dt with
        lp := { s.lp with
          attention := s.lp.attention ||| 1, walker := .readingLink (linkPlace (s.up + dt) s.lp.position) } })

/-- BUS_ERROR and ACCESS_TIMEOUT on an access in flight halt the link, the timeout 50 ms after the access was
issued (R177). The job of a record read in flight ends Failed (Link Fault), or Cancelled (Order) with its cancel
pending, also where another access faults (R143, R155, R156; log 18). -/
def Obligations.FaultsHaltTheLink : Prop :=
  ∀ (dt : Nat) (s : State) (sel : AccessSel) (a : Access), s.lp.link = .attended → s.accessOf sel = some a →
    (∃ t, exec (.busError dt sel) s = .next t ∧ HaltedBy s t dt ⟨.busError, a.kind, a.window, a.offset⟩)
    ∧ (a.issued + 50 ≤ s.up + dt → ∃ t, exec (.accessTimeout dt sel) s = .next t
        ∧ HaltedBy s t dt ⟨.accessTimeout, a.kind, a.window, a.offset⟩)
    ∧ (s.up + dt < a.issued + 50 → exec (.accessTimeout dt sel) s = .next (s.elapse dt))

/-! ## Orders in general -/

/-- Every order command answers the offered order with a result being written; a refusal leaves every block
as it was, Journal Full alone counts its lost note (R9, R110, R175); an order that is not offered has no
effect (log 3). Every command answers a next state and leaves the queue as it is. -/
def Obligations.OrdersAnswerTheirOffer : Prop :=
  (∀ (c : Instr) (o : Order) (s : State), orderOfCommand c = some o →
    (∃ u code area, Takes c o s u code area ∧ (code ≠ .ok → code ≠ .journalFull → u = s ∧ area = []))
    ∧ ((∀ f, ¬ (Offers s f ∧ f.order = o)) → exec c s = .next s))
  ∧ (∀ (c : Instr) (s : State), ∃ t, exec c s = .next t ∧ t.pending = s.pending)

/-! ## The Journal and the Record Store, as every rule meets them -/

/-- An entry is admitted when the store has room for it and its journal has a number left: it takes the next
number, carries the lost run, joins the Journal queue, and the counts follow (R104, R117). An entry that is
not admitted takes no number and leaves the queues as they are; the lost run, the site's or device's count and
the stream's counts advance (R105, R121). -/
def Obligations.TheJournalAdmitsOrCountsAnEntry : Prop :=
  (∀ (s : State) (r : EntryRequest) (j : JournalState), s.journalOf r.site = some j → j.exhausted = false →
    s.store.total + entryLength r.body ≤ 524288 → ∃ t, s.enter r = (t, some j.next)
      ∧ t.journalOf r.site = some
          ⟨if j.next = 4294967295 then j.next else j.next + 1, decide (j.next = 4294967295), 0, false⟩
      ∧ t.store = { s.store with queues := { s.store.queues with
          journal := s.store.queues.journal ++ [⟨.journal ⟨r.site, j.next, s.clock, r.late, j.saturated,
            j.lostRun, r.anchor, r.author, r.body⟩, entryLength r.body, r.site, s.clock, false, false⟩] } }
      ∧ t.device.lostTotal = s.device.lostTotal
      ∧ (∀ x, r.site ≠ 0 → s.siteOf r.site = some x → ∃ y, t.siteOf r.site = some y
          ∧ y.counters = { x.counters with journal := min (x.counters.journal + 1) 4294967295 })
      ∧ SameTime s t ∧ SameLink s t ∧ SameSites s t ∧ t.fe = s.fe ∧ t.check = s.check ∧ t.watch = s.watch
      ∧ t.sag = s.sag ∧ t.interval = s.interval ∧ t.print = s.print)
  ∧ (∀ (s : State) (r : EntryRequest) (j : JournalState), s.journalOf r.site = some j →
    j.exhausted = true ∨ 524288 < s.store.total + entryLength r.body → ∃ t, s.enter r = (t, none)
      ∧ t.journalOf r.site = some (if j.lostRun = 65535 then { j with saturated := true }
          else { j with lostRun := j.lostRun + 1 })
      ∧ t.store = { s.store with
          lostTotal := { s.store.lostTotal with journal := min (s.store.lostTotal.journal + 1) 4294967295 }
          lostSincePage := { s.store.lostSincePage with
            journal := min (s.store.lostSincePage.journal + 1) 4294967295 } }
      ∧ (r.site = 0 → t.device.lostTotal = min (s.device.lostTotal + 1) 4294967295)
      ∧ (∀ x, r.site ≠ 0 → s.siteOf r.site = some x → ∃ y, t.siteOf r.site = some y
          ∧ y.counters = { x.counters with lostJournal := min (x.counters.lostJournal + 1) 4294967295 })
      ∧ SameTime s t ∧ t.lp = s.lp ∧ SameSites s t ∧ t.fe = s.fe ∧ t.check = s.check ∧ t.watch = s.watch
      ∧ t.sag = s.sag ∧ t.interval = s.interval ∧ t.print = s.print ∧ t.van = s.van)

/-- An event or interval record that fits joins its queue. One that does not fit makes room: the oldest eligible
capture is discarded whole, and the record is judged again; with no capture eligible it is lost and counted. A
capture is eligible when its first piece stands in the queue and none of its pieces is in a delivery; the oldest
is the one whose first piece stands nearest the head. A discard removes every piece of its capture and no other
record, counts the pieces and the capture lost, and puts the Capture Discarded entry (R119 to R121). -/
def Obligations.RecordsAreAdmittedOrLost : Prop :=
  ∀ (s : State) (st : Stream) (r : Record),
    (s.store.nonJournalOccupancy + r.length ≤ 491520 → s.store.total + r.length ≤ 524288 →
      s.admitRecord st r = (s.addRecords st [r], true)
      ∧ (s.addRecords st [r]).store.queues.get st = s.store.queues.get st
          ++ [⟨r, r.length, r.site, s.clock, false, false⟩])
    ∧ (oldestEligible s.store.queues.captures = none →
      491520 < s.store.nonJournalOccupancy + r.length ∨ 524288 < s.store.total + r.length →
      s.admitRecord st r = ((s.countLost st 1).modLabel r.site (·.countLostRecord st), false))
    ∧ (∀ c, oldestEligible s.store.queues.captures = some c →
      491520 < s.store.nonJournalOccupancy + r.length ∨ 524288 < s.store.total + r.length →
      s.admitRecord st r = (s.discardCapture c st r.site).admitRecord st r)
    ∧ (∀ (c : CapturePiece × Queued) (gone : List Queued),
      gone = s.store.queues.captures.filter (sameCapture c.1) → ∃ u : State,
        s.discardCapture c st r.site = u.putAnchored c.1.site
          (if c.1.kind = .snapshot then .none else .ownEvent c.1.event)
          (.captureDiscarded c.1.capture c.1.event (queueBytes gone) gone.length c.1.kind st r.site c.2.admitted)
        ∧ u.store = { s.store with
            queues := { s.store.queues with
              captures := s.store.queues.captures.filter fun q => !sameCapture c.1 q }
            lostTotal := { s.store.lostTotal with
              captures := min (s.store.lostTotal.captures + gone.length) 4294967295 }
            lostSincePage := { s.store.lostSincePage with
              captures := min (s.store.lostSincePage.captures + gone.length) 4294967295 } }
        ∧ ∀ x, s.siteOf c.1.site = some x → ∃ y, u.siteOf c.1.site = some y ∧ y.counters = { x.counters with
            lostCaptures := min (x.counters.lostCaptures + 1) 4294967295 })
    ∧ (∀ c q, q ∈ (s.discardCapture c st r.site).store.queues.captures ↔
        q ∈ s.store.queues.captures ∧ sameCapture c.1 q = false)
    ∧ (∀ (p : CapturePiece) (q : Queued),
      sameCapture p q = true ↔ ∃ c, q.record = .piece c ∧ c.site = p.site ∧ c.capture = p.capture)
    ∧ ∀ (l : List Queued) (el : Queued → Prop),
      (∀ q, el q ↔ ∃ p, q.record = .piece p ∧ p.piece = 1 ∧ ∀ y, y ∈ l → sameCapture p y = true → y.inDelivery = false) →
      (oldestEligible l = none ↔ ∀ q, q ∈ l → ¬ el q)
      ∧ ∀ p q, oldestEligible l = some (p, q) ↔ q.record = .piece p ∧ el q ∧ ∃ before after, l = before ++ q :: after
          ∧ ∀ y, y ∈ before → ¬ el y

/-- A WAKE request raises WAKE and sets the wake source when the link is Away and WAKE is Low, and is dropped
otherwise (R164). An admission that takes the total occupancy from below the store high mark to it or above
raises Attention Store High and asks for WAKE; no other admission does (R122). -/
def Obligations.WakeIsRaisedWhenAway : Prop :=
  (∀ (s : State) (w : WakeSource),
    (s.lp.link = .away → s.van.wake = .low →
      s.wakeRequest w = { s with van := { s.van with wake := .high, source := w } })
    ∧ (s.lp.link ≠ .away ∨ s.van.wake = .high → s.wakeRequest w = s))
  ∧ (∀ (s : State) (st : Stream) (rs : List Record), ∃ t, s.addRecords st rs = t
    ∧ (s.store.total < s.store.levels.storeHigh * 524288 / 100 →
        s.store.levels.storeHigh * 524288 / 100 ≤ t.store.total → t.attends .storeHigh = true
          ∧ (s.lp.link = .away → s.van.wake = .low → t.van.wake = .high ∧ t.van.source = .storeHigh))
    ∧ (s.store.levels.storeHigh * 524288 / 100 ≤ s.store.total
        ∨ t.store.total < s.store.levels.storeHigh * 524288 / 100 → t.lp = s.lp ∧ t.van = s.van))

/-! ## The site orders -/

/-- CREATE_SITE gives the lowest Empty slot a site record with its initial values, with a slip depth only under
the Depth rule, puts the Created entry and answers the slot; it is refused with Bad Value outside the ranges,
Duplicate Site for a label held and Site Table Full with no slot Empty, in this order (R2, R10). In range are a
label from 1 to 65,535, a nominal voltage from 50 to 800 V, a frequency of 50 or 60 Hz, the three wirings, the
three Slip rules, under Depth a slip depth from 1.00 to 98.00 %, and a limits set, where one is given, that
passes its checks (R2, R6, R9; its cross-checks by log 27); other bits of the options are ignored (log 23). -/
def Obligations.CreateSiteFillsTheLowestSlot : Prop :=
  (∀ (s : State) (b : CreateSiteBody) (w : Wiring) (o : SiteOptions) (k : Fin 8),
    1 ≤ b.label → b.label ≤ 65535 → 50 ≤ b.nominalVoltage → b.nominalVoltage ≤ 800 →
    b.frequency = 50 ∨ b.frequency = 60 → parseWiring b.wiring = some w →
    parseOptions b.options b.slipDepth = some o → slipOk o = true → b.limitsGiven ≤ 1 →
    (b.limitsGiven = 1 → limitsValid b.limits = true) →
    (∀ (j : Fin 8) (x : Site), s.site j = some x → x.label ≠ b.label) →
    s.site k = none → (∀ j : Fin 8, j < k → (s.site j).isSome = true) →
    Takes (.createSite b) (.createSite b) s
      ((s.setSlot k (some
        { label := b.label, state := .drafted, nominalVoltage := b.nominalVoltage, frequency := b.frequency
          wiring := w, options := o
          active := if b.limitsGiven = 1 then b.limits else ⟨9000, 200, 1000, 50, 60, 60, 40, 10, 3, 3⟩
          pendingSet := none, version := 1, map := defaultMap w, checkStatus := .never, unusable := none
          returnState := none, counters := ⟨0, 0, 0, 0, 0, 0, 0, 0⟩, created := s.clock, started := none
          closed := none, openEvent := 0, pins := 0, sag := ⟨1, 1, [], none, []⟩, nextInterval := 1
          journal := ⟨1, false, 0, false⟩ })).put b.label (.created b.nominalVoltage b.frequency w o))
      .ok ([BitVec.ofNat 8 k.val] ++ [0, 0, 0]))
  ∧ ∀ (s : State) (b : CreateSiteBody),
    (judgeCreate b = none → Takes (.createSite b) (.createSite b) s s .badValue [])
    ∧ (∀ k x, judgeCreate b ≠ none → s.site k = some x → x.label = b.label →
        Takes (.createSite b) (.createSite b) s s .duplicateSite [])
    ∧ (judgeCreate b ≠ none → (∀ k, ∃ x, s.site k = some x ∧ x.label ≠ b.label) →
        Takes (.createSite b) (.createSite b) s s .siteTableFull [])
    ∧ (judgeCreate b ≠ none ↔ 1 ≤ b.label ∧ b.label ≤ 65535 ∧ 50 ≤ b.nominalVoltage ∧ b.nominalVoltage ≤ 800
        ∧ (b.frequency = 50 ∨ b.frequency = 60) ∧ b.wiring ≤ 2 ∧ b.options / 4 % 4 ≤ 2
        ∧ (b.options / 4 % 4 = 2 → 100 ≤ b.slipDepth ∧ b.slipDepth ≤ 9800) ∧ b.limitsGiven ≤ 1
        ∧ (b.limitsGiven = 1 → limitsValid b.limits = true))
    ∧ (∀ n w, parseWiring n = some w ↔ (n = 0 ∧ w = .single) ∨ (n = 1 ∧ w = .wye) ∨ (n = 2 ∧ w = .delta))
    ∧ (∀ n d o, parseOptions n d = some o ↔ o.autoCorrect = n.testBit 0 ∧ o.exportFlow = n.testBit 1
        ∧ ((n / 4 % 4 = 0 ∧ o.slipRule = .off) ∨ (n / 4 % 4 = 1 ∧ o.slipRule = .interruptions)
          ∨ (n / 4 % 4 = 2 ∧ o.slipRule = .depth))
        ∧ o.slipDepth = (if o.slipRule = .depth then d else 0) ∧ o.wakeOnInterruption = n.testBit 4)
    ∧ ∀ o : SiteOptions, slipOk o = true ↔ (o.slipRule = .depth → 100 ≤ o.slipDepth ∧ o.slipDepth ≤ 9800)

/-- A limits set is valid exactly within its ranges and cross-checks; Create Site and Set Limits refuse any
other with Bad Value and change nothing, whatever else is wrong with the order (log 27), and Create Site
without a set gives the default one (R6). -/
def Obligations.LimitsAreChecked : Prop :=
  (∀ l : Limits, limitsValid l = true ↔
    5000 ≤ l.sag ∧ l.sag ≤ 9800 ∧ 100 ≤ l.hysteresis ∧ l.hysteresis ≤ 1000 ∧ 100 ≤ l.interruption
    ∧ l.interruption ≤ 2000 ∧ 10 ≤ l.settle ∧ l.settle ≤ 500 ∧ 1 ≤ l.longLimit ∧ l.longLimit ≤ 600
    ∧ 8 ≤ l.depth ∧ l.depth ≤ 50 ∧ l.intervalLength ∈ [1, 2, 3, 5, 10, 15, 30, 60] ∧ l.leadHoldoff ≤ 15
    ∧ l.clampHoldoff ≤ 15 ∧ l.anchorWindow ≤ 300 ∧ l.interruption < l.sag ∧ l.sag + l.hysteresis ≤ 10000)
  ∧ (∀ (s : State) (b : SetLimitsBody), limitsValid b.limits = false →
      Takes (.setLimits b) (.setLimits b) s s .badValue [])
  ∧ (∀ (s : State) (b : CreateSiteBody), b.limitsGiven = 1 → limitsValid b.limits = false →
      Takes (.createSite b) (.createSite b) s s .badValue [])
  ∧ limitsValid ⟨9000, 200, 1000, 50, 60, 60, 40, 10, 3, 3⟩ = true
  ∧ ∀ (b : CreateSiteBody) (w : Wiring) (o : SiteOptions) (now : Time), b.limitsGiven = 0 →
      (Site.create b w o now).active = ⟨9000, 200, 1000, 50, 60, 60, 40, 10, 3, 3⟩

/-- SET_MAP on a Drafted, Ready or Paused site replaces the map, clears the verified flags and the check status,
and puts the Map Changed entry; on a Paused site the map takes effect at once (R11), and a moved reference has
its entry before it (log 28). An entry out of its range, which is the list of roles and the scale of its input
(log 27), is Bad Value before the site is looked for, and a map that is not well formed for the wiring is Bad
Value after it (R3, R4, R9). -/
def Obligations.SetMapReplacesTheMap : Prop :=
  (∀ (s : State) (b : SetMapBody) (k : Fin 8) (x : Site) (m : ChannelMap), Holds s b.label k x →
    (∀ i, entryOk i (b.entries.get i) = true) → mapFits x.wiring b.entries = true →
    (∀ i, (m.get i).scale = (b.entries.get i).scale ∧ (m.get i).invert = (b.entries.get i).invert
      ∧ Role.ofNumber (b.entries.get i).role = some (m.get i).role ∧ (m.get i).verified = false
      ∧ (m.get i).presence = if x.state = .paused then (x.map.get i).presence else .unknown) →
    (x.state = .drafted ∨ x.state = .ready → Takes (.setMap b) (.setMap b) s
      ((s.setSlot k (some { x with map := m, checkStatus := .never, unusable := none, state := .drafted })).put
        x.label (.mapChanged m)) .ok [])
    ∧ (x.state = .paused → Takes (.setMap b) (.setMap b) s
      (((((s.setSlot k (some { x with map := m, checkStatus := .never, unusable := none })).noteMapChange x.map
        m).changeWatch m).rechoose m .mapChanged).put x.label (.mapChanged m)) .ok [])
    ∧ (x.state = .checking ∨ x.state = .surveying ∨ x.state = .closed →
      Takes (.setMap b) (.setMap b) s s .wrongState []))
  ∧ (∀ (s : State) (b : SetMapBody),
    ((∃ i, entryOk i (b.entries.get i) = false) → Takes (.setMap b) (.setMap b) s s .badValue [])
    ∧ ∀ k x, Holds s b.label k x → mapFits x.wiring b.entries = false →
      Takes (.setMap b) (.setMap b) s s .badValue [])
  ∧ (∀ (i : Input) (e : MapEntryBody), entryOk i e = true ↔
    e.role ≤ 5 ∧ 1 ≤ e.scale ∧ e.scale ≤ if i.isVoltage then 1000 else 3000)
  ∧ ∀ (w : Wiring) (m : PerInput MapEntryBody) (lines : List Role),
    (∀ i, (m.get i).role ≤ 5) → lines = (if w = .single then [.l1] else [.l1, .l2, .l3]) →
    (mapFits w m = true ↔
      (∀ r, r ∈ lines →
        ([Input.v1, .v2, .v3].filter fun i => Role.ofNumber (m.get i).role == some r).length = 1
        ∧ ([Input.i1, .i2, .i3].filter fun i => Role.ofNumber (m.get i).role == some r).length ≤ 1)
      ∧ (∀ i r, i ∈ [Input.v1, .v2, .v3, .i1, .i2, .i3] → Role.ofNumber (m.get i).role = some r →
        r = .unused ∨ r ∈ lines)
      ∧ (∀ r, Role.ofNumber (m.get .v4).role = some r → r = .unused ∨ (w ≠ .delta ∧ r = .ne))
      ∧ (∀ r, Role.ofNumber (m.get .i4).role = some r → r = .unused ∨ (w ≠ .delta ∧ r = .n)))

/-- SET_LIMITS applies the set at once on a Drafted or Ready site, with the next version and the Limits
Applied entry; keeps it pending on a live site; and is refused on a Closed one (R7, R8). -/
def Obligations.SetLimitsAppliesOrWaits : Prop :=
  ∀ (s : State) (b : SetLimitsBody) (k : Fin 8) (x : Site), Holds s b.label k x → limitsValid b.limits = true →
    (x.state = .drafted ∨ x.state = .ready → Takes (.setLimits b) (.setLimits b) s
      ((s.setSlot k (some { x with
        active := b.limits, pendingSet := none
        version := if 65535 ≤ x.version then 1 else x.version + 1 })).put x.label
        (.limitsApplied (if 65535 ≤ x.version then 1 else x.version + 1) b.limits)) .ok [])
    ∧ (x.state = .surveying ∨ x.state = .paused ∨ x.state = .checking → Takes (.setLimits b) (.setLimits b) s
      (s.setSlot k (some { x with pendingSet := some b.limits })) .ok [])
    ∧ (x.state = .closed → Takes (.setLimits b) (.setLimits b) s s .wrongState [])

/-- START_SURVEY makes a Ready site, or a Drafted one with Unchecked, Surveying: first started time, Front
End, lead watch, detectors, first interval and Started entry (R12). By the model's choice the clamps are pulsed
here with the order's levels, which lead watch takes, as the pulse of the first block (log 35; R29, R56). It is
refused with Wrong State from the other states, and with Site Live when another site is live
(R5). -/
def Obligations.StartSurveyBeginsTheSurvey : Prop :=
  (∀ (s : State) (label : Nat) (u : Bool) (l : PerClamp Nat) (k : Fin 8) (x : Site), Holds s label k x →
    s.liveSlot = none → x.state = .ready ∨ (x.state = .drafted ∧ u = true) →
    ∃ s1 s2 : State, s1 = { s.setSlot k (some { x with state := .surveying, started := some s.clock }) with
        fe := FrontEnd.begin x.map s.now, watch := freshWatch x.map
        sag := { s.sag with detectors := buildDetectors x.map, lostAhead := PerInput.same none }
        interval := some (Interval.opened k { x with state := .surveying, started := some s.clock } s.clock) }
      ∧ s2 = s1.put x.label (.started x.version (decide (x.state = .drafted)))
      ∧ Takes (.startSurvey label u l) (.startSurvey label u) s
          ({ s2 with fe := s2.fe.pulse x.map l }.watchPulse x l) .ok [])
  ∧ ∀ (s : State) (label : Nat) (u : Bool) (l : PerClamp Nat) (k : Fin 8) (x : Site), Holds s label k x →
    (x.state ≠ .ready → ¬ (x.state = .drafted ∧ u = true) →
      Takes (.startSurvey label u l) (.startSurvey label u) s s .wrongState [])
    ∧ (∀ j, x.state = .ready ∨ (x.state = .drafted ∧ u = true) → s.liveSlot = some j → j ≠ k →
      Takes (.startSurvey label u l) (.startSurvey label u) s s .siteLive [])

/-- A pause closes the open event, hands on the event records that wait for nothing more, holds the detectors,
closes the interval and puts the Paused entry, in this order (R13, R75, R96). RESUME_SURVEY makes a Paused
site Surveying: Resumed entry, the pending set applied, detectors built again, a new interval opened, in this
order (R14). By the model's choice a pause hands on every record of the site that is final (log 38), and the
detector of an Absent input stays and is built Absent (log 16). -/
def Obligations.PauseAndResumeMoveTheSurvey : Prop :=
  (∀ (s : State) (label : Nat) (k : Fin 8) (x : Site), Holds s label k x →
    (x.state = .surveying → ∃ s1 s2 s3 : State,
      s1 = ((s.setSlot k (some { x with state := .paused })).closeEventByOrder k .paused).handOnWaiting x.label
      ∧ s2 = { s1 with sag := { s1.sag with detectors := s1.sag.detectors.map (Option.map fun d : Detector =>
          if d = .absent then .absent else .settling 0 false) } }
      ∧ s3 = (s2.closeIntervalByOrder .paused).put x.label (.paused none)
      ∧ Takes (.pauseSurvey label) (.pauseSurvey label) s s3 .ok [])
    ∧ (x.state ≠ .surveying → Takes (.pauseSurvey label) (.pauseSurvey label) s s .wrongState []))
  ∧ (∀ (s : State) (label : Nat) (k : Fin 8) (x : Site), Holds s label k x →
    (x.state = .paused → ∃ s1 s2 : State,
      s1 = ((s.setSlot k (some { x with state := .surveying })).put x.label .resumed).applyPending k
      ∧ (∀ i, s2.sag.detectors.get i = if isLVoltage x.map i then
            some (if (x.map.get i).presence = .absent then Detector.absent else .settling 0 false) else none)
      ∧ s2.sag.lostAhead = PerInput.same none
      ∧ { s2 with sag := { s2.sag with detectors := s1.sag.detectors, lostAhead := s1.sag.lostAhead } } = s1
      ∧ Takes (.resumeSurvey label) (.resumeSurvey label) s (s2.openInterval k s.clock) .ok [])
    ∧ (x.state ≠ .paused → Takes (.resumeSurvey label) (.resumeSurvey label) s s .wrongState []))
  ∧ ∀ (s : State) (label : Nat), (s.readyRecord label = none → s.handOnWaiting label = s)
    ∧ ∀ r, s.readyRecord label = some r → r.site = label → s.handOnWaiting label = (s.handOn r).handOnWaiting label

/-- CLOSE_SITE closes a Drafted or Ready site with its time and its entry. On a live site it frees the trackers,
closes the event of a Surveying site with the cause Closed and hands on the waiting event records (R75, R79), by
the model's choice before anything else of the close (log 29), closes its interval with the cause Closed, or
ends its check Aborted with nothing verified and Attention Check raised (R50), closes the site, and stops lead
watch and the Front End, all before the Closed entry (R15). -/
def Obligations.CloseSiteClosesTheSite : Prop :=
  ∀ (s : State) (label : Nat) (k : Fin 8) (x : Site), Holds s label k x →
    (x.state = .drafted ∨ x.state = .ready → Takes (.closeSite label) (.closeSite label) s
      ((s.setSlot k (some { x with
        state := .closed, pendingSet := none, returnState := none, closed := some s.clock })).put x.label
        (.closed x.state)) .ok [])
    ∧ (x.state = .checking ∨ x.state = .surveying ∨ x.state = .paused →
      ∃ s0 s1 w u : State,
        s0 = (if x.state = .surveying then (s.abandonTrackers x.label).closeEventByOrder k .closed
          else s.abandonTrackers x.label).handOnWaiting x.label
        ∧ (x.state = .surveying → s1 = s0.closeIntervalByOrder .closed)
        ∧ (x.state = .paused → s1 = s0)
        ∧ (∀ c, x.state = .checking → s.check = some c → s1 = s0.breakCheck c .closed ∧ w.check = none)
        ∧ w = { s1.modSite k (fun y => { y with
              state := .closed, pendingSet := none, returnState := none, closed := some s.clock }) with
            fe := FrontEnd.reset, watch := PerInput.same none
            sag := { s1.sag with detectors := PerInput.same none, lostAhead := PerInput.same none } }
        ∧ u = w.put x.label (.closed x.state) ∧ Takes (.closeSite label) (.closeSite label) s u .ok []
        ∧ (∀ c, x.state = .checking → s.check = some c → c.slot = k → u.attends .check = true
          ∧ ∃ y, w.site k = some y ∧ y.checkStatus = .aborted ∧ y.unusable = none
            ∧ ∀ i, (y.map.get i).verified = false ∧ (y.map.get i).role = (x.map.get i).role
              ∧ (y.map.get i).presence = if x.returnState = some .paused then (x.map.get i).presence else .unknown)
        ∧ (∀ e, x.state = .surveying → s.sag.openEvent = some e → ∃ e', { e' with onset := e.onset } = e
          ∧ (s.abandonTrackers x.label).sag.openEvent = some e'
          ∧ (s.abandonTrackers x.label).closeEventByOrder k .closed
            = (s.abandonTrackers x.label).closeEvent k .closed s.now e.halves .notTaken)
        ∧ (∀ iv r, x.state = .surveying → s.interval = some iv → iv.slot = k → (iv.judgeHeld x.map).total ≠ 0 →
          r = (iv.judgeHeld x.map).toRecord x.nextInterval .closed (min s.clock.total iv.endMs)
            (decide (s.clock.total < iv.endMs)) →
          s0.store.nonJournalOccupancy + (Record.interval r).length ≤ 491520 →
          s0.store.total + (Record.interval r).length ≤ 524288 →
          s1.store.queues.intervals.map Queued.record
            = s0.store.queues.intervals.map Queued.record ++ [.interval r])
        ∧ u.fe = FrontEnd.reset ∧ u.watch = PerInput.same none ∧ u.sag.detectors = PerInput.same none
        ∧ SameTime s u ∧ SameLink s u
        ∧ (x.state = .surveying → u.sag.openEvent = none ∧ u.interval = none)
        ∧ (∀ f : Fin 4, u.sag.trackers[f] = s.sag.trackers[f].filter (fun r => r.site != x.label))
        ∧ ((x.state = .checking → ∀ c, s.check = some c → c.slot = k) → SameOtherSites s u k)
        ∧ ∃ y, u.site k = some y ∧ y.state = .closed ∧ y.pendingSet = none ∧ y.returnState = none
            ∧ y.closed = some s.clock
            ∧ (x.state ≠ .checking → y.core = { x.core with
                state := .closed, returnState := none, closed := some s.clock }))
    ∧ (x.state = .closed → Takes (.closeSite label) (.closeSite label) s s .wrongState [])

/-- DISCARD_SITE empties the slot of a Drafted or Closed site without pins or held records, and is refused
otherwise: Wrong State, Site In Use, Records Pending (R16). -/
def Obligations.DiscardSiteEmptiesTheSlot : Prop :=
  ∀ (s : State) (label : Nat) (k : Fin 8) (x : Site), Holds s label k x →
    (x.state = .drafted ∨ x.state = .closed → x.pins = 0 →
      (∀ st q, q ∈ s.store.queues.get st → q.site ≠ label) →
      Takes (.discardSite label) (.discardSite label) s (s.setSlot k none) .ok [])
    ∧ (x.state ≠ .drafted → x.state ≠ .closed →
      Takes (.discardSite label) (.discardSite label) s s .wrongState [])
    ∧ (x.state = .drafted ∨ x.state = .closed → x.pins ≠ 0 →
      Takes (.discardSite label) (.discardSite label) s s .siteInUse [])
    ∧ (∀ st q, x.state = .drafted ∨ x.state = .closed → x.pins = 0 → q ∈ s.store.queues.get st → q.site = label →
      Takes (.discardSite label) (.discardSite label) s s .recordsPending [])

/-- READ_SITE answers the site summary, or the slot list for label 0, and changes no state; a result area
that is too short is Bad Order (R17). READ_PRINT_QUEUE answers the summary of the queue alike (R157). The slot
list gives each slot's label and state, and the queue summary each job's record (11.4). -/
def Obligations.ReadOrdersChangeNothing : Prop :=
  (∀ (s : State) (label r : Nat) (k : Fin 8) (x : Site),
    (Holds s label k x → 192 ≤ r →
      Takes (.readSite label r) (.readSite label r) s s .ok (s.siteSummary k x)
      ∧ (s.siteSummary k x).length = 192 ∧ field (s.siteSummary k x) 0 1 = k.val
      ∧ (x.label < 65536 → field (s.siteSummary k x) 1 2 = x.label)
      ∧ field (s.siteSummary k x) 3 1 = x.state.number)
    ∧ (Holds s label k x → r < 192 → Takes (.readSite label r) (.readSite label r) s s .badOrder [])
    ∧ (192 ≤ r → Takes (.readSite 0 r) (.readSite 0 r) s s .ok s.slotList ∧ s.slotList.length = 192)
    ∧ (392 ≤ r → Takes (.readPrintQueue r) (.readPrintQueue r) s s .ok s.print.summary
        ∧ s.print.summary.length = 392)
    ∧ (r < 192 → Takes (.readSite 0 r) (.readSite 0 r) s s .badOrder [])
    ∧ (r < 392 → Takes (.readPrintQueue r) (.readPrintQueue r) s s .badOrder []))
  ∧ (∀ (s : State) (k : Fin 8),
    (∀ x, s.site k = some x → (s.slotList.drop (4 * k.val)).take 4
      = le 2 x.label ++ [BitVec.ofNat 8 x.state.number, 0])
    ∧ (s.site k = none → (s.slotList.drop (4 * k.val)).take 4 = [0, 0, 0, 0])
    ∧ s.slotList.drop 32 = List.replicate 160 0)
  ∧ ∀ p : PrintEngine, p.summary.take 8 = [BitVec.ofNat 8 p.line.number, BitVec.ofNat 8 p.timeout]
      ++ le 2 p.nextJob ++ [BitVec.ofNat 8 p.jobs.length, 0, 0, 0]
    ∧ (p.jobs.length ≤ 8 → p.summary.drop (8 + 48 * p.jobs.length) = List.replicate (48 * (8 - p.jobs.length)) 0)
    ∧ ∀ i j, i < 8 → p.jobs[i]? = some j → (p.summary.drop (8 + 48 * i)).take 48
      = le 2 j.number ++ [BitVec.ofNat 8 j.owner.number, BitVec.ofNat 8 j.state.number,
          BitVec.ofNat 8 (match j.state with
            | .held r => r.number
            | .queued | .printing => 255), BitVec.ofNat 8 j.cancelPending.toNat,
          BitVec.ofNat 8 j.copies, BitVec.ofNat 8 j.copy, BitVec.ofNat 8 j.items.length, BitVec.ofNat 8 j.item]
        ++ le 2 j.line ++ le 4 j.lines ++ timeBlock j.created ++ [BitVec.ofNat 8 j.pages.length, 0, 0, 0]
        ++ le 4 j.event ++ fitTo 16 (j.sites.flatMap (le 2))

/-- A site order with a label out of range is Bad Value, and with a label that no slot holds Unknown Site,
SET_MAP and SET_LIMITS once their other fields are in range (R9); label 0 of READ_SITE is the slot list
(R17). -/
def Obligations.SiteOrdersMeetTheCommonRefusals : Prop :=
  (∀ (s : State) (label : Nat) (l : PerClamp Nat) (u : Bool) (c : Instr) (o : Order),
    (c, o) ∈ [(.startSurvey label u l, .startSurvey label u), (.pauseSurvey label, .pauseSurvey label),
      (.resumeSurvey label, .resumeSurvey label), (.closeSite label, .closeSite label),
      (.discardSite label, .discardSite label), (.startCheck label l, .startCheck label),
      (.cancelCheck label, .cancelCheck label), (.snapshot label, .snapshot label)] →
    (label = 0 ∨ 65535 < label → Takes c o s s .badValue [])
    ∧ (1 ≤ label → label ≤ 65535 → (∀ k x, s.site k = some x → x.label ≠ label) →
        Takes c o s s .unknownSite []))
  ∧ (∀ (s : State) (b : SetMapBody),
    (b.label = 0 ∨ 65535 < b.label → Takes (.setMap b) (.setMap b) s s .badValue [])
    ∧ (1 ≤ b.label → b.label ≤ 65535 → (∀ i, entryOk i (b.entries.get i) = true) →
      (∀ k x, s.site k = some x → x.label ≠ b.label) → Takes (.setMap b) (.setMap b) s s .unknownSite []))
  ∧ (∀ (s : State) (b : SetLimitsBody),
    (b.label = 0 ∨ 65535 < b.label → Takes (.setLimits b) (.setLimits b) s s .badValue [])
    ∧ (1 ≤ b.label → b.label ≤ 65535 → limitsValid b.limits = true →
      (∀ k x, s.site k = some x → x.label ≠ b.label) → Takes (.setLimits b) (.setLimits b) s s .unknownSite []))
  ∧ ∀ (s : State) (label r : Nat),
    (65535 < label → Takes (.readSite label r) (.readSite label r) s s .badValue [])
    ∧ (1 ≤ label → label ≤ 65535 → (∀ k x, s.site k = some x → x.label ≠ label) →
      Takes (.readSite label r) (.readSite label r) s s .unknownSite [])

/-! ## Checks, the clock, snapshots and notes -/

/-- START_CHECK on a Drafted, Ready or Paused site: the site is Checking with its return state, the Front End
and lead watch run, the check record stands in Presence, with no rotation result yet on a Single site either
(log 54), and the Check Started entry is put (R39). The clamps
are pulsed with the order's levels, which lead watch takes from a Drafted or Ready site, as the pulse of the
first block, and not from a Paused one (log 35; R29, R42, R53, R56). -/
def Obligations.StartCheckBeginsTheCheck : Prop :=
  ∀ (s : State) (label : Nat) (l : PerClamp Nat) (k : Fin 8) (x : Site), Holds s label k x →
    (x.state = .drafted ∨ x.state = .ready → s.liveSlot = none → ∃ s1 : State,
      s1 = { s.setSlot k (some { x with state := .checking, returnState := some .drafted }) with
          fe := (FrontEnd.begin x.map s.now).pulse x.map l, watch := freshWatch x.map }.watchPulse x l
      ∧ Takes (.startCheck label l) (.startCheck label) s
          ({ s1 with check := some (CheckRecord.fresh k x.map s1.fe.sense l s.now) }.put x.label
            (.checkStarted .drafted x.wiring x.options x.version)) .ok [])
    ∧ (x.state = .paused → s.liveSlot = some k → ∃ s1 : State,
      s1 = { s.setSlot k (some { x with state := .checking, returnState := some .paused }) with
          fe := s.fe.pulse x.map l }
      ∧ Takes (.startCheck label l) (.startCheck label) s
          ({ s1 with check := some (CheckRecord.fresh k x.map s1.fe.sense l s.now) }.put x.label
            (.checkStarted .paused x.wiring x.options x.version)) .ok [])
    ∧ (x.state = .checking ∨ x.state = .surveying ∨ x.state = .closed →
      Takes (.startCheck label l) (.startCheck label) s s .wrongState [])
    ∧ (∀ j, x.state = .drafted ∨ x.state = .ready ∨ x.state = .paused → s.liveSlot = some j → j ≠ k →
      Takes (.startCheck label l) (.startCheck label) s s .siteLive [])

/-- CANCEL_CHECK, LOCK_WAIT_EXPIRY and LEADS_MOVED end a check before its verdict: Aborted, or Unusable with
No Reference or Leads Moved (R40, R43, R47, R50). A counted block that does not qualify sets the run count to
0, and the lock wait is over when 10 s or more have passed since its start, which is the start of the phase or
the end of the block that broke a run (R43). -/
def Obligations.ChecksEndEarly : Prop :=
  (∀ (s : State) (c : CheckRecord) (x : Site), s.check = some c → s.site c.slot = some x →
    (∀ label y k, Holds s label k y → y.state = .checking → ∃ u : State,
      Takes (.cancelCheck label) (.cancelCheck label) s u .ok [] ∧ CheckBroken s u c.slot x .aborted none)
    ∧ (∀ label y k, Holds s label k y → y.state ≠ .checking →
      Takes (.cancelCheck label) (.cancelCheck label) s s .wrongState [])
    ∧ (c.lockWaitDue = true → ∃ t, exec .lockWaitExpiry s = .next t
        ∧ CheckBroken s t c.slot x .unusable (some .noReference))
    ∧ (c.leadsMoved = true → ∃ t, exec .leadsMoved s = .next t
        ∧ CheckBroken s t c.slot x .unusable (some .leadsMoved))
    ∧ (c.leadsMoved = true ↔ c.phase ≠ .presence ∧ (10 ≤ c.inputs.v1.moved ∨ 10 ≤ c.inputs.v2.moved
        ∨ 10 ≤ c.inputs.v3.moved ∨ 10 ≤ c.inputs.v4.moved)))
  ∧ ∀ (c : CheckRecord) (x : Site) (b : BlockResult) (began fin : Stamp),
    (began.up < c.phaseStart.up ∨ 5 ≤ c.run ∨ c.phase = .presence → c.takeBlock x b began fin = c)
    ∧ (∀ start : Stamp, c.phaseStart.up ≤ began.up → c.run < 5 → c.phase ≠ .presence →
      b.lockedCycles ≠ b.cycles ∨ (∃ i, isLVoltage x.map i = true ∧ b.angle i = none)
        ∨ (c.phase = .association ∧ b.reference = none) →
      start = (if c.run = 0 then c.lockWaitStart else fin) →
      c.takeBlock x b began fin = { c with
        run := 0, runPattern := none, lockWaitStart := start
        lockWaitDue := decide (start.up + 10000 ≤ fin.up)
        inputs := PerInput.of fun i => { c.inputs.get i with outcomes := [] } })

/-- PRESENCE_PHASE_END judges presence and enters Rotation, or Association on a Single site, or ends the check
No Rotation with a lead Absent; ROTATION_FOUND enters Association with the pattern; ASSOCIATION_COMPLETE ends
the check by its verdict, with the corrected map, its verified flags and its presences (R41, R44 to R50). A
qualifying block gives the pattern of its angle windows (R44), and each clamp that takes part its outcome
against the candidates (R45); five outcomes give the association (R46), and these the findings, the verdict
and the corrections (R48, R49). The quadratic mean of the presence measures is rounded before it is compared
with 5.00 % (the model's choice, log 20; R41). -/
def Obligations.ChecksGoThroughTheirPhases : Prop :=
  (∀ (s : State) (c : CheckRecord) (x : Site), s.check = some c → s.site c.slot = some x →
    (∀ fin judged, c.phase = .presence → c.presenceEnd = some fin →
      judged = PerInput.of (fun i => (c.inputs.get i).judgePresence i) →
      (x.wiring = .single → exec .presencePhaseEnd s = .next { s with check := some { c with
        phase := .association, phaseStart := fin, inputs := judged, rotation := .notApplicable, run := 0
        runPattern := none, lockWaitStart := fin, lockWaitDue := false } })
      ∧ (x.wiring ≠ .single →
        (∀ i, i.isVoltage = true → (judged.get i).roleAtStart.isL = true → (judged.get i).presence ≠ .absent) →
        exec .presencePhaseEnd s = .next { s with check := some { c with
          phase := .rotation, phaseStart := fin, inputs := judged, run := 0
          runPattern := none, lockWaitStart := fin, lockWaitDue := false } })
      ∧ (∀ i, x.wiring ≠ .single → i.isVoltage = true → (judged.get i).roleAtStart.isL = true →
        (judged.get i).presence = .absent → ∃ t, exec .presencePhaseEnd s = .next t
          ∧ CheckBroken s t c.slot x .unusable (some .noRotation))
      ∧ (∀ i, i.isVoltage = true → (c.inputs.get i).roleAtStart.isL = true → (judged.get i).presence
          = if 500 ≤ (c.inputs.get i).meanLevel then .present else .absent))
    ∧ (∀ p, c.phase = .rotation → 5 ≤ c.run → c.runPattern = some p →
      exec .rotationFound s = .next { s with check := some { c with
        phase := .association, phaseStart := c.runEnd, rotation := p, run := 0, runPattern := none
        lockWaitStart := c.runEnd, lockWaitDue := false } })
    ∧ (∀ a, c.phase = .association → 5 ≤ c.run → a = associations c true → clampConflict a = true →
      ∃ t, exec .associationComplete s = .next t ∧ CheckBroken s t c.slot x .unusable (some .clampConflict))
    ∧ (∀ a o v, c.phase = .association → 5 ≤ c.run → a = associations c true → clampConflict a = false →
      o = conclude c x a → v = verdictOf x o → ∃ t y, exec .associationComplete s = .next t ∧ t.check = none
        ∧ t.attends .check = true ∧ v.ready = true ∧ t.site c.slot = some y
        ∧ y.core = { x.core with
            state := if x.returnState = some .paused then .paused else .ready
            checkStatus := v.status, unusable := none, returnState := none }
        ∧ (∀ i, (y.map.get i).role = (o.map.get i).role ∧ (y.map.get i).scale = (x.map.get i).scale
          ∧ (y.map.get i).invert = (o.map.get i).invert
          ∧ ((y.map.get i).verified = true ↔ (o.map.get i).role ≠ .unused
            ∧ (v ≠ .findings ∨ findingLeft x.options.autoCorrect (o.findings.get i) = false))
          ∧ (y.map.get i).presence = if x.returnState = some .paused then (x.map.get i).presence
            else if (c.inputs.get i).presence ∈ [.present, .fitted] then .present
            else if (c.inputs.get i).presence ∈ [.absent, .opened, .short] then .absent else .unknown)
        ∧ (x.returnState ≠ some .paused → t.fe = FrontEnd.reset ∧ t.watch = PerInput.same none)
        ∧ SameOtherSites s t c.slot ∧ SameTime s t ∧ SameLink s t ∧ t.sag = s.sag ∧ t.interval = s.interval
        ∧ t.print = s.print))
  ∧ (∀ (c : CheckRecord) (x : Site) (b : BlockResult) (began fin : Stamp), c.phaseStart.up ≤ began.up →
    c.run < 5 → b.lockedCycles = b.cycles → (∀ i, isLVoltage x.map i = true → (b.angle i).isSome = true) →
    (∀ p, c.phase = .rotation → p = blockPattern x.map b → c.takeBlock x b began fin
      = if p = .indeterminate ∨ (c.runPattern ≠ none ∧ c.runPattern ≠ some p) then
          { c with rotation := .indeterminate }
        else { c with run := c.run + 1, runEnd := fin, lockWaitDue := false, runPattern := some p })
    ∧ (c.phase = .association → b.reference.isSome = true → c.takeBlock x b began fin = { c with
        run := c.run + 1, runEnd := fin, lockWaitDue := false
        inputs := PerInput.of fun i =>
          if i.isVoltage = false ∧ (c.inputs.get i).roleAtStart.isL = true ∧ (c.inputs.get i).presence = .fitted
          then { c.inputs.get i with
            outcomes := (c.inputs.get i).outcomes ++ [clampOutcome x c.rotation b i] }
          else c.inputs.get i }))
  ∧ (∀ (m : ChannelMap) (b : BlockResult) (v : Role → Input) (a : Role → Nat) (d2 d3 : Nat),
    (∀ r i, r ∈ [Role.l1, .l2, .l3] → (isLVoltage m i = true ∧ (m.get i).role = r ↔ i = v r)) →
    (∀ r, r ∈ [Role.l1, .l2, .l3] → b.angle (v r) = some (a r) ∧ a r < 3600) →
    d2 = (a .l2 + 3600 - a .l1) % 3600 → d3 = (a .l3 + 3600 - a .l1) % 3600 →
    blockPattern m b = if 900 ≤ d2 ∧ d2 ≤ 1500 ∧ 2100 ≤ d3 ∧ d3 ≤ 2700 then .abc
      else if 2100 ≤ d2 ∧ d2 ≤ 2700 ∧ 900 ≤ d3 ∧ d3 ≤ 1500 then .acb else .indeterminate)
  ∧ (∀ (x : Site) (r : RotationResult) (b : BlockResult) (i : Input) (e : InputResult),
    b.results.get i = some e →
    (e.fundamental < (x.map.get i).scale ∨ e.angle = none → clampOutcome x r b i = .lowCurrent)
    ∧ ∀ a, (x.map.get i).scale ≤ e.fundamental → e.angle = some a →
      clampOutcome x r b i = outcomeOf (candidatesOf x r b a))
  ∧ (∀ (x : Site) (r : RotationResult) (b : BlockResult) (a : Nat) (angle : Input → Nat) (first second : Nat)
      (p : AssociationPair), a < 3600 →
    (∀ v, isLVoltage x.map v = true → b.angle v = some (angle v) ∧ angle v < 3600) →
    (first, second) = (if x.wiring = .delta then (if r = .acb then (3300, 1500) else (300, 2100))
      else (0, 1800)) →
    (p ∈ candidatesOf x r b a ↔ ∃ v c, isLVoltage x.map v = true ∧ (c = first ∨ c = second)
      ∧ p.voltage = v ∧ p.polarity = (if (c = first ↔ x.options.exportFlow = false) then .normal else .reversed)
      ∧ p.distance = min (((a + 3600 - angle v) % 3600 + 3600 - c) % 3600)
          ((c + 3600 - (a + 3600 - angle v) % 3600) % 3600)
      ∧ p.distance ≤ 600))
  ∧ (∀ cs : List AssociationPair, (cs = [] → outcomeOf cs = .noCandidate)
    ∧ (∀ n, n ∈ cs → (∀ p, p ∈ cs → p ≠ n → n.distance + 100 ≤ p.distance) →
      outcomeOf cs = .candidate n.voltage n.polarity)
    ∧ ∀ n q, n ∈ cs → q ∈ cs → q ≠ n → (∀ p, p ∈ cs → n.distance ≤ p.distance) →
      q.distance < n.distance + 100 → outcomeOf cs = .twoCandidates)
  ∧ (∀ os : List BlockOutcome, (.lowCurrent ∈ os → associationOf os = .lowCurrent)
    ∧ (∀ before o after, .lowCurrent ∉ os → os = before ++ o :: after →
      .noCandidate ∉ before → .twoCandidates ∉ before →
      (o = .noCandidate → associationOf os = .noCandidate)
      ∧ (o = .twoCandidates → associationOf os = .twoCandidates))
    ∧ (∀ v p, os ≠ [] → (∀ o, o ∈ os → o = .candidate v p) → associationOf os = .associated v p)
    ∧ ((∀ o, o ∈ os → ∃ v p, o = .candidate v p) → (∃ o q, o ∈ os ∧ q ∈ os ∧ o ≠ q) →
      associationOf os = .unstable))
  ∧ (∀ (c : CheckRecord) (x : Site) (a : PerInput (Option Association)) (i : Input) (o : Conclusion)
      (f : Findings) (role : Role), o = conclude c x a → f = o.findings.get i → role = (x.map.get i).role →
    (f.rotation = true ↔ i.isVoltage = true ∧ c.rotation = .acb ∧ (role = .l2 ∨ role = .l3))
    ∧ (f.otherPhase = true ↔ i.isVoltage = false ∧ role.isL = true
      ∧ ∃ r, o.roleFound.get i = some r ∧ r ≠ role)
    ∧ (f.reversed = true ↔ ∃ v, a.get i = some (.associated v .reversed))
    ∧ (f.undetermined = true ↔ a.get i ∈ [some .lowCurrent, some .noCandidate, some .twoCandidates,
        some .unstable])
    ∧ (f.notFitted = true ↔ (c.inputs.get i).presence = .opened)
    ∧ (f.short = true ↔ (c.inputs.get i).presence = .short)
    ∧ (i.isVoltage = true → o.roleFound.get i = if role = .unused then none
        else if c.rotation = .acb ∧ role = .l2 then some .l3
        else if c.rotation = .acb ∧ role = .l3 then some .l2 else some role)
    ∧ (i.isVoltage = false → (role = .n → o.roleFound.get i = some .n)
      ∧ (∀ v p, role ≠ .n → v.isVoltage = true → a.get i = some (.associated v p) →
          o.roleFound.get i = o.roleFound.get v)
      ∧ (role ≠ .n → (∀ v p, a.get i ≠ some (.associated v p)) → o.roleFound.get i = none)))
  ∧ (∀ (x : Site) (o : Conclusion) (left : Input → Prop),
    (∀ i f, f = o.findings.get i → (left i ↔ f.undetermined = true ∨ f.notFitted = true ∨ f.short = true
      ∨ (x.options.autoCorrect = false ∧ (f.rotation = true ∨ f.otherPhase = true ∨ f.reversed = true)))) →
    (∀ i, findingLeft x.options.autoCorrect (o.findings.get i) = true ↔ left i)
    ∧ (verdictOf x o = .findings ↔ ∃ i, left i)
    ∧ (verdictOf x o = .corrected ↔ (∀ i, ¬ left i) ∧ ∃ i, (o.map.get i).role ≠ (x.map.get i).role
        ∨ (o.map.get i).scale ≠ (x.map.get i).scale ∨ (o.map.get i).invert ≠ (x.map.get i).invert)
    ∧ (verdictOf x o = .passed ∨ verdictOf x o = .corrected ∨ verdictOf x o = .findings))
  ∧ ∀ (c : CheckRecord) (x : Site) (a : PerInput (Option Association)) (o : Conclusion) (moved : ChannelMap)
      (out : List Input), o = conclude c x a →
    moved = PerInput.of (fun i => { x.map.get i with
      role := if (o.findings.get i).rotation = true ∨ (o.findings.get i).otherPhase = true then
          (o.roleFound.get i).getD (x.map.get i).role else (x.map.get i).role
      invert := if (o.findings.get i).reversed = true then !(x.map.get i).invert else (x.map.get i).invert }) →
    out = [Input.i1, .i2, .i3, .i4].filter (fun i => (x.map.get i).role.isL && (o.roleFound.get i).isNone
      && [Input.i1, .i2, .i3, .i4].any fun j => decide ((moved.get j).role = (x.map.get i).role)
        && decide ((x.map.get j).role ≠ (moved.get j).role)) →
    (x.options.autoCorrect = false → o.map = x.map)
    ∧ (x.options.autoCorrect = true → o.map = out.foldl (fun m i =>
      match [Role.l1, .l2, .l3].find? fun r => [Input.i1, .i2, .i3, .i4].all fun j =>
        decide ((m.get j).role ≠ r) with
      | some r => m.set i { m.get i with role := r }
      | none => m) moved)

/-- SET_CLOCK: the old reading is answered, the clock takes the new one with Clock Unset clear, and the Clock
Set entry is put under the new time, or counted lost; records already held stay as they are; refused with Bad
Value above 999 ms, then with Site Live (R36). -/
def Obligations.SetClockSetsTheClock : Prop :=
  ∀ (s : State) (sec ms : Nat),
    (sec ≤ 4294967295 → ms ≤ 999 → (∀ k x, s.site k = some x → x.state.isLive = false) → ∃ u : State,
      u = State.put { s with clock := ⟨sec, ms, false⟩ } 0 (.clockSet s.clock ⟨sec, ms, false⟩)
      ∧ u.clock = ⟨sec, ms, false⟩ ∧ (∀ st q, q ∈ s.store.queues.get st → q ∈ u.store.queues.get st)
      ∧ (s.device.state.exhausted = false → s.store.total + 48 ≤ 524288 →
        ∃ q, u.store.queues.journal = s.store.queues.journal ++ [q]
          ∧ q.record = .journal ⟨0, s.device.state.next, ⟨sec, ms, false⟩, false, s.device.state.saturated,
            s.device.state.lostRun, .none, 0, .clockSet s.clock ⟨sec, ms, false⟩⟩)
      ∧ (s.device.state.exhausted = true ∨ 524288 < s.store.total + 48 →
        u.store.queues = s.store.queues ∧ u.device.lostTotal = min (s.device.lostTotal + 1) 4294967295)
      ∧ Takes (.setClock sec ms) (.setClock sec ms) s u .ok
          (le 4 s.clock.sec ++ le 2 s.clock.ms ++ [BitVec.ofNat 8 s.clock.unset.toNat] ++ [0]))
    ∧ (999 < ms → Takes (.setClock sec ms) (.setClock sec ms) s s .badValue [])
    ∧ (∀ k x, sec ≤ 4294967295 → ms ≤ 999 → s.site k = some x → x.state.isLive = true →
      Takes (.setClock sec ms) (.setClock sec ms) s s .siteLive [])

/-- SNAPSHOT claims the lowest Free tracker on a site whose Front End will keep running, and is refused with
Wrong State or Tracker Busy; ADD_NOTE enters a note with its anchor, whose request is numbered Auto 0, Event 1
and None 255 (log 7), answers Journal Full when its entry is not admitted, and is refused with Bad Value, also
for a text longer than its body holds (log 17), Unknown Site or Bad Anchor, in this order (R76, R80, R110,
R111). An Auto anchor names the open event, or the last closed one when at most the anchor window has passed
since its end time (R108); a clock before that end time, as after a wrap, is within the window (log 24). -/
def Obligations.SnapshotsAndNotesAreTaken : Prop :=
  (∀ (s : State) (label : Nat) (k : Fin 8) (x : Site), Holds s label k x →
    (∀ f : Fin 4, x.state = .surveying ∨ x.state = .paused
        ∨ (x.state = .checking ∧ x.returnState = some .paused) →
      s.sag.trackers[f] = none → (∀ j : Fin 4, j < f → s.sag.trackers[j] ≠ none) →
      Takes (.snapshot label) (.snapshot label) s { s with sag := { s.sag with
        trackers := s.sag.trackers.set f (some ⟨.snapshot, x.label, 0, s.fe.cycleCount + 1,
          s.fe.cycleStart.time, 1, s.now, s.sag.claims⟩), claims := s.sag.claims + 1 } }
        .ok ([BitVec.ofNat 8 f.val] ++ [0, 0, 0] ++ timeBlock s.clock))
    ∧ (x.state = .surveying ∨ x.state = .paused ∨ (x.state = .checking ∧ x.returnState = some .paused) →
      (∀ f : Fin 4, s.sag.trackers[f] ≠ none) →
      Takes (.snapshot label) (.snapshot label) s s .trackerBusy [])
    ∧ (x.state = .drafted ∨ x.state = .ready ∨ x.state = .closed
        ∨ (x.state = .checking ∧ x.returnState ≠ some .paused) →
      Takes (.snapshot label) (.snapshot label) s s .wrongState []))
  ∧ ∀ (s : State) (b : AddNoteBody),
    (∀ a, b.textLength ≤ 480 → b.textLength ≤ b.text.length → b.label = 0 ∨ (s.siteOf b.label).isSome = true →
      (b.request = 255 ∧ a = .none) ∨ (b.request = 0 ∧ a = s.autoAnchor b.label)
        ∨ (b.request = 1 ∧ a = .namedEvent b.event ∧ ∃ x, s.siteOf b.label = some x ∧ b.label ≠ 0
          ∧ 1 ≤ b.event ∧ b.event < x.sag.nextEvent) →
      ∃ (u : State) (n : Option Nat), s.enter ⟨b.label, a, b.author, s.isClosed b.label,
          .note ((b.text.take b.textLength).map textByte)⟩ = (u, n)
        ∧ (∀ m, n = some m → Takes (.addNote b) (.addNote b) s u .ok
            (noteArea m a s.clock (u.lostTotal b.label)))
        ∧ (n = none → Takes (.addNote b) (.addNote b) s u .journalFull
            (noteArea 0 .none s.clock (u.lostTotal b.label))))
    ∧ (480 < b.textLength ∨ b.text.length < b.textLength ∨ b.request ∉ [0, 1, 255] →
      Takes (.addNote b) (.addNote b) s s .badValue [])
    ∧ (b.textLength ≤ 480 → b.textLength ≤ b.text.length → b.request ∈ [0, 1, 255] → b.label ≠ 0 →
      (∀ k x, s.site k = some x → x.label ≠ b.label) → Takes (.addNote b) (.addNote b) s s .unknownSite [])
    ∧ (b.textLength ≤ 480 → b.textLength ≤ b.text.length → b.request = 1 → b.label = 0 ∨
      (∃ x, s.siteOf b.label = some x ∧ (b.event = 0 ∨ x.sag.nextEvent ≤ b.event)) →
      Takes (.addNote b) (.addNote b) s s .badAnchor [])
    ∧ (s.siteOf b.label = none → s.autoAnchor b.label = .none)
    ∧ ∀ x, s.siteOf b.label = some x → (x.state = .closed → s.autoAnchor b.label = .none)
      ∧ (x.state ≠ .closed → x.openEvent ≠ 0 → s.autoAnchor b.label = .openEvent x.openEvent)
      ∧ (x.state ≠ .closed → x.openEvent = 0 → x.sag.lastClosed = none → s.autoAnchor b.label = .none)
      ∧ ∀ c, x.state ≠ .closed → x.openEvent = 0 → x.sag.lastClosed = some c → s.autoAnchor b.label
        = if s.clock.total ≤ c.endTime.total + 1000 * x.active.anchorWindow then .recentEvent c.number else .none

/-! ## The Record Store's orders and deliveries -/

/-- GIVE_PAGES judges each page in list order and answers a code for each (R125); FLUSH_STREAMS makes the queued
records of the named streams due and answers the summary after that (log 30; R133); SET_STORE_LEVELS takes
levels in their ranges (R134). Each page is judged against the state the page before it left, and a page is
judged by the first condition that holds: a reference that is not sound, a page held in the pool, the waiting
list or a delivery, a stream tail, a pinned page, a full pool; else it is Accepted (R125, R126). By the model's
choice the Bad Value of GIVE_PAGES and of SET_STORE_LEVELS comes before the Bad Order of a short result area (log
60). -/
def Obligations.StoreOrdersAreTaken : Prop :=
  ((∀ (s : State) (n r : Nat) (ps : List WRef),
    (1 ≤ n → n ≤ 64 → pad4 n + 4 ≤ r → ∃ (u : State) (codes : List PageCode), s.judgePages ps = (u, codes)
      ∧ codes.length = ps.length
      ∧ Takes (.givePages n ps r) (.givePages n ps r) s u .ok
          (padded (codes.map fun c => BitVec.ofNat 8 c.number) ++ le 2 u.store.pool.length
            ++ le 2 u.store.waiting.length))
    ∧ (n = 0 ∨ 64 < n → Takes (.givePages n ps r) (.givePages n ps r) s s .badValue [])
    ∧ (1 ≤ n → n ≤ 64 → r < pad4 n + 4 → Takes (.givePages n ps r) (.givePages n ps r) s s .badOrder []))
  ∧ (∀ (s : State) (m r : Nat),
    (88 ≤ r → ∃ u : State, Takes (.flushStreams m r) (.flushStreams m r) s u .ok u.store.summary
      ∧ u = { s with store := { s.store with queues := u.store.queues } }
      ∧ ∀ st, u.store.queues.get st = if m.testBit st.number then
          (s.store.queues.get st).map (fun q => { q with due := true }) else s.store.queues.get st)
    ∧ (r < 88 → Takes (.flushStreams m r) (.flushStreams m r) s s .badOrder []))
  ∧ ∀ (s : State) (l : StoreLevels) (r : Nat),
    ((∀ st, l.hold.get st ≤ 60) → l.pagesLow ≤ 255 → l.storeHigh ≤ 100 → 88 ≤ r → ∃ u : State,
      u = { s with store := { s.store with levels := l } }
      ∧ Takes (.setStoreLevels l r) (.setStoreLevels l r) s u .ok u.store.summary)
    ∧ ((∃ st, 60 < l.hold.get st) ∨ 255 < l.pagesLow ∨ 100 < l.storeHigh →
      Takes (.setStoreLevels l r) (.setStoreLevels l r) s s .badValue [])
    ∧ ((∀ st, l.hold.get st ≤ 60) → l.pagesLow ≤ 255 → l.storeHigh ≤ 100 → r < 88 →
      Takes (.setStoreLevels l r) (.setStoreLevels l r) s s .badOrder []))
  ∧ (∀ (s : State) (r : WRef) (p : Page) (held : Bool), p = ⟨r, s.lp.bus r⟩ →
    held = (holdsPage s.store.pool p || holdsPage s.store.waiting p || s.store.inFlight p) →
    (r = WRef.null ∨ s.lp.pageSound r true = false → s.judgePage r = (s, .badReference))
    ∧ (r ≠ WRef.null → s.lp.pageSound r true = true →
      (held = true → s.judgePage r = (s, .duplicate))
      ∧ (held = false → s.store.isTail p = true → s.judgePage r = (s, .isTail))
      ∧ (held = false → s.store.isTail p = false → s.store.pinned p = true → s.store.waiting.length < 64 →
        s.judgePage r = ({ s with store := { s.store with waiting := s.store.waiting ++ [p] } }, .waiting))
      ∧ (held = false → s.store.isTail p = false → s.store.pinned p = true → 64 ≤ s.store.waiting.length →
        s.judgePage r = (s, .poolFull))
      ∧ (held = false → s.store.isTail p = false → s.store.pinned p = false → 256 ≤ s.store.pool.length →
        s.judgePage r = (s, .poolFull))
      ∧ (held = false → s.store.isTail p = false → s.store.pinned p = false → s.store.pool.length < 256 →
        s.judgePage r = ({ s with store := { s.store with pool := s.store.pool ++ [p] } }, .accepted))))
  ∧ (∀ (s : State) (r : WRef) (rs : List WRef), s.judgePages [] = (s, [])
    ∧ s.judgePages (r :: rs) = (((s.judgePage r).1.judgePages rs).1,
        (s.judgePage r).2 :: ((s.judgePage r).1.judgePages rs).2))
  ∧ (∀ (lp : LinkPort) (r : WRef), lp.pageSound r true = true ↔ r.reserved = 0 ∧ ∃ h : r.window < 16, ∃ w : Window,
    lp.windows[r.window] = some w ∧ r.offset + 8192 ≤ w.length ∧ w.write = true ∧ (w.base + r.offset) % 8192 = 0)
  ∧ (∀ (m : RecordStore) (ps : List Page) (p : Page), (holdsPage ps p = true ↔ ∃ q, q ∈ ps ∧ q.bus = p.bus)
    ∧ (m.inFlight p = true ↔ ∃ st d, m.deliveries.get st = some d ∧ d.page.bus = p.bus)
    ∧ (m.isTail p = true ↔ ∃ st q, m.tails.get st = some q ∧ q.bus = p.bus)
    ∧ (m.pinned p = true ↔ ∃ e, e ∈ m.pins ∧ e.page.bus = p.bus))

/-- DELIVERY_START and HOLD_TIME_EXPIRY start a delivery whose conditions hold: it takes the pool head out of
the pool and the records that fit, and begins to write their bytes from the page's first body byte on, by one
access placed there (log 8); Pages Low is raised when the pool falls below its mark (R123, R128 to R130). A
waiting page that is no longer pinned follows into the pool (R126). The conditions are an Attended link with no
departure pending, a page in the pool, no delivery of the stream in flight, and a queue that is page-full or whose
head has waited its hold time or is due (R123, R129, R162); without them DELIVERY_START has no effect. -/
def Obligations.DeliveriesStart : Prop :=
  (∀ (s : State) (st : Stream) (p : Page) (ps : List Page), s.canDeliver st = true → s.store.pool = p :: ps →
    (∃ t d, exec (.deliveryStart st) s = .next t ∧ t.store.deliveries.get st = some d ∧ d.page = p
      ∧ d.stage = .records ∧ d.count = fitCount 8128 (s.store.queues.get st)
      ∧ d.access = ⟨.pageWrite, p.ref.window, p.ref.offset + 64,
          [(0, ((s.store.queues.get st).take d.count).flatMap fun q => q.record.bytes)], s.up⟩
      ∧ t.store.pool = ({ s.store with pool := ps } : RecordStore).releaseWaiting.pool
      ∧ (s.store.waiting = [] → t.store.pool = ps)
      ∧ (∀ o, o ≠ st → t.store.deliveries.get o = s.store.deliveries.get o
          ∧ t.store.queues.get o = s.store.queues.get o)
      ∧ (t.store.queues.get st).map Queued.record = (s.store.queues.get st).map Queued.record
      ∧ (t.store.queues.get st).map Queued.inDelivery = List.replicate d.count true
          ++ ((s.store.queues.get st).drop d.count).map Queued.inDelivery
      ∧ (t.attends .pagesLow = true ↔ s.attends .pagesLow = true
          ∨ (s.store.levels.pagesLow ≤ ps.length + 1 ∧ ps.length < s.store.levels.pagesLow))
      ∧ SameTime s t ∧ SameLink s t ∧ t.sites = s.sites ∧ t.print = s.print ∧ t.van = s.van)
    ∧ ∀ (dt : Nat) (s0 : State), s = s0.elapse dt → s.headWaited st = true →
        exec (.holdTimeExpiry dt st) s0 = exec (.deliveryStart st) s)
  ∧ (∀ (s : State) (st : Stream) (q : List Queued) (n : Nat), q = s.store.queues.get st → n = fitCount 8128 q →
    (s.canDeliver st = true ↔ s.lp.link = .attended ∧ s.lp.departure = none ∧ s.store.pool ≠ []
      ∧ s.store.deliveries.get st = none ∧ q ≠ []
      ∧ (n < q.length ∨ ((q.take n).map Queued.length).sum = 8128 ∨ s.headWaited st = true
        ∨ ∃ h, q.head? = some h ∧ h.due = true))
    ∧ (s.headWaited st = true ↔ ∃ h, q.head? = some h ∧ (s.clock.total < h.admitted.total
        ∨ 1000 * s.store.levels.hold.get st ≤ s.clock.total - h.admitted.total))
    ∧ (s.canDeliver st = false → exec (.deliveryStart st) s = .next s)
    ∧ ∀ dt, (s.elapse dt).headWaited st = false ∨ (s.elapse dt).canDeliver st = false →
        exec (.holdTimeExpiry dt st) s = .next (s.elapse dt))
  ∧ ∀ (room : Nat) (h : Queued) (q : List Queued), fitCount room [] = 0
    ∧ fitCount room (h :: q) = if h.length ≤ room then fitCount (room - h.length) q + 1 else 0

/-- PAGE_WRITE_DONE takes a delivery from its records to its header and on to its link; PAGE_LINK_WRITE_DONE
publishes the page (R130, R131). By the model's choice each stage is one access (log 40), the header's placed at
the page's offset and the link's at offset 20 of the tail page, or at 24 + 8 n of the anchor (log 8). -/
def Obligations.DeliveriesRunToPublication : Prop :=
  ∀ (dt : Nat) (s : State) (st : Stream) (d : Delivery), s.store.deliveries.get st = some d →
    (d.stage = .records → exec (.pageWriteDone dt st) s = .next { s.elapse dt with
      store := { s.store with deliveries := s.store.deliveries.set st (some { d with
        stage := .header, lostInHeader := s.store.lostSincePage.get st
        access := ⟨.pageWrite, d.page.ref.window, d.page.ref.offset,
          [(0, (s.elapse dt).pageHeader st d)], s.up + dt⟩ }) } })
    ∧ (∀ a : Access, d.stage = .header →
      (∀ tail, s.store.tails.get st = some tail → a = ⟨.pageLinkWrite, tail.ref.window, tail.ref.offset + 20,
        [(0, refBytes d.page.ref)], s.up + dt⟩) →
      (s.store.tails.get st = none → a = ⟨.streamStartWrite, 255, 24 + 8 * st.number,
        [(0, refBytes d.page.ref)], s.up + dt⟩) →
      exec (.pageWriteDone dt st) s = .next { s.elapse dt with
        store := { s.store with deliveries := s.store.deliveries.set st (some { d with
          stage := .link, access := a }) } })
    ∧ (d.stage = .link → exec (.pageLinkWriteDone dt st) s = .next { s.elapse dt with
      lp := { s.lp with attention := s.lp.attention ||| 2 }
      store := { s.store with
        queues := s.store.queues.set st ((s.store.queues.get st).drop d.count)
        lostSincePage := s.store.lostSincePage.set st (s.store.lostSincePage.get st - d.lostInHeader)
        tails := s.store.tails.set st (some d.page)
        pageSequence := s.store.pageSequence.set st (s.store.pageSequence.get st + 1)
        deliveries := s.store.deliveries.set st none } })

/-! ## The Print Engine -/

/-- QUEUE_PRINT joins a job to the queue with its page pins and one pin of each of its sites, advances the next
job number past the numbers in use, and answers the job's number and place; it is refused with Bad Order, Bad
Value, Unknown Site, Bad Reference, Queue Full or the code of its pins, in this order;
CANCEL_PRINT ends a job at once, or marks it while a frame or a read of it is in flight (R136 to
R140, R155). The items are in range by R139's table, a page item's reference needs the Read right and a record
offset up to 8,176 (R140), and a pin request is judged whole: Free Page, Pin Table Full, or one pin more on each
page (R127). Reserved bytes of an item are ignored, and a short flag other than 0 is set (log 23). By the
model's choice the lengths of the items are judged against the order's body (log 17), and the next number passes
over the numbers in use when it advances (log 31). -/
def Obligations.PrintOrdersAreTaken : Prop :=
  (∀ (s : State) (b : QueuePrintBody) (r : Nat) (es : List (List Byte)) (is : List RawItem),
    splitItems b.itemCount b.items = some es → parseItems es = some is → 1 ≤ b.copies → b.copies ≤ 9 →
    1 ≤ b.itemCount → b.itemCount ≤ 32 → 4 ≤ r →
    (∀ i, i ∈ is → i.label = 0 ∨ (s.findSlot i.label).isSome = true) → (∀ i, i ∈ is → i.refOk s.lp = true) →
    (∀ g, s.print.jobs.length < 8 →
      s.store.requestPins (distinctPages (is.flatMap (RawItem.page s.lp))) = .ok g → ∃ u : State,
      u.print.jobs = s.print.jobs ++ [⟨s.print.nextJob, .order, .queued, false, b.copies, 1,
        is.map (RawItem.item s.lp), 1, 1, none, 0, distinctSites (is.map RawItem.label),
        distinctPages (is.flatMap (RawItem.page s.lp)), 0, s.clock⟩]
      ∧ (∀ k x, s.site k = some x → s.findSlot x.label = some k → u.site k = some { x with
          pins := if x.label ∈ distinctSites (is.map RawItem.label) then x.pins + 1 else x.pins })
      ∧ (∀ n, n = (if 65535 ≤ s.print.nextJob then 1 else s.print.nextJob + 1) →
          (∀ j, j ∈ u.print.jobs → j.number ≠ n) → u.print.nextJob = n)
      ∧ (∀ j, j ∈ u.print.jobs → j.number ≠ u.print.nextJob)
      ∧ u.store = g ∧ SameTime s u ∧ u.lp = s.lp ∧ SameSites s u ∧ u.fe = s.fe ∧ u.device = s.device
      ∧ Takes (.queuePrint b r) (.queuePrint b r) s u .ok
          (le 2 s.print.nextJob ++ [BitVec.ofNat 8 (placeOf u.print.jobs s.print.nextJob)] ++ [0]))
    ∧ (8 ≤ s.print.jobs.length → Takes (.queuePrint b r) (.queuePrint b r) s s .queueFull [])
    ∧ (∀ c, s.print.jobs.length < 8 →
      s.store.requestPins (distinctPages (is.flatMap (RawItem.page s.lp))) = .error c →
      Takes (.queuePrint b r) (.queuePrint b r) s s c []))
  ∧ (∀ (s : State) (b : QueuePrintBody) (r : Nat),
    (r < 4 ∨ splitItems b.itemCount b.items = none → Takes (.queuePrint b r) (.queuePrint b r) s s .badOrder [])
    ∧ (∀ es, 4 ≤ r → splitItems b.itemCount b.items = some es →
      b.copies = 0 ∨ 9 < b.copies ∨ b.itemCount = 0 ∨ 32 < b.itemCount ∨ parseItems es = none →
      Takes (.queuePrint b r) (.queuePrint b r) s s .badValue [])
    ∧ ∀ es is i, 4 ≤ r → splitItems b.itemCount b.items = some es → parseItems es = some is →
      1 ≤ b.copies → b.copies ≤ 9 → 1 ≤ b.itemCount → b.itemCount ≤ 32 → i ∈ is →
      (i.label ≠ 0 → s.findSlot i.label = none → Takes (.queuePrint b r) (.queuePrint b r) s s .unknownSite [])
      ∧ ((∀ j, j ∈ is → j.label = 0 ∨ (s.findSlot j.label).isSome = true) → i.refOk s.lp = false →
        Takes (.queuePrint b r) (.queuePrint b r) s s .badReference []))
  ∧ (∀ (s : State) (n : Nat),
    ((∀ j, j ∈ s.print.jobs → j.number ≠ n) → Takes (.cancelPrint n) (.cancelPrint n) s s .unknownJob [])
    ∧ ∀ j, s.print.jobs.find? (fun k => k.number == n) = some j →
      (j.state = .printing → s.print.frame.isSome = true ∨ s.print.read.isSome = true →
        Takes (.cancelPrint n) (.cancelPrint n) s { s with print := { s.print with
          jobs := s.print.jobs.map fun k => if k.number = n then { k with cancelPending := true } else k } }
          .ok [1, 1, 0, 0])
      ∧ (j.state ≠ .printing ∨ (s.print.frame = none ∧ s.print.read = none) →
        Takes (.cancelPrint n) (.cancelPrint n) s (s.endJob j .cancelledOrder (j.copy - 1)) .ok
          ([BitVec.ofNat 8 j.state.number] ++ [0, 0, 0])))
  ∧ (∀ (e : List Byte) (kind length n label offset : Nat), kind = field e 0 1 → length = field e 1 1 →
    n = field e 2 1 → label = field e 4 2 → offset = field e 6 2 →
    (parseItem e ≠ none ↔ (kind = 0 ∧ length = 4 + (n + 3) / 4 * 4 ∧ n ≤ 120)
      ∨ (kind = 1 ∧ length = 8 ∧ 1 ≤ label) ∨ (kind = 2 ∧ length = 8 ∧ 1 ≤ label ∧ 1 ≤ n ∧ n ≤ 32)
      ∨ (kind ∈ [4, 6] ∧ length = 16 ∧ 1 ≤ label ∧ 64 ≤ offset ∧ offset % 4 = 0 ∧ (kind = 6 → n ≤ 7))
      ∨ (kind = 5 ∧ length = 16 ∧ 64 ≤ offset ∧ offset % 4 = 0) ∨ (kind = 7 ∧ length = 4 ∧ 1 ≤ n ∧ n ≤ 20)
      ∨ (kind = 8 ∧ length = 4))
    ∧ ∀ (lp : LinkPort) (i : RawItem) (p : Page), parseItem e = some i → p = ⟨parseRef e 8, lp.bus (parseRef e 8)⟩ →
      i.label = (if kind ∈ [1, 2, 4, 5, 6] then label else 0) ∧ i.page lp = (if kind ∈ [4, 5, 6] then [p] else [])
      ∧ (kind = 0 → i.item lp = .text (((e.drop 4).take n).map textByte))
      ∧ (kind = 1 → i.item lp = .siteHeader label (n != 0)) ∧ (kind = 2 → i.item lp = .eventTable label n)
      ∧ (kind = 4 → i.item lp = .interval label p offset) ∧ (kind = 5 → i.item lp = .note label p offset)
      ∧ (kind = 6 → ∃ input, input.number = n ∧ i.item lp = .captureStrip label p offset input)
      ∧ (kind = 7 → i.item lp = .feed n) ∧ (kind = 8 → i.item lp = .rule)
      ∧ (kind ∉ [4, 5, 6] → i.refOk lp = true)
      ∧ (kind ∈ [4, 5, 6] → (i.refOk lp = true ↔ offset ≤ 8176 ∧ (parseRef e 8).reserved = 0
        ∧ ∃ h : (parseRef e 8).window < 16, ∃ w : Window, lp.windows[(parseRef e 8).window] = some w
          ∧ (parseRef e 8).offset + 8192 ≤ w.length ∧ w.read = true ∧ (w.base + (parseRef e 8).offset) % 8192 = 0)))
  ∧ (∀ (n : Nat) (b : List Byte) (es : List (List Byte)) (is : List RawItem), splitItems 0 b = some []
    ∧ (b.length < 2 ∨ b.length < field b 1 1 → splitItems (n + 1) b = none)
    ∧ (2 ≤ b.length → field b 1 1 ≤ b.length → splitItems (n + 1) b
      = (splitItems n (b.drop (field b 1 1))).map fun l => b.take (max 2 (field b 1 1)) :: l)
    ∧ (parseItems es = some is ↔ es.map parseItem = is.map some))
  ∧ ∀ (m : RecordStore) (ps : List Page) (fresh : List Page),
    fresh = ps.filter (fun p => !m.pins.any fun e => e.page.bus == p.bus) →
    ((∃ p, p ∈ ps ∧ ((∃ q, q ∈ m.pool ∧ q.bus = p.bus) ∨ ∃ st d, m.deliveries.get st = some d ∧ d.page.bus = p.bus)) →
      m.requestPins ps = .error .freePage)
    ∧ ((∀ p, p ∈ ps → (∀ q, q ∈ m.pool → q.bus ≠ p.bus)
        ∧ ∀ st d, m.deliveries.get st = some d → d.page.bus ≠ p.bus) →
      (64 < m.pins.length + fresh.length → m.requestPins ps = .error .pinTableFull)
      ∧ (m.pins.length + fresh.length ≤ 64 → (ps.map Page.bus).Nodup → m.requestPins ps = .ok { m with
        pins := m.pins.map (fun e => if e.page.bus ∈ ps.map Page.bus then { e with count := e.count + 1 } else e)
          ++ fresh.map fun p => ⟨p, 1⟩ }))

/-- A job that ends releases its page pins and the pin of each of its sites, which lets waiting pages that are
no longer pinned go to the pool (R126, R127), hands on its Print Ended entry with its outcome, raises Attention
Print and leaves the queue (R154). -/
def Obligations.JobsEndWhole : Prop :=
  (∀ (s : State) (j : Job) (o : JobOutcome) (n : Nat), ∃ u w : State,
    { u with sites := s.sites, store := s.store } = s
    ∧ u.store = ({ s.store with pins := j.pages.foldl dropPin s.store.pins } : RecordStore).releaseWaiting
    ∧ (∀ k x, s.site k = some x → s.findSlot x.label = some k →
        u.site k = some { x with pins := x.pins - j.sites.count x.label })
    ∧ w = u.put 0 (.printEnded ⟨j.number, j.owner, o, n, if j.owner = .slip then j.sites.headD 0 else 0,
        j.event, j.lines, j.item, j.line⟩)
    ∧ s.endJob j o n = { w.raise .print with print := { s.print with
        jobs := s.print.jobs.filter fun k => k.number != j.number } })
  ∧ (∀ (s : State) (j : Job) (o : JobOutcome) (n : Nat), ∃ t, s.endJob j o n = t
    ∧ t.print = { s.print with jobs := s.print.jobs.filter fun k => k.number != j.number }
    ∧ t.attends .print = true ∧ t.store.pins = j.pages.foldl dropPin s.store.pins
    ∧ SameTime s t ∧ SameLink s t ∧ SameSites s t ∧ t.fe = s.fe ∧ t.check = s.check ∧ t.watch = s.watch
    ∧ t.sag = s.sag ∧ t.interval = s.interval
    ∧ (∀ k x, s.site k = some x → s.findSlot x.label = some k →
        ∃ y, t.site k = some y ∧ y.pins = x.pins - j.sites.count x.label)
    ∧ (s.device.state.exhausted = false → s.store.total + 48 ≤ 524288 →
        t.device.state.next = if s.device.state.next = 4294967295 then 4294967295 else s.device.state.next + 1))
  ∧ ∀ r : RecordStore,
    ((∀ p, p ∈ r.waiting → r.pinned p = true) → r.releaseWaiting = r)
    ∧ ∀ p ps, r.waiting = p :: ps → r.pinned p = false → r.pool.length < 256 →
      r.releaseWaiting = ({ r with waiting := ps, pool := r.pool ++ [p] } : RecordStore).releaseWaiting

/-- SET_PRINTER takes a timeout from 2 to 60 s, at once and also for a running timer, and answers the timeout
before and the line state; any other is Bad Value and changes nothing (R158). -/
def Obligations.SetPrinterSetsTheTimeout : Prop :=
  ∀ (s : State) (n : Nat),
    (2 ≤ n → n ≤ 60 → Takes (.setPrinter n) (.setPrinter n) s
      { s with print := { s.print with timeout := n } } .ok
      ([BitVec.ofNat 8 s.print.timeout] ++ [BitVec.ofNat 8 s.print.line.number] ++ [0, 0]))
    ∧ (n < 2 ∨ 60 < n → Takes (.setPrinter n) (.setPrinter n) s s .badValue [])

/-- The printer line takes the first that holds of Absent, Held (Paper), Held (Heat), Stalled, Sending and
Ready (R149). By the model's choice, with Busy high and none in force, it keeps a Held state that it leaves, and
is Stalled otherwise (log 33). -/
def Obligations.ThePrinterLineFollowsItsTable : Prop :=
  ∀ p : PrintEngine,
    (p.judged = false ∨ p.present = false → p.judge = .absent)
    ∧ (p.judged = true → p.present = true →
      (p.paperOut = true ∨ p.paperHold.isSome = true → p.judge = .heldPaper)
      ∧ (p.paperOut = false → p.paperHold = none →
        (p.headHot = true ∨ p.heatHold.isSome = true → p.judge = .heldHeat)
        ∧ (p.headHot = false → p.heatHold = none →
          (p.stall.isSome = true → p.judge = .stalled)
          ∧ (p.stall = none → p.frame.isSome = true → p.judge = .sending)
          ∧ (p.stall = none → p.frame = none → p.busy = false → p.judge = .ready)
          ∧ (p.stall = none → p.frame = none → p.busy = true → p.judge
              = if p.line = .heldPaper then .heldPaper else if p.line = .heldHeat then .heldHeat
                else .stalled))))

/-- BUSY_RISE drops Strobe; BUSY_FALL ends the byte, and the next one is strobed; the last one ends the frame
and its line (R150, R153, R155), or only the frame when a link Stop has abandoned it (R156). Without a frame
BUSY_RISE takes the line out of Ready, and BUSY_FALL clears a stall declared with Busy high and lets a held job
go on when the line is Ready again (R149, R151, R152). By the model's choice a fall leaves a stall declared with
Busy low (log 33), and a cancel that ends a job at its last line counts that copy (log 32). -/
def Obligations.BusyMovesTheFrame : Prop :=
  (∀ (dt : Nat) (s : State), s.print.frame = none →
    (∀ p, s.print.busy = false → p = { s.print with busy := true, strobe := false } →
      ∃ t, exec (.busyRise dt) s = .next t ∧ t.print.busy = true ∧ t.print.strobe = false ∧ t.print.frame = none
        ∧ t.print.line = p.judge ∧ t.print.line ≠ .ready ∧ OnlyPrinter s t dt)
    ∧ (∀ p, s.print.busy = true → p = { s.print with
        busy := false, stall := s.print.stall.filter (·.busyLow) } →
      ∃ t, exec (.busyFall dt) s = .next t ∧ t.print.busy = false ∧ t.print.stall = p.stall
        ∧ (p.judge ≠ .ready → t.print.line = p.judge ∧ t.print.frame = none)
        ∧ (p.judge = .ready → (t.print.line = .ready ∨ t.print.line = .sending)
          ∧ ∀ j, j ∈ t.print.jobs → j.state ≠ .held .paper ∧ j.state ≠ .held .heat)
        ∧ OnlyPrinter s t dt))
  ∧ ∀ (dt : Nat) (s : State) (f : Frame), s.print.frame = some f → s.print.judged = true →
    (s.print.busy = false → exec (.busyRise dt) s = .next { s.elapse dt with
      print := PrintEngine.setLine { s.print with busy := true, strobe := false } })
    ∧ (∀ a b rest, s.print.busy = true → f.bytes = a :: b :: rest → exec (.busyFall dt) s = .next
      { s.elapse dt with print := { s.print with
        busy := false, stall := s.print.stall.filter (·.busyLow)
        data := b, strobe := true, frame := some ⟨b :: rest, s.up + dt, false⟩ } })
    ∧ (∀ a j, s.print.busy = true → f.bytes = [a] → f.abandoned = false → s.print.current = some j →
      ∃ u : State, u = { s.elapse dt with print := PrintEngine.setLine { s.print with
          busy := false, stall := s.print.stall.filter (·.busyLow), frame := none } }
        ∧ ∀ j', u.print.current = some j' → exec (.busyFall dt) s = .next (u.completeLine j').work)
    ∧ (∀ a, s.print.busy = true → f.bytes = [a] → f.abandoned = true →
      ∃ u : State, u = { s.elapse dt with print := PrintEngine.setLine { s.print with
          busy := false, stall := s.print.stall.filter (·.busyLow), frame := none } }
        ∧ exec (.busyFall dt) s = .next u.work ∧ (s.print.jobs = [] → exec (.busyFall dt) s = .next u))
    ∧ ∀ (u : State) (j : Job),
      (∀ n, { j with lines := j.lines + 1 }.advance = some n → j.cancelPending = false →
        u.completeLine j = { u with print := { u.print with
          jobs := u.print.jobs.map fun k => if k.number = j.number then n else k } })
      ∧ (∀ n, { j with lines := j.lines + 1 }.advance = some n → j.cancelPending = true →
        u.completeLine j = u.endJob n .cancelledOrder (n.copy - 1))
      ∧ ({ j with lines := j.lines + 1 }.advance = none → j.cancelPending = true →
        u.completeLine j = u.endJob { j with lines := j.lines + 1 } .cancelledOrder j.copy)
      ∧ ({ j with lines := j.lines + 1 }.advance = none → j.cancelPending = false → j.copies ≤ j.copy →
        u.completeLine j = u.endJob { j with lines := j.lines + 1 } .done j.copy)
      ∧ ({ j with lines := j.lines + 1 }.advance = none → j.cancelPending = false → j.copy < j.copies →
        u.completeLine j = { u with print := { u.print with
          jobs := u.print.jobs.map fun k => if k.number = j.number then { j with
            lines := j.lines + 1, copy := j.copy + 1, item := 1, line := 1, content := none } else k } })

/-- PAPER_OUT_CHANGE, HEAD_HOT_CHANGE and PRESENT_CHANGE: a signal that stops the printer abandons the frame,
drops Strobe and holds the job at its item and line, with the reason Heat for the head alone and Paper
otherwise; one that ends begins its 1 s; PRINTER_HOLD_CLEARED ends a hold of 1 s (R149, R151). -/
def Obligations.SignalsStopThePrinter : Prop :=
  ∀ (dt : Nat) (s : State),
    (s.print.paperOut = false → ∃ t, exec (.paperOutChange dt true) s = .next t ∧ t.print.paperOut = true
      ∧ t.print.paperHold = none ∧ t.print.frame = none
      ∧ (s.print.frame.isSome = true → t.print.strobe = false) ∧ PrinterFrame s t dt
      ∧ ∀ f j, s.print.frame = some f → f.abandoned = false → s.print.current = some j →
        j.cancelPending = false → (∀ k, k ∈ s.print.jobs → k.number = j.number → k = j) →
        t.print.current = some { j with state := .held .paper })
    ∧ (s.print.paperOut = true → ∃ t, exec (.paperOutChange dt false) s = .next t ∧ t.print.paperOut = false
      ∧ t.print.paperHold = (if s.print.judged then some (s.up + dt) else none) ∧ OnlyPrinter s t dt)
    ∧ (s.print.headHot = false → ∃ t, exec (.headHotChange dt true) s = .next t ∧ t.print.headHot = true
      ∧ t.print.heatHold = none ∧ t.print.frame = none
      ∧ (s.print.frame.isSome = true → t.print.strobe = false) ∧ PrinterFrame s t dt
      ∧ ∀ f j, s.print.frame = some f → f.abandoned = false → s.print.current = some j →
        j.cancelPending = false → s.print.judged = true → s.print.present = true → s.print.paperOut = false →
        s.print.paperHold = none → (∀ k, k ∈ s.print.jobs → k.number = j.number → k = j) →
        t.print.current = some { j with state := .held .heat })
    ∧ (s.print.headHot = true → ∃ t, exec (.headHotChange dt false) s = .next t ∧ t.print.headHot = false
      ∧ t.print.heatHold = (if s.print.judged then some (s.up + dt) else none) ∧ OnlyPrinter s t dt)
    ∧ (s.print.present = true → ∃ t, exec (.presentChange dt false) s = .next t ∧ t.print.present = false
      ∧ t.print.frame = none ∧ (s.print.frame.isSome = true → t.print.strobe = false) ∧ PrinterFrame s t dt
      ∧ ∀ f j, s.print.frame = some f → f.abandoned = false → s.print.current = some j →
        j.cancelPending = false → (∀ k, k ∈ s.print.jobs → k.number = j.number → k = j) →
        t.print.current = some { j with state := .held .paper })
    ∧ (s.print.present = false → ∃ t, exec (.presentChange dt true) s = .next t ∧ t.print.present = true
      ∧ OnlyPrinter s t dt)
    ∧ (∀ since, s.print.paperHold = some since → since + 1000 ≤ s.up + dt →
      ∃ t, exec (.printerHoldCleared dt) s = .next t ∧ t.print.paperHold = none ∧ OnlyPrinter s t dt)
    ∧ (∀ since, s.print.heatHold = some since → since + 1000 ≤ s.up + dt →
      ∃ t, exec (.printerHoldCleared dt) s = .next t ∧ t.print.heatHold = none ∧ OnlyPrinter s t dt)

/-- PRINTER_STALL declares a stall when the handshake timer reaches the printer timeout: Strobe drops, the
line is Stalled and the job ends Failed (Printer Stalled), or Cancelled (Order) when its cancel is pending;
STALL_CLEAR ends a stall declared with Busy low after 1 s (R152, R154, R155). -/
def Obligations.StallsAreDeclaredAndCleared : Prop :=
  ∀ (dt : Nat) (s : State),
    (∀ f j, s.print.frame = some f → f.abandoned = false → f.timer + s.print.timeout * 1000 ≤ s.up + dt →
      s.print.paperOut = false → s.print.headHot = false → s.print.present = true → s.print.judged = true →
      s.print.paperHold = none → s.print.heatHold = none → s.print.current = some j →
      ∃ t, exec (.printerStall dt) s = .next t
        ∧ (j.state = .printing → t = State.endJob { s.elapse dt with print := PrintEngine.setLine { s.print with
            frame := none, strobe := false, stall := some ⟨!s.print.busy, s.up + dt⟩ } } j
          (if j.cancelPending then .cancelledOrder else .failedStall) (j.copy - 1))
        ∧ t.print.frame = none ∧ t.print.strobe = false
        ∧ t.print.stall = some ⟨!s.print.busy, s.up + dt⟩ ∧ t.print.line = .stalled
        ∧ (∀ k, k ∈ t.print.jobs → k.number ≠ j.number) ∧ t.attends .print = true
        ∧ PrinterFrame s t dt)
    ∧ (∀ x, s.print.stall = some x → x.busyLow = true → x.since + 1000 ≤ s.up + dt →
      ∃ t, exec (.stallClear dt) s = .next t ∧ t.print.stall = none ∧ OnlyPrinter s t dt)

/-- PRINT_JOB_START starts the first Queued job on a Ready line: an item from the part's own state is taken
and its first line sent, a page item is read, or the job is Held (Link) (R138, R142, R143, R150). -/
def Obligations.JobsStartOnAReadyLine : Prop :=
  ∀ (s : State) (j : Job) (js : List Job) (item : Item), s.print.line = .ready →
    s.print.jobs = j :: js → j.state = .queued → (∀ k, k ∈ js → k.state = .queued ∧ k.number ≠ j.number) →
    j.items[j.item - 1]? = some item → j.content = none → j.line = 1 → s.print.read = none →
    s.print.frame = none →
    (∀ l ls, item.source = none → s.itemLines item = l :: ls → ∃ t, exec .printJobStart s = .next t
      ∧ t.print.strobe = true ∧ t.print.frame = some ⟨frameBytes l, s.up, false⟩
      ∧ some t.print.data = (frameBytes l).head? ∧ (∃ k, t.print.jobs.head? = some k
          ∧ k.number = j.number ∧ k.content = some (l :: ls))
      ∧ { t with print := s.print } = s)
    ∧ (∀ n page offset, item.source = some (n, page, offset) → s.linkOpen = true →
      exec .printJobStart s = .next { s with print := { s.print with
        jobs := { j with state := .printing } :: js
        read := some ⟨j.number, .header, ⟨.recordRead, page.ref.window, page.ref.offset + offset, [], s.up⟩⟩ } })
    ∧ (∀ n page offset, item.source = some (n, page, offset) → s.linkOpen = false →
      exec .printJobStart s = .next { s with print := { s.print with
        jobs := { j with state := .held .link } :: js } })

/-- RECORD_READ_DONE: the header read either finds the record, by its length, kind and site label (log 43),
whose rest is then read, or gives the item's "not found" line; the rest, a second access placed 16 bytes after
the first (log 8), completes the item's content; a cancel pending ends the job (R143, R155). -/
def Obligations.RecordReadsGiveTheirLines : Prop :=
  ∀ (dt : Nat) (s : State) (r : RecordRead) (j : Job) (item : Item) (b : List Byte), s.print.read = some r →
    s.print.current = some j → j.items[j.item - 1]? = some item →
    (r.stage = .header → b.length = 16 → headerFound item b = true → field b 0 2 ≠ 16 →
      exec (.recordReadDone dt b) s = .next { s.elapse dt with print := { s.print with
        read := some { r with
          stage := .rest b
          access := { r.access with offset := r.access.offset + 16, issued := s.up + dt } } } })
    ∧ (r.stage = .header → b.length = 16 → headerFound item b = false →
      exec (.recordReadDone dt b) s = .next ((s.elapse dt).endRead j notFoundLines))
    ∧ (r.stage = .header → b.length = 16 → headerFound item b = true → field b 0 2 = 16 →
      exec (.recordReadDone dt b) s = .next ((s.elapse dt).endRead j (recordLines item b)))
    ∧ (∀ h, r.stage = .rest h → b.length = field h 0 2 - 16 →
      exec (.recordReadDone dt b) s = .next ((s.elapse dt).endRead j (recordLines item (h ++ b))))
    ∧ ∀ (u : State) (ls : List PrintLine),
      (j.cancelPending = true → u.endRead j ls
        = State.endJob { u with print := { u.print with read := none } } j .cancelledOrder (j.copy - 1))
      ∧ (j.cancelPending = false → u.endRead j ls = State.work { u with print := { u.print with
          read := none
          jobs := u.print.jobs.map fun k => if k.number = j.number then { k with content := some ls } else k } })

/-! ## The Van Line Unit -/

/-- SET_VAN_LINES replaces the four settings and nothing else, and answers the old ones with the levels; a
value out of range or Pause Live Site on Mark is Bad Value, a result area below 12 bytes Bad Order (log 48;
R161). None is numbered 255 and the others from 0 (log 7, R179). -/
def Obligations.SetVanLinesReplacesTheSettings : Prop :=
  ∀ (s : State) (b : PerLine LineSettingBody) (r : Nat),
    (∀ new : VanLine → EdgeSense × LineAction,
      (∀ l, parseSense (b.get l).sense = some (new l).1 ∧ parseAction (b.get l).action = some (new l).2) →
      (new .mark).2 ≠ .pauseLiveSite → 12 ≤ r →
      Takes (.setVanLines b r) (.setVanLines b r) s { s with van := { s.van with
        lines := PerLine.of fun l => { s.van.lines.get l with sense := (new l).1, action := (new l).2 } } } .ok
        ((VanLine.all.flatMap fun l => [BitVec.ofNat 8 (edgeSenseNumber (s.van.lines.get l).sense),
            BitVec.ofNat 8 (lineActionNumber (s.van.lines.get l).action)])
          ++ VanLine.all.map fun l => BitVec.ofNat 8 (levelNumber (s.van.lines.get l).level)))
    ∧ ((∃ l, parseSense (b.get l).sense = none ∨ parseAction (b.get l).action = none)
        ∨ parseAction b.mark.action = some .pauseLiveSite →
      Takes (.setVanLines b r) (.setVanLines b r) s s .badValue [])
    ∧ ((∀ l, parseSense (b.get l).sense ≠ none ∧ parseAction (b.get l).action ≠ none) →
      parseAction b.mark.action ≠ some .pauseLiveSite → r < 12 →
      Takes (.setVanLines b r) (.setVanLines b r) s s .badOrder [])
    ∧ (∀ n, (parseSense n = none ↔ n ∉ [0, 1, 2, 255]) ∧ (parseAction n = none ↔ n ∉ [0, 1, 2, 255]))

/-- VAN_LINE_CHANGE starts, restarts or drops the pending change; LINE_DEBOUNCED takes the level after 20 ms,
and a matching edge performs the line's action and raises Attention Van Line (R159, R160). After a reset the
20 ms begin again at every change, and the first level is taken without an edge (log 22). A Wake edge on a
Resting part asks for WAKE and begins the wake delay; during the delay it changes nothing (R164, R167). -/
def Obligations.VanLinesAreDebounced : Prop :=
  ∀ (dt : Nat) (s : State) (l : VanLine) (x : LineState), s.van.lines.get l = x →
    (∀ v, v ≠ x.raw → x.settling = none → exec (.vanLineChange dt l v) s = .next { s.elapse dt with
      van := { s.van with lines := s.van.lines.set l { x with
        raw := v
        pendingChange := if v = x.level then none else some ⟨s.clock.advance dt, s.up + dt⟩ } } })
    ∧ (∀ v n, v ≠ x.raw → x.settling = some n → exec (.vanLineChange dt l v) s = .next { s.elapse dt with
      van := { s.van with lines := s.van.lines.set l { x with raw := v, settling := some (s.up + dt) } } })
    ∧ (∀ n, x.settling = some n → n + 20 ≤ s.up + dt → exec (.lineDebounced dt l) s = .next { s.elapse dt with
      van := { s.van with lines := s.van.lines.set l { x with level := x.raw, settling := none } } })
    ∧ (∀ p u, x.settling = none → x.pendingChange = some p → p.up + 20 ≤ s.up + dt →
      u = { s.elapse dt with van := { s.van with
        lines := s.van.lines.set l { x with level := x.raw, pendingChange := none } } } →
      (s.lp.part = .running ∨ s.lp.part = .resting → edgeMatches x.sense (edgeTo x.raw) = true →
        exec (.lineDebounced dt l) s = .next ((u.lineAction l x.action (edgeTo x.raw) x.raw p.time).raise
          .vanLine))
      ∧ ((s.lp.part = .selfTest ∨ s.lp.part = .broken) ∨ edgeMatches x.sense (edgeTo x.raw) = false →
        exec (.lineDebounced dt l) s = .next u))
    ∧ ∀ (u : State) (e : Edge) (v : Level) (t : Time),
      u.lineAction l .none e v t = u
      ∧ (l ≠ .mark → u.lineAction l .journal e v t = u.put u.liveLabel (.line l e v none t))
      ∧ (l ≠ .mark → u.liveSlot = none →
        u.lineAction l .pauseLiveSite e v t = u.put 0 (.line l e v (some .noSite) t))
      ∧ (∀ k y, l ≠ .mark → Live u k y → y.state = .surveying → u.lineAction l .pauseLiveSite e v t
          = (u.pause k y.label (some l)).lineEntry l e v (some .paused) t)
      ∧ (∀ k y, l ≠ .mark → Live u k y → y.state ≠ .surveying →
        u.lineAction l .pauseLiveSite e v t = u.put y.label (.line l e v (some .notSurveying) t))
      ∧ (u.lp.part = .running → u.lineAction l .wake e v t = u.wakeRequest (.line l))
      ∧ (∀ r w, u.lp.part = .resting → u.van.rest = some r → r.exit = none → w = u.wakeRequest (.line l) →
        u.lineAction l .wake e v t = { w with van := { w.van with
          source := .line l, rest := some ⟨r.began, some ⟨.line l, ⟨u.clock, u.up⟩, false⟩⟩ } })
      ∧ (∀ r, u.lp.part = .resting → u.van.rest = some r → r.exit.isSome = true →
        u.lineAction l .wake e v t = u)
      ∧ ∀ w, w = u.putAnchored u.liveLabel (u.autoAnchor u.liveLabel) (.mark e u.van.nextMark t) →
        u.lineAction .mark .journal e v t = { w with van := { w.van with
          nextMark := if 65535 ≤ u.van.nextMark then 1 else u.van.nextMark + 1 } }

/-- AWAY and REST make a departure pending, Rest only with no live site and no job; LINK_BECOMES_AWAY makes
the link Away with its entry once nothing is in flight, and a Rest departure makes the part Rest (R162, R166).
WAKE_DELAY_END, 50 ms after the exit, makes the part Running with the printer line judged and the Woke entry;
an exit by Back, or one remembered, brings an Away link back (R167). -/
def Obligations.DeparturesAndTheWakeDelay : Prop :=
  (∀ s : State,
    Takes .away .away s { s with lp := { s.lp with departure := some ⟨.away, s.now⟩ } } .ok []
    ∧ (s.liveSlot = none → s.print.jobs = [] →
      Takes .rest .rest s { s with lp := { s.lp with departure := some ⟨.rest, s.now⟩ } } .ok [])
    ∧ (s.liveSlot ≠ none ∨ s.print.jobs ≠ [] → Takes .rest .rest s s .wrongState [])
    ∧ (∀ d u, s.lp.departure = some d → s.lp.walker = .stopped → s.lp.link = .attended → s.print.read = none →
      (∀ st, s.store.deliveries.get st = none) →
      u = State.put { s with lp := { s.lp with link := .away, departure := none, awaySince := some s.now } } 0
        (.away d.cause s.store.pool.length s.store.total d.ordered.time) →
      (d.cause = .away → exec .linkBecomesAway s = .next u)
      ∧ (d.cause = .rest → exec .linkBecomesAway s = .next { u with
          lp := { u.lp with part := .resting }
          print := { u.print with
            frame := none, strobe := false, judged := false, paperHold := none, heatHold := none
            stall := none, line := .absent }
          van := { u.van with rest := some ⟨s.now, none⟩ } }))
    ∧ (s.lp.departure = none ∨ s.print.read.isSome = true ∨ (∃ st, (s.store.deliveries.get st).isSome = true) →
      exec .linkBecomesAway s = .next s))
  ∧ (∀ (dt : Nat) (s : State) (r : RestRecord) (e : RestExit), s.lp.part = .resting → s.van.rest = some r →
    r.exit = some e →
    (e.at_.up + 50 ≤ s.up + dt → ∃ t, exec (.wakeDelayEnd dt) s = .next t ∧ t.lp.part = .running
      ∧ t.van.rest = none ∧ t.print.judged = true ∧ SameSites s t ∧ SameMeasuring s t
      ∧ t.pending = s.pending ∧ t.up = s.up + dt ∧ t.clock = s.clock.advance dt ∧ t.van.lines = s.van.lines
      ∧ (e.source ≠ .back → e.backRemembered = false → t.lp.link = s.lp.link)
      ∧ (e.source = .back ∨ e.backRemembered = true → s.lp.link = .away → t.lp.link = .attended
        ∧ t.van.wake = .low)
      ∧ (e.source = .back ∨ e.backRemembered = true → s.lp.link = .idle → t.lp.link = .idle)
      ∧ ∃ u : State, u = State.put (State.settle { s.elapse dt with
            lp := { s.lp with part := .running }, van := { s.van with rest := none }
            print := { s.print with judged := true, paperHold := none, heatHold := none } }) 0
          (.woke s.van.source r.began.time e.at_.time)
        ∧ ((e.source ≠ .back ∧ e.backRemembered = false) ∨ s.lp.link = .idle → t = u)
        ∧ ∀ away, e.source = .back ∨ e.backRemembered = true → s.lp.link = .away → s.lp.awaySince = some away →
          ∃ w : State, w = State.put { u with
              lp := { u.lp with link := .attended, awaySince := none }, van := { u.van with wake := .low } } 0
              (.back u.van.source u.van.wake u.store.total away.time)
            ∧ t = State.linkReturns { w with lp := { w.lp with walker := .waiting (s.up + dt) } })
    ∧ (s.up + dt < e.at_.up + 50 → exec (.wakeDelayEnd dt) s = .next (s.elapse dt)))


/-! ## The Front End -/

/-- CYCLE_END, once the cycle's end has come: the clock and its good-cycle count move by R24's table, the cycle
enters the ring and each tracker counts it, and a reference chosen since takes over, with the good-cycle count
as it stands (R24, R25, R27, R33, R77; log 13). A good Locked cycle ends at the first crossing after its start,
whatever crosses later; a cycle that leaves Locked, and every cycle of Seeking and Free-Run, ends at its nominal
length from its own start, 20,000,000 or 16,666,667 ns (log 14). ZERO_CROSSING stamps the frequency measured
since the crossing before; the first one measures none (R25). A cycle is good by its last stamped frequency and
the reference's RMS (R24). LOCK_ACQUIRED makes a clock with five good cycles Locked, and the cycle that then
starts counts as Locked (R24; log 14). -/
def Obligations.TheCycleClockFollowsItsTable : Prop :=
  (∀ (dt : Nat) (s : State) (k : Fin 8) (x : Site) (fin : Nat) (good : Bool), Live s k x →
    s.fe.clock ≠ .stopped → s.fe.halvesInCycle = 2 → s.fe.cyclesInBlock < blockCycles x.frequency →
    s.fe.cycleEnd x = (fin, good) →
    (s.up + dt < fin / 1000000 → exec (.cycleEnd dt) s = .next (s.elapse dt))
    ∧ (fin / 1000000 ≤ s.up + dt → ∃ t, exec (.cycleEnd dt) s = .next t
      ∧ (s.fe.clock = .seeking ∨ s.fe.clock = .freeRun → t.fe.clock = s.fe.clock
          ∧ t.fe.good = if good then min 5 (s.fe.good + 1) else 0)
      ∧ (s.fe.clock = .locked → good = true → t.fe.clock = .locked ∧ t.fe.good = 5)
      ∧ (s.fe.clock = .locked → good = false → t.fe.clock = .freeRun ∧ t.fe.good = 0)
      ∧ t.fe.cycleStart = ⟨s.fe.cycleStart.time.advance (fin / 1000000 - s.fe.cycleStart.up), fin / 1000000⟩
      ∧ t.fe.cycleNs = fin % 1000000 ∧ t.fe.cycleCount = s.fe.cycleCount + 1 ∧ t.fe.halvesInCycle = 0
      ∧ t.fe.cyclesInBlock = s.fe.cyclesInBlock + 1 ∧ (t.fe.cycleLocked = true ↔ t.fe.clock = .locked)
      ∧ t.fe.lockedCycles = (if s.fe.cycleLocked then s.fe.lockedCycles + 1 else s.fe.lockedCycles)
      ∧ t.fe.frequencies = s.fe.frequencies
          ++ (if s.fe.cycleLocked then (s.fe.measuredBy fin).toList else [])
      ∧ t.fe.reference = s.fe.nextReference.getD s.fe.reference ∧ t.fe.nextReference = none
      ∧ (t.fe.reference = s.fe.reference → t.fe.crossings = s.fe.crossings.filter (fun c => fin < c.at_)
          ∧ t.fe.lastCrossing = s.fe.lastCrossing)
      ∧ (t.fe.reference ≠ s.fe.reference → t.fe.crossings = [] ∧ t.fe.lastCrossing = none)
      ∧ t.fe.mapInForce = some x.map
      ∧ (∀ i, t.fe.squares.get i = s.fe.squares.get i + s.fe.cycleSquares.get i
        ∧ t.fe.cycleSquares.get i = 0 ∧ t.fe.samples.get i = [])
      ∧ (∀ i n, n < 256 → s.fe.waves.get i = [] ∨ (s.fe.waves.get i).length = 256 →
        (t.fe.waves.get i).getD n 0 = (s.fe.waves.get i).getD n 0 + (s.fe.samples.get i).getD n 0
          * (countWorth i ((s.fe.mapInForce.getD x.map).get i) : Int))
      ∧ t.fe.ring.getLast? = some (s.fe.ringCycle (s.fe.mapInForce.getD x.map))
      ∧ (s.fe.ring.length ≤ 16 → t.fe.ring.length ≤ 16)
      ∧ (∀ (f : Fin 4) (r : Tracker), s.sag.trackers[f] = some r → t.sag.trackers[f] = some { r with
          remaining := if r.trigger < s.fe.cycleCount + 1 then r.remaining - 1 else r.remaining })
      ∧ (∀ f : Fin 4, s.sag.trackers[f] = none → t.sag.trackers[f] = none)
      ∧ { t with fe := s.fe, sag := { t.sag with trackers := s.sag.trackers } } = s.elapse dt))
  ∧ (∀ (f : FrontEnd) (x : Site) (nominal : Nat), nominal = f.cycleStart.up * 1000000 + f.cycleNs
        + (if x.frequency = 60 then 16666667 else 20000000) →
    (∀ c cs, f.clock = .locked → f.cycleLocked = true → f.crossings = c :: cs →
      f.cycleEnd x = if f.goodBy x c.at_ then (c.at_, true) else (nominal, false))
    ∧ (f.clock = .locked → f.cycleLocked = true → f.crossings = [] → f.cycleEnd x = (nominal, false))
    ∧ (f.clock ≠ .locked ∨ f.cycleLocked = false → f.cycleEnd x = (nominal, f.goodBy x nominal)))
  ∧ (∀ (f : FrontEnd) (x : Site) (fin : Nat),
    (x.frequency = 50 ∨ x.frequency = 60 → (f.goodBy x fin = true ↔
      ∃ r q, f.reference = some r ∧ f.measuredBy fin = some q ∧ (x.frequency = 50 → 45000 ≤ q ∧ q ≤ 55000)
        ∧ (x.frequency = 60 → 54000 ≤ q ∧ q ≤ 66000)
        ∧ 2000 ≤ percentOf (rmsOf r (f.cycleSquares.get r) 256) x.nominalVoltage))
    ∧ ∀ q, f.measuredBy fin = some q ↔ ∃ before c after, f.crossings = before ++ c :: after ∧ c.at_ ≤ fin
      ∧ c.frequency = some q ∧ ∀ d, d ∈ after → d.at_ ≤ fin → d.frequency = none)
  ∧ ∀ (dt ns at_ : Nat) (s : State), at_ = (s.up + dt) * 1000000 + ns →
    (s.fe.clock ≠ .stopped → s.fe.reference.isSome = true → (∀ p, s.fe.lastCrossing = some p → p < at_) →
      exec (.zeroCrossing dt ns) s = .next { s.elapse dt with fe := { s.fe with
        lastCrossing := some at_
        crossings := if s.fe.cycleStart.up * 1000000 + s.fe.cycleNs < at_ then s.fe.crossings
            ++ [⟨at_, s.fe.lastCrossing.map fun p => roundDiv 1000000000000 (at_ - p)⟩]
          else s.fe.crossings } })
    ∧ (s.fe.clock = .stopped ∨ s.fe.reference = none ∨ (∃ p, s.fe.lastCrossing = some p ∧ at_ ≤ p) →
      exec (.zeroCrossing dt ns) s = .next (s.elapse dt))
    ∧ (s.fe.good = 5 → s.fe.clock = .seeking ∨ s.fe.clock = .freeRun →
      exec .lockAcquired s = .next { s with fe := { s.fe with
        clock := .locked, cycleLocked := decide (s.fe.halvesInCycle = 0) } })
    ∧ (s.fe.good ≠ 5 ∨ s.fe.clock = .stopped ∨ s.fe.clock = .locked → exec .lockAcquired s = .next s)

/-- HALF_CYCLE_END: the half-cycle is counted and its value set made and handed on (R28, R29); on a Surveying
site the detectors move by R62's table, and an event opens, joins, gains its class, closes Recovered before the
half-cycle, whose values its members no longer take, or closes Lead Lost after a loss that came ahead of the set
(R66 to R69, R71); lead watch moves by R54's table in every live state, and a loss is due when the loss run has
then lasted the holdoff in force (R53 to R55). The samples are taken with the inversion and limits of R21 and
R22. Inputs that go Low together are members in input order (the model's choice, log 50). That the close after a
loss ahead of the set waits for that set is log 25. -/
def Obligations.HalfCyclesMoveDetectorsAndLeadWatch : Prop :=
  (∀ (dt : Nat) (samples : PerInput (List Int)) (s : State) (k : Fin 8) (x : Site) (set : ValueSet)
      (measures vals : PerInput (Option Nat)) (moved : PerInput (Option Detector)) (low : List Input)
      (fin : Stamp),
    Live s k x → s.fe.clock ≠ .stopped → s.fe.halvesInCycle < 2 → s.fe.cyclesInBlock < blockCycles x.frequency →
    fin = ⟨s.clock.advance dt, s.up + dt⟩ →
    measures = presenceMeasures (s.fe.mapInForce.getD x.map) x.nominalVoltage samples →
    set = s.fe.valueSet x (fun i => (s.sag.lostAhead.get i).isSome) samples fin → vals = set.percents →
    moved = PerInput.of (fun i => (s.sag.detectors.get i).map (Detector.move (s.detectionSet x) (vals.get i))) →
    low = Input.voltages.filter (fun i => s.sag.detectors.get i == some .normal && moved.get i == some .low) →
    ∃ t, exec (.halfCycleEnd dt samples) s = .next t
      ∧ t.fe = s.fe.takeHalf (s.fe.mapInForce.getD x.map) samples fin set
      ∧ t.fe.halfCount = s.fe.halfCount + 1 ∧ t.fe.lastHalfStart = s.fe.lastHalfEnd ∧ t.fe.lastHalfEnd = fin
      ∧ t.fe.lastSet = some set
      ∧ (∀ i, t.fe.samples.get i = s.fe.samples.get i
          ++ cookSamples ((s.fe.mapInForce.getD x.map).get i) (samples.get i))
      ∧ (∀ i, t.watch.get i = (s.watch.get i).map
          (watchMeasure x.map x.active measures s.fe.lastHalfEnd fin i))
      ∧ (x.state ≠ .surveying → { t.sag with lostAhead := s.sag.lostAhead } = s.sag ∧ t.interval = s.interval)
      ∧ (x.state = .surveying → t.sag.detectors = moved
        ∧ (s.sag.openEvent = none → low = [] → t.sag.openEvent = none)
        ∧ (s.sag.openEvent = none → low ≠ [] → t.attends .event = true ∧ ∃ e, t.sag.openEvent = some e
          ∧ e.number = x.sag.nextEvent ∧ e.start = s.fe.lastHalfEnd ∧ e.halves = 1 ∧ e.limits = x.active
          ∧ e.version = x.version ∧ e.members.map Member.input = low
          ∧ e.cls = (if allInterrupted x.active vals then .interruption else .sag)
          ∧ e.onset = (if s.sag.freeTracker.isSome then .collecting else .skipped)
          ∧ ∃ y, t.site k = some y ∧ y.openEvent = e.number ∧ y.sag.nextEvent = x.sag.nextEvent + 1)
        ∧ (∀ e, s.sag.openEvent = some e →
          e.members.any (fun m => moved.get m.input == some .low) = true ∨ low ≠ [] →
          ∃ f, t.sag.openEvent = some f ∧ f.number = e.number ∧ f.start = e.start ∧ f.halves = e.halves + 1
            ∧ f.lossWaits = false ∧ (∀ i, i ∈ f.members.map Member.input ↔ i ∈ e.members.map Member.input ∨ i ∈ low)
            ∧ f.cls = if e.cls = .sag ∧ allInterrupted e.limits vals then .interruption else e.cls)
        ∧ (∀ e, s.sag.openEvent = some e → e.lossWaits = false → low = [] →
          e.members.any (fun m => moved.get m.input == some .low) = false → t.sag.openEvent = none
            ∧ t.attends .event = true ∧ ∃ y, t.site k = some y ∧ y.openEvent = 0
            ∧ y.sag.lastClosed = some ⟨e.number, s.fe.lastHalfEnd.time⟩
            ∧ ∃ r, y.sag.admission = x.sag.admission ++ [r] ∧ r.number = e.number ∧ r.halves = e.halves
              ∧ r.endCause = .recovered ∧ r.durationMs = s.fe.lastHalfEnd.up - e.start.up
              ∧ r.members = e.members
              ∧ r.recovery = if s.sag.freeTracker.isSome then .collecting else .skipped)
        ∧ (∀ e, s.sag.openEvent = some e → e.lossWaits = true → low = [] →
          e.members.any (fun m => moved.get m.input == some .low) = false → t.sag.openEvent = none
            ∧ t.attends .event = true ∧ ∃ y, t.site k = some y ∧ y.openEvent = 0
            ∧ y.sag.lastClosed = some ⟨e.number, fin.time⟩
            ∧ ∃ r, y.sag.admission = x.sag.admission ++ [r] ∧ r.number = e.number ∧ r.halves = e.halves + 1
              ∧ r.endCause = .leadLost ∧ r.durationMs = fin.up - e.start.up ∧ r.recovery = .notTaken))
      ∧ t.sag.lostAhead = PerInput.same none ∧ SameSites s t ∧ SameLink s t ∧ t.pending = s.pending
      ∧ t.up = s.up + dt ∧ t.clock = s.clock.advance dt ∧ t.print = s.print ∧ t.store = s.store)
  ∧ (∀ (f : FrontEnd) (x : Site) (ahead : Input → Bool) (samples : PerInput (List Int)) (now : Stamp)
      (v : ValueSet) (m : ChannelMap), v = f.valueSet x ahead samples now → m = f.mapInForce.getD x.map →
    v.number = f.halfCount + 1 ∧ v.endTime = now.time ∧ v.locked = f.cycleLocked
    ∧ ∀ i, ((v.values.get i).isSome = true ↔ isLVoltage m i = true
        ∧ ((x.map.get i).presence ≠ .absent ∨ ahead i = true))
      ∧ v.percents.get i = (v.values.get i).map HalfValue.percent
      ∧ ∀ h, v.values.get i = some h → h.role = (m.get i).role
        ∧ h.rms = rmsOf i (scaledSquares i (m.get i) (cookSamples (m.get i) (samples.get i))) 128
        ∧ h.percent = roundDiv (h.rms * 100) x.nominalVoltage)
  ∧ (∀ (e : MapEntry) (l : List Int), (cookSamples e l).length = 128 ∧ ∀ n, n < 128 →
    (cookSamples e l).getD n 0
      = (if e.invert then -(max (-32767) (min 32767 (l.getD n 0))) else max (-32767) (min 32767 (l.getD n 0))))
  ∧ (∀ (l : Limits) (d : Detector), d.move l none = d)
  ∧ (∀ (l : Limits) (v n : Nat) (b : Bool),
    (Detector.settling n b).move l (some v) = .settling (n + 1) (decide (2 * l.settle ≤ n + 1))
    ∧ Detector.normal.move l (some v) = (if v < l.sag then .low else .normal)
    ∧ Detector.low.move l (some v) = (if l.sag + l.hysteresis ≤ v then .normal else .low)
    ∧ Detector.longHold.move l (some v) = (if l.sag + l.hysteresis ≤ v then .normal else .longHold)
    ∧ Detector.absent.move l (some v) = .absent)
  ∧ (∀ (m : ChannelMap) (l : Limits) (measures : PerInput (Option Nat)) (start fin : Stamp) (i : Input)
      (w : LeadState) (b : Bool),
    (b = true ↔ ∃ j u, j ≠ i ∧ isLVoltage m j = true ∧ measures.get j = some u ∧ l.sag ≤ u) →
    (measures.get i = none ∨ isLVoltage m i = false → watchMeasure m l measures start fin i w = w)
    ∧ ∀ v, measures.get i = some v → isLVoltage m i = true →
      watchMeasure m l measures start fin i w = (w.measure v start b).judge l.leadHoldoff fin)
  ∧ (∀ (w : LeadState) (h : Nat) (judged : Stamp), { w.judge h judged with due := w.due } = w
    ∧ (∀ r, w.status = .doubtful → w.run = some r → r.up + h * 10000 ≤ judged.up →
        (w.judge h judged).due = some h)
    ∧ (w.status ≠ .doubtful ∨ w.run = none ∨ (∃ r, w.run = some r ∧ judged.up < r.up + h * 10000) →
        (w.judge h judged).due = none))
  ∧ ∀ (w : LeadState) (v : Nat) (start : Stamp) (b : Bool),
    (v < 500 → (w.measure v start b).status = (match w.status with
        | .present | .doubtful => .doubtful
        | .lost | .returning => .lost)
      ∧ (w.status = .present → (w.measure v start b).run = if b then some start else none)
      ∧ (w.status = .doubtful → (w.measure v start b).run = if b then some (w.run.getD start) else none))
    ∧ (500 ≤ v → (w.measure v start b).status = (match w.status with
        | .present | .doubtful => .present
        | .lost | .returning => .returning)
      ∧ (w.status = .lost → (w.measure v start b).confirm = some start)
      ∧ (w.status = .returning → (w.measure v start b).confirm = w.confirm))

/-- BLOCK_END: the block's result goes to the Interval Aggregator and to the check, and the next block begins
with the sense pulse, which is classified with hysteresis and goes to lead watch under the clamp holdoff in
force: Present and Doubtful clamps become Doubtful on Open, with the open time of the first such pulse, and
Present otherwise; Lost and Returning ones become Lost on Open and Returning otherwise, with the confirm time of
the first such pulse; the loss of a Doubtful clamp is due once its open time has lasted the holdoff, at once
with none (R29 to R32, R53, R56). A result takes its fundamental, harmonic magnitudes and angle from the block's
scaled samples, and carries No Fundamental below the floors (R32), by the arithmetic of log 41, the floor of a
clamp being that of its range in the live map (log 49). -/
def Obligations.BlocksEndAndPulseTheClamps : Prop :=
  (∀ (dt : Nat) (phases : PerPhase Nat) (neutral : Nat) (levels : PerClamp Nat) (s : State) (k : Fin 8)
      (x : Site) (b : BlockResult), Live s k x → s.fe.clock ≠ .stopped →
    s.fe.cyclesInBlock = blockCycles x.frequency → b = s.fe.blockResult x →
    levels = ⟨phases.i1, phases.i2, phases.i3, neutral⟩ → ∃ t, exec (.blockEnd dt phases neutral) s = .next t
      ∧ (∀ c, s.check = some c → (c.takeBlock x b s.fe.blockStart s.fe.cycleStart).rotation = .indeterminate →
        s.site c.slot = some x → ∃ y u : State, y = (s.elapse dt).takeBlock b ∧ (∃ z, y.site c.slot = some z
          ∧ z.core = x.core ∧ CheckBroken y u c.slot z .unusable (some .noRotation)) ∧ t = u.beginBlock levels)
      ∧ ((∀ c, s.check = some c →
          (c.takeBlock x b s.fe.blockStart s.fe.cycleStart).rotation ≠ .indeterminate) →
        t.check = s.check.map (fun c => c.takeBlock x b s.fe.blockStart s.fe.cycleStart)
        ∧ t.interval = ((s.elapse dt).takeBlock b).interval ∧ t.store = ((s.elapse dt).takeBlock b).store
        ∧ t.sites = ((s.elapse dt).takeBlock b).sites ∧ t.device = ((s.elapse dt).takeBlock b).device
        ∧ t.print = s.print ∧ t.sag = s.sag
        ∧ t.fe.blockCount = s.fe.blockCount + 1 ∧ t.fe.cyclesInBlock = 0 ∧ t.fe.blockStart = s.fe.cycleStart
        ∧ t.fe.lastPulse = s.fe.cycleStart ∧ t.fe.lockedCycles = 0 ∧ t.fe.frequencies = []
        ∧ t.fe.mapChanged = false ∧ t.fe.squares = PerInput.same 0 ∧ t.fe.waves = PerInput.same []
        ∧ t.fe.clock = s.fe.clock ∧ t.fe.reference = s.fe.reference ∧ t.fe.ring = s.fe.ring
        ∧ (∀ i, t.fe.absentInBlock.get i = true ↔ (x.map.get i).presence = .absent)
        ∧ (∀ i : Input, i.isVoltage = false → t.fe.sense.get none i = if (x.map.get i).role = .unused
            then s.fe.sense.get none i else some (classify (s.fe.sense.get none i) (levels.get 0 i)))
        ∧ (∃ y, t.site k = some y ∧ ∀ i, t.watch.get i = (s.watch.get i).map
            (watchSense y.active.clampHoldoff t.fe.sense levels s.fe.cycleStart i))
        ∧ SameSites s t)
      ∧ SameLink s t ∧ t.pending = s.pending ∧ t.up = s.up + dt ∧ t.clock = s.clock.advance dt)
  ∧ (∀ (f : FrontEnd) (x : Site) (b : BlockResult) (rms : Input → Nat) (floor : Input → Prop),
    b = f.blockResult x →
    (∀ i, rms i = roundSqrt (2 * (component 1 (f.waves.get i)).power)
      ((if i.isVoltage then 1 else 8192 * 8192) * (256 * f.cyclesInBlock * (256 * f.cyclesInBlock)) * 2 ^ 96)) →
    (∀ i, floor i ↔ if i.isVoltage then rms i < x.nominalVoltage else 2 * rms i < (x.map.get i).scale) →
    b.number = f.blockCount + 1 ∧ b.endTime = f.cycleStart.time ∧ b.cycles = f.cyclesInBlock
    ∧ b.lockedCycles = f.lockedCycles ∧ b.reference = f.reference ∧ b.mapChanged = f.mapChanged
    ∧ (f.lockedCycles ≠ f.cyclesInBlock → b.frequency = none)
    ∧ (f.lockedCycles = f.cyclesInBlock → f.frequencies ≠ [] →
        b.frequency = some (roundDiv f.frequencies.sum f.frequencies.length))
    ∧ ∀ i, b.roles.get i = (x.map.get i).role
      ∧ (b.results.get i = none ↔ (x.map.get i).role = .unused ∨ (x.map.get i).presence = .absent)
      ∧ ∀ r, b.results.get i = some r → r.role = (x.map.get i).role
        ∧ r.rms = rmsOf i (f.squares.get i) (256 * f.cyclesInBlock)
        ∧ (r.throughout = true ↔ f.absentInBlock.get i = false) ∧ r.fundamental = rms i
        ∧ (floor i → r.harmonics = none ∧ r.angle = none)
        ∧ (¬ floor i → r.harmonics = some (10000 :: (List.range 49).map fun n =>
            min 65535 (roundSqrt (100000000 * (component (n + 2) (f.waves.get i)).power)
              (component 1 (f.waves.get i)).power))
          ∧ (f.reference = none → r.angle = none)
          ∧ ∀ j, f.reference = some j → (floor j → r.angle = none)
            ∧ (¬ floor j → r.angle
                = some ((component 1 (f.waves.get i)).lag (component 1 (f.waves.get j))))))
  ∧ (∀ (k : Nat) (w : List Int),
    (component k w).re = ((List.range w.length).map fun n => w.getD n 0 * cosAt (k * n)).sum
    ∧ (component k w).im = ((List.range w.length).map fun n => w.getD n 0 * sinAt (k * n)).sum)
  ∧ (∀ (level : Nat) (p : Option SenseClass),
    (p = none ∨ p = some .fitted → classify p level
      = if level < 200 then .opened else if 900 < level then .short else .fitted)
    ∧ (p = some .opened → classify p level
      = if level < 250 then .opened else if level ≤ 900 then .fitted else .short)
    ∧ (p = some .short → classify p level
      = if 850 ≤ level then .short else if 200 ≤ level then .fitted else .opened))
  ∧ ∀ (h level : Nat) (sense : PerClamp (Option SenseClass)) (levels : PerClamp Nat) (at_ : Stamp) (i : Input)
      (w : LeadState) (c : SenseClass),
    (i.isVoltage = true ∨ sense.get none i = none → watchSense h sense levels at_ i w = w)
    ∧ (i.isVoltage = false → sense.get none i = some c →
      watchSense h sense levels at_ i w = (w.sense c (levels.get 0 i) at_).judge h at_)
    ∧ (w.sense c level at_).last = level ∧ { w.sense c level at_ with
        status := w.status, run := w.run, confirm := w.confirm, last := w.last } = w
    ∧ (c = .opened → (w.sense c level at_).status = (match w.status with
        | .present | .doubtful => .doubtful
        | .lost | .returning => .lost)
      ∧ (w.sense c level at_).run = (if w.status = .present then some at_ else w.run)
      ∧ (w.sense c level at_).confirm = if w.status = .returning then none else w.confirm)
    ∧ (c ≠ .opened → (w.sense c level at_).status = (match w.status with
        | .present | .doubtful => .present
        | .lost | .returning => .returning)
      ∧ (w.sense c level at_).run = (if w.status = .doubtful then none else w.run)
      ∧ (w.sense c level at_).confirm = if w.status = .lost then some at_ else w.confirm)
    ∧ (∀ r, w.status = .doubtful → w.run = some r →
      (w.judge h at_).due = if r.up + 10000 * h ≤ at_.up then some h else none)
    ∧ (w.status ≠ .doubtful ∨ w.run = none → (w.judge h at_).due = none)

/-! ## Intervals -/

/-- A block joins the interval that is open, or closes it at its boundary, or after a wrap of the clock, and
joins the one opened then, with a pending limits set applied between the two (R87 to R90, R95 to R98). A block
is judged once the report of its last half-cycle is held, or at the close: it is marked when a report of its
half-cycles shows a detector in Low or Long Hold, it advances the interval's counts and frequency, and each
input counts it, or not, by R92 and takes it into its sums (R89, R92 to R94). The record gives the statistics of
R97 in the order of R98, with rounded means. -/
def Obligations.BlocksJoinAndCloseIntervals : Prop :=
  (∀ (s : State) (b : BlockResult),
    (s.interval = none → s.takeBlock b = s)
    ∧ ∀ (iv : Interval) (x : Site), s.interval = some iv → s.site iv.slot = some x →
      (iv.start.total ≤ b.endTime.total → b.endTime.total < iv.endMs →
        s.takeBlock b = { s with interval := some (iv.take x.map b) })
      ∧ (∀ start : Time, (iv.start.total ≤ b.endTime.total ∧ iv.endMs ≤ b.endTime.total
            ∧ start = timeOfMs iv.endMs b.endTime.unset)
          ∨ (b.endTime.total < iv.start.total ∧ start = ⟨0, 0, b.endTime.unset⟩) →
        ∃ (t : State) (n : Interval) (y : Site), s.takeBlock b = t ∧ t.interval = some n ∧ t.site iv.slot = some y
          ∧ y.active = x.pendingSet.getD x.active ∧ y.pendingSet = none
          ∧ y.version = (if x.pendingSet.isSome then nextFrom1 x.version else x.version)
          ∧ y.nextInterval = (if (iv.judgeHeld x.map).total = 0 then x.nextInterval else x.nextInterval + 1)
          ∧ n.slot = iv.slot ∧ n.label = x.label ∧ n.start = start ∧ n.version = y.version
          ∧ n.length = y.active.intervalLength ∧ n.depth = y.active.depth
          ∧ n.endMs = nextBoundary y.active.intervalLength start.total
          ∧ n.total + n.held.length = 1 ∧ n.lastBlock = some b.endTime
          ∧ SameSites s t ∧ SameLink s t ∧ SameTime s t ∧ t.fe = s.fe ∧ t.sag = s.sag ∧ t.watch = s.watch
          ∧ t.check = s.check ∧ t.print = s.print)
      ∧ (s.store.nonJournalOccupancy + (Record.interval ((iv.judgeHeld x.map).toRecord x.nextInterval .boundary
            iv.endMs false)).length ≤ 491520 →
        s.store.total + (Record.interval ((iv.judgeHeld x.map).toRecord x.nextInterval .boundary
            iv.endMs false)).length ≤ 524288 →
        (iv.judgeHeld x.map).total ≠ 0 → x.pendingSet = none → iv.start.total ≤ b.endTime.total →
        iv.endMs ≤ b.endTime.total →
        ((s.takeBlock b).store.queues.intervals.map Queued.record) = s.store.queues.intervals.map Queued.record
          ++ [.interval ((iv.judgeHeld x.map).toRecord x.nextInterval .boundary iv.endMs false)]))
  ∧ (∀ (iv : Interval) (m : ChannelMap) (b : BlockResult) (p : DetectorReport) (last : Nat),
    last = 2 * b.cycles * b.number →
    ((∃ r, r ∈ iv.reports ∧ r.half = last) → iv.take m b = ({ iv with lastBlock := some b.endTime } : Interval).judge m b)
    ∧ ((∀ r, r ∈ iv.reports → r.half ≠ last) →
      iv.take m b = { iv with lastBlock := some b.endTime, held := iv.held ++ [b] })
    ∧ iv.judgeHeld m = iv.held.foldl (fun v c => v.judge m c) { iv with held := [] }
    ∧ ((∀ c, c ∈ iv.held → 2 * c.cycles * c.number ≠ p.half) →
      iv.report m p = { iv with reports := iv.reports ++ [p] })
    ∧ (iv.held = [b] → p.half = last →
      iv.report m p = ({ iv with reports := iv.reports ++ [p], held := [] } : Interval).judge m b))
  ∧ (∀ (iv v : Interval) (m : ChannelMap) (b : BlockResult) (marked : Bool), v = iv.judge m b →
    (marked = true ↔ ∃ r i, r ∈ iv.reports ∧ InBlock b r.half ∧ i.isVoltage = true
      ∧ (r.detectors.get i = some .low ∨ r.detectors.get i = some .longHold)) →
    v.total = iv.total + 1 ∧ v.marked = iv.marked + (if marked then 1 else 0)
    ∧ v.unlocked = iv.unlocked + (if b.lockedCycles = b.cycles then 0 else 1)
    ∧ v.unsetSeen = (iv.unsetSeen || b.endTime.unset)
    ∧ (b.frequency = none → v.freqCount = iv.freqCount ∧ v.freqSum = iv.freqSum ∧ v.freqLow = iv.freqLow
      ∧ v.freqHigh = iv.freqHigh)
    ∧ (∀ q, b.frequency = some q → v.freqCount = iv.freqCount + 1 ∧ v.freqSum = iv.freqSum + q
      ∧ v.freqLow = (if iv.freqCount = 0 then q else min iv.freqLow q) ∧ v.freqHigh = max iv.freqHigh q)
    ∧ v.reports = iv.reports.filter (fun r => decide (2 * b.cycles * b.number < r.half))
    ∧ (∀ i, v.channels.get i = (iv.channels.get i).judge iv.reports marked iv.depth m b i)
    ∧ { v with
        total := iv.total, marked := iv.marked, unlocked := iv.unlocked, unsetSeen := iv.unsetSeen
        freqCount := iv.freqCount, freqSum := iv.freqSum, freqLow := iv.freqLow, freqHigh := iv.freqHigh
        reports := iv.reports, channels := iv.channels } = iv)
  ∧ (∀ (c d : Channel) (reports : List DetectorReport) (marked : Bool) (depth : Nat) (m : ChannelMap)
      (b : BlockResult) (i : Input) (judging : Prop), d = c.judge reports marked depth m b i →
    (judging ↔ ∀ h, InBlock b h → ∃ r, r ∈ reports ∧ r.half = h
      ∧ ∃ e, r.detectors.get i = some e ∧ (e = .normal ∨ e = .low ∨ e = .longHold)) →
    (b.results.get i = none ∨ (∃ r, b.results.get i = some r ∧ r.throughout = false) →
      { d with lost := c.lost } = c ∧ d.lost = (c.lost || decide (b.roles.get i ≠ .unused)))
    ∧ ∀ r, b.results.get i = some r → r.throughout = true →
      d.appeared = true ∧ d.role = r.role ∧ d.lost = c.lost
      ∧ d.unverified = (c.unverified || !(m.get i).verified)
      ∧ (b.mapChanged = true ∨ (i.isVoltage = true ∧ r.role.isL = true ∧ ¬ judging) →
        { d with appeared := c.appeared, role := c.role, unverified := c.unverified } = c)
      ∧ (b.mapChanged = false → (i.isVoltage = true → r.role.isL = true → judging) →
        d.counted = c.counted + 1 ∧ d.unmarked = c.unmarked + (if marked then 0 else 1)
        ∧ d.rmsLow = (if c.counted = 0 then r.rms else min c.rmsLow r.rms) ∧ d.rmsHigh = max c.rmsHigh r.rms
        ∧ d.rmsSquares = c.rmsSquares + r.rms * r.rms
        ∧ (marked = true ∨ r.harmonics = none → d.harmonic = c.harmonic ∧ d.thdSum = c.thdSum
          ∧ d.thdHigh = c.thdHigh ∧ d.orders = c.orders)
        ∧ ∀ (mags : List Nat) (thd : Nat), marked = false → r.harmonics = some mags →
          thd = min 65535 (roundSqrt (((mags.take depth).drop 1).map fun n => n * n).sum 1) →
          d.harmonic = c.harmonic + 1 ∧ d.thdSum = c.thdSum + thd ∧ d.thdHigh = max c.thdHigh thd
          ∧ d.orders = List.zipWith (fun o n => (o.1 + n, max o.2 n)) c.orders mags))
  ∧ ∀ (iv : Interval) (n fin : Nat) (cause : IntervalEnd) (early : Bool) (r : IntervalRecord),
    r = iv.toRecord n cause fin early →
    r.site = iv.label ∧ r.number = n ∧ r.start = iv.start ∧ r.unsetSeen = iv.unsetSeen ∧ r.length = iv.length
    ∧ (iv.start.total ≤ fin → fin - iv.start.total < 4294967296000 → r.spanMs = fin - iv.start.total)
    ∧ r.startedLate = iv.startedLate ∧ r.endedEarly = early ∧ r.endCause = cause ∧ r.version = iv.version
    ∧ r.depth = iv.depth ∧ r.total = iv.total ∧ r.marked = iv.marked ∧ r.unlocked = iv.unlocked
    ∧ r.frequency = (if iv.freqCount = 0 then none else
        some (iv.freqLow, roundDiv iv.freqSum iv.freqCount, iv.freqHigh))
    ∧ r.channels = (([[Input.v1, .v2, .v3, .v4], [.i1, .i2, .i3, .i4]].flatMap fun is =>
        [Role.l1, .l2, .l3, .ne, .n, .unused].flatMap fun role => is.filter fun i =>
          (iv.channels.get i).appeared && decide ((iv.channels.get i).role = role)).map
        fun i => (iv.channels.get i).subRecord i)
    ∧ ∀ (c : Channel) (i : Input), c.subRecord i = {
        input := i, role := c.role, lost := c.lost, unverified := c.unverified, counted := c.counted
        harmonic := c.harmonic
        rms := if c.counted = 0 then none else some (c.rmsLow, roundSqrt c.rmsSquares c.counted, c.rmsHigh)
        thd := if c.harmonic = 0 then (0, 0) else (roundDiv c.thdSum c.harmonic, c.thdHigh)
        orders := c.orders.map fun o => if c.harmonic = 0 then (0, 0) else (roundDiv o.1 c.harmonic, o.2)
        noHarmonics := if c.harmonic ≠ 0 then none else if c.counted = 0 then some .noneCounted
          else if c.unmarked = 0 then some .allMarked else some .noFundamental }

/-! ## Lead watch's declarations -/

/-- LEAD_LOST declares an input Lost whose last measure or pulse made its loss due: the map's presence, and for
an L-role voltage input the detector, become Absent, the Lead Lost entry is put with the start of the run, the
last measure and the holdoff, the reference is chosen again, and Attention Lead is raised (R55 to R57, R64).
LEAD_RESTORED makes the input Present and unverified again with its entry, its detector Settling, and the
reference chosen again (R58). A choice that differs makes the clock Seeking and puts the Reference Moved entry
(R26, R27), also when it goes back on a choice that has not taken over yet (log 42). A check that the lead
reaches after Presence ends Leads Moved (R47), by the model's choice after the other effects (log 59). A loss that leaves the open event no Low member closes it Lead
Lost; one that comes with the half-cycle's samples is taken ahead of its value set, and that close waits for the
set (R64, R71; log 25). -/
def Obligations.LeadsAreDeclaredLostAndRestored : Prop :=
  (∀ (dt : Nat) (s : State) (i : Input) (k : Fin 8) (x : Site) (w : LeadState) (r : Stamp) (h : Nat)
      (m : ChannelMap), Live s k x →
    s.watch.get i = some w → w.status = .doubtful → w.run = some r → w.due = some h →
    m = x.map.set i { x.map.get i with presence := .absent } →
    ∃ u y s1 s2 : State, exec (.leadLost dt i none) s = .next u
      ∧ s1 = State.put (State.setSlot { s.elapse dt with
            watch := s.watch.set i (some { w with
              status := .lost, run := none, due := none, confirm := none
              lostAt := some ⟨s.clock.advance dt, s.up + dt⟩ })
            fe := { s.fe with absentInBlock := s.fe.absentInBlock.set i true } } k (some { x with map := m }))
          x.label (.leadLost i (x.map.get i).role h w.last r.time)
      ∧ (isLVoltage x.map i = false → s2 = s1)
      ∧ (isLVoltage x.map i = true → s2 = (s1.tellLoss k i false).rechoose m .leadLost)
      ∧ y = s2.raise .lead
      ∧ (y.watch.get i = some { w with
          status := .lost, run := none, due := none, confirm := none
          lostAt := some ⟨s.clock.advance dt, s.up + dt⟩ })
      ∧ (∀ j, j ≠ i → y.watch.get j = s.watch.get j)
      ∧ y.attends .lead = true ∧ y.fe.absentInBlock.get i = true
      ∧ (∃ z, y.site k = some z ∧ z.core = x.core ∧ z.map = m)
      ∧ (isLVoltage x.map i = true → (s.sag.detectors.get i).isSome = true → y.sag.detectors.get i = some .absent)
      ∧ SameSites s y ∧ SameLink s y ∧ y.pending = s.pending ∧ y.up = s.up + dt ∧ y.clock = s.clock.advance dt
      ∧ y.print = s.print ∧ y.interval = s.interval
      ∧ (s.check = none ∨ (∃ c, s.check = some c ∧ (c.phase = .presence ∨ i.isVoltage = false
          ∨ (c.inputs.get i).roleAtStart.isL = false)) → u = y)
      ∧ ∀ c z, s.check = some c → c.phase ≠ .presence → i.isVoltage = true →
        (c.inputs.get i).roleAtStart.isL = true → y.site c.slot = some z →
        CheckBroken y u c.slot z .unusable (some .leadsMoved))
  ∧ (∀ (dt : Nat) (s : State) (i : Input) (k : Fin 8) (x : Site), Live s k x →
    s.watch.get i = none ∨ (∃ w, s.watch.get i = some w ∧ (w.status ≠ .doubtful ∨ w.run = none ∨ w.due = none)) →
    exec (.leadLost dt i none) s = .next (s.elapse dt))
  ∧ (∀ (s : State) (i : Input) (k : Fin 8) (x : Site) (w : LeadState) (c : Stamp) (m : ChannelMap), Live s k x →
    s.watch.get i = some w → w.status = .returning → w.confirm = some c →
    c.up + 2000 ≤ (if i.isVoltage then s.fe.lastHalfEnd else s.fe.lastPulse).up →
    m = x.map.set i { x.map.get i with presence := .present, verified := false } →
    ∃ (u y s1 s2 : State) (lost : Time), exec (.leadRestored i) s = .next u
      ∧ (∀ l, w.lostAt = some l → lost = l.time)
      ∧ s1 = State.put (State.setSlot { s with watch := s.watch.set i (some { w with
            status := .present, run := none, due := none, confirm := none, lostAt := none }) } k
            (some { x with map := m })) x.label (.leadRestored i (x.map.get i).role lost c.time)
      ∧ (isLVoltage x.map i = false → s2 = s1)
      ∧ (isLVoltage x.map i = true → s2 = (s1.sagReturns i).rechoose m .leadRestored)
      ∧ y = s2.raise .lead
      ∧ (y.watch.get i = some { w with
          status := .present, run := none, due := none, confirm := none, lostAt := none })
      ∧ (∀ j, j ≠ i → y.watch.get j = s.watch.get j) ∧ y.attends .lead = true
      ∧ (∃ z, y.site k = some z ∧ z.core = x.core ∧ z.map = m)
      ∧ (isLVoltage x.map i = true → s.sag.detectors.get i = some .absent →
          y.sag.detectors.get i = some (.settling 0 false))
      ∧ SameSites s y ∧ SameLink s y ∧ SameTime s y ∧ y.print = s.print ∧ y.interval = s.interval
      ∧ (s.check = none ∨ (∃ c, s.check = some c ∧ (c.phase = .presence ∨ i.isVoltage = false
          ∨ (c.inputs.get i).roleAtStart.isL = false)) → u = y)
      ∧ ∀ c z, s.check = some c → c.phase ≠ .presence → i.isVoltage = true →
        (c.inputs.get i).roleAtStart.isL = true → y.site c.slot = some z →
        CheckBroken y u c.slot z .unusable (some .leadsMoved))
  ∧ (∀ (dt : Nat) (s : State) (i : Input) (samples : PerInput (List Int)) (k : Fin 8) (x : Site) (w : LeadState)
      (v : Nat) (measures : PerInput (Option Nat)), Live s k x →
    measures = presenceMeasures (s.fe.mapInForce.getD x.map) x.nominalVoltage samples →
    s.watch.get i = some w → measures.get i = some v → s.fe.clock ≠ .stopped → s.fe.halvesInCycle < 2 →
    s.fe.cyclesInBlock < blockCycles x.frequency → isLVoltage x.map i = true →
    w.status = .present ∨ w.status = .doubtful → v < 500 →
    supportsLoss x.map x.active.sag measures i = true →
    (w.run.getD s.fe.lastHalfEnd).up + x.active.leadHoldoff * 10000 ≤ s.up + dt →
    ∃ y, exec (.leadLost dt i (some samples)) s = .next y
      ∧ (s.check = none → (∃ z, y.watch.get i = some z ∧ z.status = .lost)
        ∧ ((s.sag.detectors.get i).isSome = true → y.sag.detectors.get i = some .absent
          ∧ y.sag.lostAhead.get i = s.sag.detectors.get i)))
  ∧ (∀ (s v : State) (k : Fin 8) (i : Input) (d : Detector) (e e' : OpenEvent), s.sag.detectors.get i = some d →
    s.sag.openEvent = some e → e.members.any (fun m => m.input == i) = true →
    e' = { e with members := e.members.map fun m => if m.input = i then { m with lost := true } else m } →
    v = { s with sag := { s.sag with detectors := s.sag.detectors.set i (some .absent), openEvent := some e' } } →
    (e'.members.any (fun m => v.sag.detectors.get m.input == some .low) = true → s.tellLoss k i false = v)
    ∧ (e'.members.any (fun m => v.sag.detectors.get m.input == some .low) = false →
      s.tellLoss k i false = v.closeEvent k .leadLost s.fe.lastHalfEnd e.halves .notTaken)
    ∧ s.tellLoss k i true = { v with sag := { v.sag with
        openEvent := some { e' with lossWaits := true }, lostAhead := s.sag.lostAhead.set i (some d) } })
  ∧ (∀ (s : State) (m : ChannelMap) (cause : ReferenceCause) (before : Option Input),
    before = s.fe.nextReference.getD s.fe.reference →
    (s.fe.clock = .stopped ∨ chooseReference m = before → s.rechoose m cause = s)
    ∧ (s.fe.clock ≠ .stopped → chooseReference m ≠ before → s.rechoose m cause = State.put { s with fe := { s.fe with
        nextReference := some (chooseReference m), clock := .seeking, good := 0, cycleLocked := false } }
        s.liveLabel (.referenceMoved before (chooseReference m) cause s.fe.clock)))
  ∧ ∀ (m : ChannelMap) (fits : Role → Input → Prop),
    (∀ r j, fits r j ↔ j ∈ [Input.v1, .v2, .v3] ∧ (m.get j).role = r ∧ (m.get j).presence ≠ .absent) →
    ((∀ r j, r ∈ [Role.l1, .l2, .l3] → ¬ fits r j) → chooseReference m = none)
    ∧ ∀ r i, fits r i → (∀ j, fits r j → j = i) →
      r = .l1 ∨ (r = .l2 ∧ ∀ j, ¬ fits .l1 j) ∨ (r = .l3 ∧ ∀ j, ¬ fits .l1 j ∧ ¬ fits .l2 j) →
      chooseReference m = some i

/-! ## Events and captures -/

/-- SETTLE_DONE makes a settled detector Normal; EVENT_LONG closes the open event Long with its Low members in
Long Hold; a close fixes the duration, clears the open event, joins the admission list and raises Attention
Event (R62, R65, R70, R73). -/
def Obligations.EventsSettleLastAndClose : Prop :=
  (∀ (s : State) (i : Input) (n : Nat), s.sag.detectors.get i = some (.settling n true) →
    ∃ t, exec (.settleDone i) s = .next t
      ∧ t.sag = { s.sag with detectors := s.sag.detectors.set i (some .normal) }
      ∧ { t with sag := s.sag, interval := s.interval } = s
      ∧ (s.interval = none → t.interval = none)
      ∧ ∀ iv, s.interval = some iv → t.interval = some { iv with reports := iv.reports.map fun r =>
          if r.half = s.fe.halfCount then { r with detectors := PerInput.of (fun j =>
            if j = i then some .normal else r.detectors.get j) } else r })
  ∧ (∀ (s : State) (i : Input), (∀ n, s.sag.detectors.get i ≠ some (.settling n true)) →
    exec (.settleDone i) s = .next s)
  ∧ (∀ (s : State) (k : Fin 8) (x : Site) (e : OpenEvent), Live s k x → s.sag.openEvent = some e →
    (e.start.up + e.limits.longLimit * 1000 ≤ s.fe.lastHalfEnd.up → ∃ u t : State, exec .eventLong s = .next t
      ∧ (∀ i, u.sag.detectors.get i =
          if i ∈ e.members.map Member.input ∧ s.sag.detectors.get i = some .low then some .longHold
          else s.sag.detectors.get i)
      ∧ { u with sag := { u.sag with detectors := s.sag.detectors } } = s
      ∧ { t with interval := s.interval } = u.closeEvent k .long s.fe.lastHalfEnd e.halves .notTaken
      ∧ t.sag.openEvent = none)
    ∧ (s.fe.lastHalfEnd.up < e.start.up + e.limits.longLimit * 1000 → exec .eventLong s = .next s))
  ∧ (∀ s : State, s.sag.openEvent = none → exec .eventLong s = .next s)
  ∧ ∀ (s : State) (k : Fin 8) (x : Site) (e : OpenEvent) (cause : EndCause) (fin : Stamp) (n : Nat)
      (o : CaptureOutcome), s.site k = some x → s.sag.openEvent = some e → ∃ t, s.closeEvent k cause fin n o = t
      ∧ t.sag = { s.sag with openEvent := none } ∧ t.attends .event = true
      ∧ t.site k = some { x with
          openEvent := 0
          sag := { x.sag with
            lastClosed := some ⟨e.number, fin.time⟩
            admission := x.sag.admission ++ [e.toRecord x.label cause fin n o] } }
      ∧ (∀ j : Fin 8, j ≠ k → t.site j = s.site j) ∧ SameTime s t ∧ SameLink s t ∧ t.fe = s.fe
      ∧ t.watch = s.watch ∧ t.check = s.check ∧ t.interval = s.interval ∧ t.device = s.device
      ∧ t.store = s.store ∧ t.print = s.print
      ∧ (e.toRecord x.label cause fin n o).durationMs = fin.up - e.start.up
      ∧ (e.toRecord x.label cause fin n o).halves = n ∧ (e.toRecord x.label cause fin n o).endCause = cause

/-- CAPTURE_COMPLETE frees the tracker claimed first among those whose span is complete and offers its capture
whole, which the store admits or refuses, counting a refused one lost by its pieces, and writes the outcome: an onset or recovery into its event, open or waiting, and a snapshot
into its entry (R77, R78, R81, R118). EVENT_RECORD_HANDED_ON hands on the head of an admission list whose
outcomes are final: an admission is counted and enters the worst-event list, which a full one leaves by the
highest residual and among equals by the highest number (R75, R82), and a record that does not fit with no
capture to discard is counted lost and enters nothing (R119, R121). A slip joins the print
queue, or meets a full one, is counted and gets its Slip Skipped entry (R83). -/
def Obligations.CapturesCompleteAndEventsAreHandedOn : Prop :=
  (∀ (s : State) (f : Fin 4) (t : Tracker), s.sag.firstComplete = some (f, t) → ∃ u, exec .captureComplete s = .next u
    ∧ u.sag.trackers[f] = none ∧ (∀ j : Fin 4, j ≠ f → u.sag.trackers[j] = s.sag.trackers[j])
    ∧ s.sag.trackers[f] = some t ∧ t.remaining = 0 ∧ SameSites s u ∧ SameLink s u ∧ SameTime s u ∧ u.fe = s.fe
    ∧ u.sag.detectors = s.sag.detectors ∧ u.interval = s.interval ∧ u.print = s.print ∧ u.watch = s.watch
    ∧ u.check = s.check
    ∧ ∀ x n, s.siteOf t.site = some x → n = t.kind.span.1 + 1 + t.kind.span.2 →
      (s.store.nonJournalOccupancy + 2080 * n ≤ 491520 → s.store.total + 2080 * n + 65536 ≤ 524288 →
        u.store.queues.captures = s.store.queues.captures ++ (s.spanPieces t x.sag.nextCapture).map
          (fun p => ⟨.piece p, 2080, t.site, s.clock, false, false⟩)
        ∧ ∃ y, u.siteOf t.site = some y ∧ y.sag.nextCapture = x.sag.nextCapture + 1)
      ∧ (491520 < s.store.nonJournalOccupancy + 2080 * n ∨ 524288 < s.store.total + 2080 * n + 65536 →
        u.store.queues.captures = s.store.queues.captures
        ∧ ∃ y, u.siteOf t.site = some y ∧ y.sag.nextCapture = x.sag.nextCapture
          ∧ y.counters.lostCaptures = min (x.counters.lostCaptures + 1) 4294967295
        ∧ u.store.lostTotal.captures = min (s.store.lostTotal.captures + n) 4294967295
        ∧ u.store.lostSincePage.captures = min (s.store.lostSincePage.captures + n) 4294967295)
      ∧ ∃ (o : CaptureOutcome) (y : Site), u.siteOf t.site = some y
        ∧ o = (if s.store.nonJournalOccupancy + 2080 * n ≤ 491520 ∧ s.store.total + 2080 * n + 65536 ≤ 524288
          then .admitted x.sag.nextCapture else .refused)
        ∧ (t.kind = .onset →
          u.sag.openEvent = s.sag.openEvent.map (fun e => if e.number = t.event then { e with onset := o } else e)
          ∧ y.sag.admission = x.sag.admission.map
            fun r => if r.number = t.event then { r with onset := o } else r)
        ∧ (t.kind = .recovery → u.sag.openEvent = s.sag.openEvent ∧ y.sag.admission = x.sag.admission.map
            fun r => if r.number = t.event then { r with recovery := o } else r)
        ∧ (t.kind = .snapshot → ∃ v : State, u = v.put t.site (.snapshot (if o = .refused then .refused else
              .admitted x.sag.nextCapture) f.val t.claimed.time t.triggerStart)
          ∧ v.sag = { s.sag with trackers := s.sag.trackers.set f none } ∧ v.store.queues.journal
            = s.store.queues.journal ∧ v.device = s.device ∧ v.clock = s.clock))
  ∧ (∀ s : State, (∀ f : Fin 4, ∀ t, s.sag.trackers[f] = some t → t.remaining ≠ 0) →
    exec .captureComplete s = .next s)
  ∧ (∀ s : State, ((∃ f : Fin 4, ∃ t, s.sag.trackers[f] = some t ∧ t.remaining = 0) ↔
      ∃ f t, s.sag.firstComplete = some (f, t))
    ∧ ∀ f t, s.sag.firstComplete = some (f, t) → ∀ (j : Fin 4) (o : Tracker), s.sag.trackers[j] = some o →
      o.remaining = 0 → t.order ≤ o.order)
  ∧ (∀ (s : State) (label : Nat) (x : Site) (r : EventRecord) (rs : List EventRecord), s.siteOf label = some x →
    label ≠ 0 → x.label = label → x.sag.admission = r :: rs → r.site = label →
    (r.onset = .collecting ∨ r.recovery = .collecting → exec (.eventRecordHandedOn label) s = .next s)
    ∧ (r.onset ≠ .collecting → r.recovery ≠ .collecting → ∃ t y, exec (.eventRecordHandedOn label) s = .next t
      ∧ t.siteOf label = some y ∧ y.sag.admission = rs ∧ SameSites s t ∧ SameLink s t ∧ SameTime s t
      ∧ t.fe = s.fe ∧ t.sag = s.sag ∧ t.watch = s.watch ∧ t.check = s.check ∧ t.interval = s.interval
      ∧ (oldestEligible s.store.queues.captures = none →
        491520 < s.store.nonJournalOccupancy + (Record.event r).length
          ∨ 524288 < s.store.total + (Record.event r).length →
        t.store = { s.store with
          lostTotal := { s.store.lostTotal with events := min (s.store.lostTotal.events + 1) 4294967295 }
          lostSincePage := { s.store.lostSincePage with
            events := min (s.store.lostSincePage.events + 1) 4294967295 } }
        ∧ y.counters = { x.counters with lostEvents := min (x.counters.lostEvents + 1) 4294967295 }
        ∧ y.sag.worst = x.sag.worst ∧ t.print = s.print)
      ∧ (s.store.nonJournalOccupancy + (Record.event r).length ≤ 491520 →
        s.store.total + (Record.event r).length ≤ 524288 →
        (t.store.queues.events = s.store.queues.events ++ [⟨.event r, (Record.event r).length, label, s.clock,
            false, false⟩])
        ∧ y.counters.events = min (x.counters.events + 1) 4294967295
        ∧ (x.sag.worst.length < 32 → y.sag.worst = x.sag.worst
            ++ [⟨r.number, r.start, r.halves, r.durationMs, r.residual, r.cls⟩])
        ∧ (x.options.slipRule = .off → t.print = s.print)
        ∧ (callsSlip x.options r = true → s.print.jobs.length < 8 → ∃ j, t.print.jobs = joinQueue s.print.jobs j
            ∧ j.owner = .slip ∧ j.event = r.number ∧ y.pins = x.pins + 1)
        ∧ (callsSlip x.options r = true → 8 ≤ s.print.jobs.length → t.print = s.print
          ∧ y.counters.slipsSkipped = min (x.counters.slipsSkipped + 1) 4294967295
          ∧ ∃ (v : State) (z : Site), t = v.putAnchored label (.ownEvent r.number) (.slipSkipped r.number
              (min (x.counters.slipsSkipped + 1) 4294967295))
            ∧ v.siteOf label = some z ∧ z.counters = { x.counters with
              events := min (x.counters.events + 1) 4294967295
              slipsSkipped := min (x.counters.slipsSkipped + 1) 4294967295 }
            ∧ v.store.queues = { s.store.queues with events := t.store.queues.events }))))
  ∧ (∀ (o : SiteOptions) (r : EventRecord), (callsSlip o r = true ↔
      (o.slipRule = .interruptions ∧ r.cls = .interruption) ∨ (o.slipRule = .depth ∧ r.residual < o.slipDepth)))
  ∧ ∀ (l : List WorstEntry) (e : WorstEntry), 32 ≤ l.length →
    ((∀ w, w ∈ l → w.residual ≤ e.residual) → enterWorst l e = l)
    ∧ (∀ w, w ∈ l → e.residual < w.residual → e ∈ enterWorst l e
      ∧ (l.Nodup → (enterWorst l e).length = l.length)
      ∧ ∃ h, h ∈ l ∧ (∀ v, v ∈ l → v.residual ≤ h.residual)
        ∧ (∀ v, v ∈ l → v.residual = h.residual → v.number ≤ h.number) ∧ ∀ v, v ∈ enterWorst l e ↔ v = e ∨ (v ∈ l ∧ v ≠ h))
end

