-- ==== Sys2Proof/Laws/State.lean ====
section
/-! SUPPORT. One lemma for each field under each update that names one: the projections of the state after
the elementary operations, true by `rfl`. -/

namespace Sys2Proof.Machine

/-! ## `State.elapse` -/

@[simp] theorem State.elapse_pending (s : State) (dt : Nat) : (s.elapse dt).pending = s.pending := rfl
@[simp] theorem State.elapse_up (s : State) (dt : Nat) : (s.elapse dt).up = s.up + dt := rfl
@[simp] theorem State.elapse_clock (s : State) (dt : Nat) : (s.elapse dt).clock = s.clock.advance dt := rfl
@[simp] theorem State.elapse_lp (s : State) (dt : Nat) : (s.elapse dt).lp = s.lp := rfl
@[simp] theorem State.elapse_sites (s : State) (dt : Nat) : (s.elapse dt).sites = s.sites := rfl
@[simp] theorem State.elapse_fe (s : State) (dt : Nat) : (s.elapse dt).fe = s.fe := rfl
@[simp] theorem State.elapse_check (s : State) (dt : Nat) : (s.elapse dt).check = s.check := rfl
@[simp] theorem State.elapse_watch (s : State) (dt : Nat) : (s.elapse dt).watch = s.watch := rfl
@[simp] theorem State.elapse_sag (s : State) (dt : Nat) : (s.elapse dt).sag = s.sag := rfl
@[simp] theorem State.elapse_interval (s : State) (dt : Nat) : (s.elapse dt).interval = s.interval := rfl
@[simp] theorem State.elapse_device (s : State) (dt : Nat) : (s.elapse dt).device = s.device := rfl
@[simp] theorem State.elapse_store (s : State) (dt : Nat) : (s.elapse dt).store = s.store := rfl
@[simp] theorem State.elapse_print (s : State) (dt : Nat) : (s.elapse dt).print = s.print := rfl
@[simp] theorem State.elapse_van (s : State) (dt : Nat) : (s.elapse dt).van = s.van := rfl

/-! ## `State.withPending` -/

@[simp] theorem State.withPending_pending (s : State) (q : List Instr) : (s.withPending q).pending = q := rfl
@[simp] theorem State.withPending_up (s : State) (q : List Instr) : (s.withPending q).up = s.up := rfl
@[simp] theorem State.withPending_clock (s : State) (q : List Instr) : (s.withPending q).clock = s.clock := rfl
@[simp] theorem State.withPending_lp (s : State) (q : List Instr) : (s.withPending q).lp = s.lp := rfl
@[simp] theorem State.withPending_sites (s : State) (q : List Instr) : (s.withPending q).sites = s.sites := rfl
@[simp] theorem State.withPending_fe (s : State) (q : List Instr) : (s.withPending q).fe = s.fe := rfl
@[simp] theorem State.withPending_check (s : State) (q : List Instr) : (s.withPending q).check = s.check := rfl
@[simp] theorem State.withPending_watch (s : State) (q : List Instr) : (s.withPending q).watch = s.watch := rfl
@[simp] theorem State.withPending_sag (s : State) (q : List Instr) : (s.withPending q).sag = s.sag := rfl
@[simp] theorem State.withPending_interval (s : State) (q : List Instr) : (s.withPending q).interval = s.interval := rfl
@[simp] theorem State.withPending_device (s : State) (q : List Instr) : (s.withPending q).device = s.device := rfl
@[simp] theorem State.withPending_store (s : State) (q : List Instr) : (s.withPending q).store = s.store := rfl
@[simp] theorem State.withPending_print (s : State) (q : List Instr) : (s.withPending q).print = s.print := rfl
@[simp] theorem State.withPending_van (s : State) (q : List Instr) : (s.withPending q).van = s.van := rfl

/-! ## `State.setSlot` -/

@[simp] theorem State.setSlot_pending (s : State) (k : Fin 8) (x : Option Site) : (s.setSlot k x).pending = s.pending := rfl
@[simp] theorem State.setSlot_up (s : State) (k : Fin 8) (x : Option Site) : (s.setSlot k x).up = s.up := rfl
@[simp] theorem State.setSlot_clock (s : State) (k : Fin 8) (x : Option Site) : (s.setSlot k x).clock = s.clock := rfl
@[simp] theorem State.setSlot_lp (s : State) (k : Fin 8) (x : Option Site) : (s.setSlot k x).lp = s.lp := rfl
@[simp] theorem State.setSlot_sites (s : State) (k : Fin 8) (x : Option Site) : (s.setSlot k x).sites = s.sites.set k x := rfl
@[simp] theorem State.setSlot_fe (s : State) (k : Fin 8) (x : Option Site) : (s.setSlot k x).fe = s.fe := rfl
@[simp] theorem State.setSlot_check (s : State) (k : Fin 8) (x : Option Site) : (s.setSlot k x).check = s.check := rfl
@[simp] theorem State.setSlot_watch (s : State) (k : Fin 8) (x : Option Site) : (s.setSlot k x).watch = s.watch := rfl
@[simp] theorem State.setSlot_sag (s : State) (k : Fin 8) (x : Option Site) : (s.setSlot k x).sag = s.sag := rfl
@[simp] theorem State.setSlot_interval (s : State) (k : Fin 8) (x : Option Site) : (s.setSlot k x).interval = s.interval := rfl
@[simp] theorem State.setSlot_device (s : State) (k : Fin 8) (x : Option Site) : (s.setSlot k x).device = s.device := rfl
@[simp] theorem State.setSlot_store (s : State) (k : Fin 8) (x : Option Site) : (s.setSlot k x).store = s.store := rfl
@[simp] theorem State.setSlot_print (s : State) (k : Fin 8) (x : Option Site) : (s.setSlot k x).print = s.print := rfl
@[simp] theorem State.setSlot_van (s : State) (k : Fin 8) (x : Option Site) : (s.setSlot k x).van = s.van := rfl

/-! ## `State.raise` -/

@[simp] theorem State.raise_pending (s : State) (b : AttentionBit) : (s.raise b).pending = s.pending := rfl
@[simp] theorem State.raise_up (s : State) (b : AttentionBit) : (s.raise b).up = s.up := rfl
@[simp] theorem State.raise_clock (s : State) (b : AttentionBit) : (s.raise b).clock = s.clock := rfl
@[simp] theorem State.raise_sites (s : State) (b : AttentionBit) : (s.raise b).sites = s.sites := rfl
@[simp] theorem State.raise_fe (s : State) (b : AttentionBit) : (s.raise b).fe = s.fe := rfl
@[simp] theorem State.raise_check (s : State) (b : AttentionBit) : (s.raise b).check = s.check := rfl
@[simp] theorem State.raise_watch (s : State) (b : AttentionBit) : (s.raise b).watch = s.watch := rfl
@[simp] theorem State.raise_sag (s : State) (b : AttentionBit) : (s.raise b).sag = s.sag := rfl
@[simp] theorem State.raise_interval (s : State) (b : AttentionBit) : (s.raise b).interval = s.interval := rfl
@[simp] theorem State.raise_device (s : State) (b : AttentionBit) : (s.raise b).device = s.device := rfl
@[simp] theorem State.raise_store (s : State) (b : AttentionBit) : (s.raise b).store = s.store := rfl
@[simp] theorem State.raise_print (s : State) (b : AttentionBit) : (s.raise b).print = s.print := rfl
@[simp] theorem State.raise_van (s : State) (b : AttentionBit) : (s.raise b).van = s.van := rfl

/-! ## `State.clearAttention` -/

@[simp] theorem State.clearAttention_pending (s : State) (v : BitVec 32) : (s.clearAttention v).pending = s.pending := rfl
@[simp] theorem State.clearAttention_up (s : State) (v : BitVec 32) : (s.clearAttention v).up = s.up := rfl
@[simp] theorem State.clearAttention_clock (s : State) (v : BitVec 32) : (s.clearAttention v).clock = s.clock := rfl
@[simp] theorem State.clearAttention_sites (s : State) (v : BitVec 32) : (s.clearAttention v).sites = s.sites := rfl
@[simp] theorem State.clearAttention_fe (s : State) (v : BitVec 32) : (s.clearAttention v).fe = s.fe := rfl
@[simp] theorem State.clearAttention_check (s : State) (v : BitVec 32) : (s.clearAttention v).check = s.check := rfl
@[simp] theorem State.clearAttention_watch (s : State) (v : BitVec 32) : (s.clearAttention v).watch = s.watch := rfl
@[simp] theorem State.clearAttention_sag (s : State) (v : BitVec 32) : (s.clearAttention v).sag = s.sag := rfl
@[simp] theorem State.clearAttention_interval (s : State) (v : BitVec 32) : (s.clearAttention v).interval = s.interval := rfl
@[simp] theorem State.clearAttention_device (s : State) (v : BitVec 32) : (s.clearAttention v).device = s.device := rfl
@[simp] theorem State.clearAttention_store (s : State) (v : BitVec 32) : (s.clearAttention v).store = s.store := rfl
@[simp] theorem State.clearAttention_print (s : State) (v : BitVec 32) : (s.clearAttention v).print = s.print := rfl
@[simp] theorem State.clearAttention_van (s : State) (v : BitVec 32) : (s.clearAttention v).van = s.van := rfl

/-! ## `State.modLink` -/

@[simp] theorem State.modLink_pending (s : State) (f : LinkPort → LinkPort) : (s.modLink f).pending = s.pending := rfl
@[simp] theorem State.modLink_up (s : State) (f : LinkPort → LinkPort) : (s.modLink f).up = s.up := rfl
@[simp] theorem State.modLink_clock (s : State) (f : LinkPort → LinkPort) : (s.modLink f).clock = s.clock := rfl
@[simp] theorem State.modLink_lp (s : State) (f : LinkPort → LinkPort) : (s.modLink f).lp = f s.lp := rfl
@[simp] theorem State.modLink_sites (s : State) (f : LinkPort → LinkPort) : (s.modLink f).sites = s.sites := rfl
@[simp] theorem State.modLink_fe (s : State) (f : LinkPort → LinkPort) : (s.modLink f).fe = s.fe := rfl
@[simp] theorem State.modLink_check (s : State) (f : LinkPort → LinkPort) : (s.modLink f).check = s.check := rfl
@[simp] theorem State.modLink_watch (s : State) (f : LinkPort → LinkPort) : (s.modLink f).watch = s.watch := rfl
@[simp] theorem State.modLink_sag (s : State) (f : LinkPort → LinkPort) : (s.modLink f).sag = s.sag := rfl
@[simp] theorem State.modLink_interval (s : State) (f : LinkPort → LinkPort) : (s.modLink f).interval = s.interval := rfl
@[simp] theorem State.modLink_device (s : State) (f : LinkPort → LinkPort) : (s.modLink f).device = s.device := rfl
@[simp] theorem State.modLink_store (s : State) (f : LinkPort → LinkPort) : (s.modLink f).store = s.store := rfl
@[simp] theorem State.modLink_print (s : State) (f : LinkPort → LinkPort) : (s.modLink f).print = s.print := rfl
@[simp] theorem State.modLink_van (s : State) (f : LinkPort → LinkPort) : (s.modLink f).van = s.van := rfl

/-! ## `State.modPrint` -/

@[simp] theorem State.modPrint_pending (s : State) (f : PrintEngine → PrintEngine) : (s.modPrint f).pending = s.pending := rfl
@[simp] theorem State.modPrint_up (s : State) (f : PrintEngine → PrintEngine) : (s.modPrint f).up = s.up := rfl
@[simp] theorem State.modPrint_clock (s : State) (f : PrintEngine → PrintEngine) : (s.modPrint f).clock = s.clock := rfl
@[simp] theorem State.modPrint_lp (s : State) (f : PrintEngine → PrintEngine) : (s.modPrint f).lp = s.lp := rfl
@[simp] theorem State.modPrint_sites (s : State) (f : PrintEngine → PrintEngine) : (s.modPrint f).sites = s.sites := rfl
@[simp] theorem State.modPrint_fe (s : State) (f : PrintEngine → PrintEngine) : (s.modPrint f).fe = s.fe := rfl
@[simp] theorem State.modPrint_check (s : State) (f : PrintEngine → PrintEngine) : (s.modPrint f).check = s.check := rfl
@[simp] theorem State.modPrint_watch (s : State) (f : PrintEngine → PrintEngine) : (s.modPrint f).watch = s.watch := rfl
@[simp] theorem State.modPrint_sag (s : State) (f : PrintEngine → PrintEngine) : (s.modPrint f).sag = s.sag := rfl
@[simp] theorem State.modPrint_interval (s : State) (f : PrintEngine → PrintEngine) : (s.modPrint f).interval = s.interval := rfl
@[simp] theorem State.modPrint_device (s : State) (f : PrintEngine → PrintEngine) : (s.modPrint f).device = s.device := rfl
@[simp] theorem State.modPrint_store (s : State) (f : PrintEngine → PrintEngine) : (s.modPrint f).store = s.store := rfl
@[simp] theorem State.modPrint_print (s : State) (f : PrintEngine → PrintEngine) : (s.modPrint f).print = f s.print := rfl
@[simp] theorem State.modPrint_van (s : State) (f : PrintEngine → PrintEngine) : (s.modPrint f).van = s.van := rfl

/-! ## `State.modVan` -/

@[simp] theorem State.modVan_pending (s : State) (f : VanLines → VanLines) : (s.modVan f).pending = s.pending := rfl
@[simp] theorem State.modVan_up (s : State) (f : VanLines → VanLines) : (s.modVan f).up = s.up := rfl
@[simp] theorem State.modVan_clock (s : State) (f : VanLines → VanLines) : (s.modVan f).clock = s.clock := rfl
@[simp] theorem State.modVan_lp (s : State) (f : VanLines → VanLines) : (s.modVan f).lp = s.lp := rfl
@[simp] theorem State.modVan_sites (s : State) (f : VanLines → VanLines) : (s.modVan f).sites = s.sites := rfl
@[simp] theorem State.modVan_fe (s : State) (f : VanLines → VanLines) : (s.modVan f).fe = s.fe := rfl
@[simp] theorem State.modVan_check (s : State) (f : VanLines → VanLines) : (s.modVan f).check = s.check := rfl
@[simp] theorem State.modVan_watch (s : State) (f : VanLines → VanLines) : (s.modVan f).watch = s.watch := rfl
@[simp] theorem State.modVan_sag (s : State) (f : VanLines → VanLines) : (s.modVan f).sag = s.sag := rfl
@[simp] theorem State.modVan_interval (s : State) (f : VanLines → VanLines) : (s.modVan f).interval = s.interval := rfl
@[simp] theorem State.modVan_device (s : State) (f : VanLines → VanLines) : (s.modVan f).device = s.device := rfl
@[simp] theorem State.modVan_store (s : State) (f : VanLines → VanLines) : (s.modVan f).store = s.store := rfl
@[simp] theorem State.modVan_print (s : State) (f : VanLines → VanLines) : (s.modVan f).print = s.print := rfl
@[simp] theorem State.modVan_van (s : State) (f : VanLines → VanLines) : (s.modVan f).van = f s.van := rfl

/-! ## `State.writeResult` -/

@[simp] theorem State.writeResult_pending (s : State) (r : WRef) (n : Nat) (c : ResultCode) (a : List Byte) : (s.writeResult r n c a).pending = s.pending := rfl
@[simp] theorem State.writeResult_up (s : State) (r : WRef) (n : Nat) (c : ResultCode) (a : List Byte) : (s.writeResult r n c a).up = s.up := rfl
@[simp] theorem State.writeResult_clock (s : State) (r : WRef) (n : Nat) (c : ResultCode) (a : List Byte) : (s.writeResult r n c a).clock = s.clock := rfl
@[simp] theorem State.writeResult_sites (s : State) (r : WRef) (n : Nat) (c : ResultCode) (a : List Byte) : (s.writeResult r n c a).sites = s.sites := rfl
@[simp] theorem State.writeResult_fe (s : State) (r : WRef) (n : Nat) (c : ResultCode) (a : List Byte) : (s.writeResult r n c a).fe = s.fe := rfl
@[simp] theorem State.writeResult_check (s : State) (r : WRef) (n : Nat) (c : ResultCode) (a : List Byte) : (s.writeResult r n c a).check = s.check := rfl
@[simp] theorem State.writeResult_watch (s : State) (r : WRef) (n : Nat) (c : ResultCode) (a : List Byte) : (s.writeResult r n c a).watch = s.watch := rfl
@[simp] theorem State.writeResult_sag (s : State) (r : WRef) (n : Nat) (c : ResultCode) (a : List Byte) : (s.writeResult r n c a).sag = s.sag := rfl
@[simp] theorem State.writeResult_interval (s : State) (r : WRef) (n : Nat) (c : ResultCode) (a : List Byte) : (s.writeResult r n c a).interval = s.interval := rfl
@[simp] theorem State.writeResult_device (s : State) (r : WRef) (n : Nat) (c : ResultCode) (a : List Byte) : (s.writeResult r n c a).device = s.device := rfl
@[simp] theorem State.writeResult_store (s : State) (r : WRef) (n : Nat) (c : ResultCode) (a : List Byte) : (s.writeResult r n c a).store = s.store := rfl
@[simp] theorem State.writeResult_print (s : State) (r : WRef) (n : Nat) (c : ResultCode) (a : List Byte) : (s.writeResult r n c a).print = s.print := rfl
@[simp] theorem State.writeResult_van (s : State) (r : WRef) (n : Nat) (c : ResultCode) (a : List Byte) : (s.writeResult r n c a).van = s.van := rfl

/-! ## `State.setDelivery` -/

@[simp] theorem State.setDelivery_pending (s : State) (st : Stream) (d : Option Delivery) : (s.setDelivery st d).pending = s.pending := rfl
@[simp] theorem State.setDelivery_up (s : State) (st : Stream) (d : Option Delivery) : (s.setDelivery st d).up = s.up := rfl
@[simp] theorem State.setDelivery_clock (s : State) (st : Stream) (d : Option Delivery) : (s.setDelivery st d).clock = s.clock := rfl
@[simp] theorem State.setDelivery_lp (s : State) (st : Stream) (d : Option Delivery) : (s.setDelivery st d).lp = s.lp := rfl
@[simp] theorem State.setDelivery_sites (s : State) (st : Stream) (d : Option Delivery) : (s.setDelivery st d).sites = s.sites := rfl
@[simp] theorem State.setDelivery_fe (s : State) (st : Stream) (d : Option Delivery) : (s.setDelivery st d).fe = s.fe := rfl
@[simp] theorem State.setDelivery_check (s : State) (st : Stream) (d : Option Delivery) : (s.setDelivery st d).check = s.check := rfl
@[simp] theorem State.setDelivery_watch (s : State) (st : Stream) (d : Option Delivery) : (s.setDelivery st d).watch = s.watch := rfl
@[simp] theorem State.setDelivery_sag (s : State) (st : Stream) (d : Option Delivery) : (s.setDelivery st d).sag = s.sag := rfl
@[simp] theorem State.setDelivery_interval (s : State) (st : Stream) (d : Option Delivery) : (s.setDelivery st d).interval = s.interval := rfl
@[simp] theorem State.setDelivery_device (s : State) (st : Stream) (d : Option Delivery) : (s.setDelivery st d).device = s.device := rfl
@[simp] theorem State.setDelivery_print (s : State) (st : Stream) (d : Option Delivery) : (s.setDelivery st d).print = s.print := rfl
@[simp] theorem State.setDelivery_van (s : State) (st : Stream) (d : Option Delivery) : (s.setDelivery st d).van = s.van := rfl

/-! ## `State.startFrontEnd` -/

@[simp] theorem State.startFrontEnd_pending (s : State) (m : ChannelMap) : (s.startFrontEnd m).pending = s.pending := rfl
@[simp] theorem State.startFrontEnd_up (s : State) (m : ChannelMap) : (s.startFrontEnd m).up = s.up := rfl
@[simp] theorem State.startFrontEnd_clock (s : State) (m : ChannelMap) : (s.startFrontEnd m).clock = s.clock := rfl
@[simp] theorem State.startFrontEnd_lp (s : State) (m : ChannelMap) : (s.startFrontEnd m).lp = s.lp := rfl
@[simp] theorem State.startFrontEnd_sites (s : State) (m : ChannelMap) : (s.startFrontEnd m).sites = s.sites := rfl
@[simp] theorem State.startFrontEnd_fe (s : State) (m : ChannelMap) : (s.startFrontEnd m).fe = FrontEnd.begin m s.now := rfl
@[simp] theorem State.startFrontEnd_check (s : State) (m : ChannelMap) : (s.startFrontEnd m).check = s.check := rfl
@[simp] theorem State.startFrontEnd_watch (s : State) (m : ChannelMap) : (s.startFrontEnd m).watch = s.watch := rfl
@[simp] theorem State.startFrontEnd_sag (s : State) (m : ChannelMap) : (s.startFrontEnd m).sag = s.sag := rfl
@[simp] theorem State.startFrontEnd_interval (s : State) (m : ChannelMap) : (s.startFrontEnd m).interval = s.interval := rfl
@[simp] theorem State.startFrontEnd_device (s : State) (m : ChannelMap) : (s.startFrontEnd m).device = s.device := rfl
@[simp] theorem State.startFrontEnd_store (s : State) (m : ChannelMap) : (s.startFrontEnd m).store = s.store := rfl
@[simp] theorem State.startFrontEnd_print (s : State) (m : ChannelMap) : (s.startFrontEnd m).print = s.print := rfl
@[simp] theorem State.startFrontEnd_van (s : State) (m : ChannelMap) : (s.startFrontEnd m).van = s.van := rfl

/-! ## `State.stopFrontEnd` -/

@[simp] theorem State.stopFrontEnd_pending (s : State) : (s.stopFrontEnd).pending = s.pending := rfl
@[simp] theorem State.stopFrontEnd_up (s : State) : (s.stopFrontEnd).up = s.up := rfl
@[simp] theorem State.stopFrontEnd_clock (s : State) : (s.stopFrontEnd).clock = s.clock := rfl
@[simp] theorem State.stopFrontEnd_lp (s : State) : (s.stopFrontEnd).lp = s.lp := rfl
@[simp] theorem State.stopFrontEnd_sites (s : State) : (s.stopFrontEnd).sites = s.sites := rfl
@[simp] theorem State.stopFrontEnd_fe (s : State) : (s.stopFrontEnd).fe = FrontEnd.reset := rfl
@[simp] theorem State.stopFrontEnd_check (s : State) : (s.stopFrontEnd).check = s.check := rfl
@[simp] theorem State.stopFrontEnd_watch (s : State) : (s.stopFrontEnd).watch = s.watch := rfl
@[simp] theorem State.stopFrontEnd_sag (s : State) : (s.stopFrontEnd).sag = s.sag := rfl
@[simp] theorem State.stopFrontEnd_interval (s : State) : (s.stopFrontEnd).interval = s.interval := rfl
@[simp] theorem State.stopFrontEnd_device (s : State) : (s.stopFrontEnd).device = s.device := rfl
@[simp] theorem State.stopFrontEnd_store (s : State) : (s.stopFrontEnd).store = s.store := rfl
@[simp] theorem State.stopFrontEnd_print (s : State) : (s.stopFrontEnd).print = s.print := rfl
@[simp] theorem State.stopFrontEnd_van (s : State) : (s.stopFrontEnd).van = s.van := rfl

/-! ## `State.startWatch` -/

@[simp] theorem State.startWatch_pending (s : State) (m : ChannelMap) : (s.startWatch m).pending = s.pending := rfl
@[simp] theorem State.startWatch_up (s : State) (m : ChannelMap) : (s.startWatch m).up = s.up := rfl
@[simp] theorem State.startWatch_clock (s : State) (m : ChannelMap) : (s.startWatch m).clock = s.clock := rfl
@[simp] theorem State.startWatch_lp (s : State) (m : ChannelMap) : (s.startWatch m).lp = s.lp := rfl
@[simp] theorem State.startWatch_sites (s : State) (m : ChannelMap) : (s.startWatch m).sites = s.sites := rfl
@[simp] theorem State.startWatch_fe (s : State) (m : ChannelMap) : (s.startWatch m).fe = s.fe := rfl
@[simp] theorem State.startWatch_check (s : State) (m : ChannelMap) : (s.startWatch m).check = s.check := rfl
@[simp] theorem State.startWatch_watch (s : State) (m : ChannelMap) : (s.startWatch m).watch = freshWatch m := rfl
@[simp] theorem State.startWatch_sag (s : State) (m : ChannelMap) : (s.startWatch m).sag = s.sag := rfl
@[simp] theorem State.startWatch_interval (s : State) (m : ChannelMap) : (s.startWatch m).interval = s.interval := rfl
@[simp] theorem State.startWatch_device (s : State) (m : ChannelMap) : (s.startWatch m).device = s.device := rfl
@[simp] theorem State.startWatch_store (s : State) (m : ChannelMap) : (s.startWatch m).store = s.store := rfl
@[simp] theorem State.startWatch_print (s : State) (m : ChannelMap) : (s.startWatch m).print = s.print := rfl
@[simp] theorem State.startWatch_van (s : State) (m : ChannelMap) : (s.startWatch m).van = s.van := rfl

/-! ## `State.changeWatch` -/

@[simp] theorem State.changeWatch_pending (s : State) (m : ChannelMap) : (s.changeWatch m).pending = s.pending := rfl
@[simp] theorem State.changeWatch_up (s : State) (m : ChannelMap) : (s.changeWatch m).up = s.up := rfl
@[simp] theorem State.changeWatch_clock (s : State) (m : ChannelMap) : (s.changeWatch m).clock = s.clock := rfl
@[simp] theorem State.changeWatch_lp (s : State) (m : ChannelMap) : (s.changeWatch m).lp = s.lp := rfl
@[simp] theorem State.changeWatch_sites (s : State) (m : ChannelMap) : (s.changeWatch m).sites = s.sites := rfl
@[simp] theorem State.changeWatch_fe (s : State) (m : ChannelMap) : (s.changeWatch m).fe = s.fe := rfl
@[simp] theorem State.changeWatch_check (s : State) (m : ChannelMap) : (s.changeWatch m).check = s.check := rfl
@[simp] theorem State.changeWatch_watch (s : State) (m : ChannelMap) : (s.changeWatch m).watch = changedWatch s.watch m := rfl
@[simp] theorem State.changeWatch_sag (s : State) (m : ChannelMap) : (s.changeWatch m).sag = s.sag := rfl
@[simp] theorem State.changeWatch_interval (s : State) (m : ChannelMap) : (s.changeWatch m).interval = s.interval := rfl
@[simp] theorem State.changeWatch_device (s : State) (m : ChannelMap) : (s.changeWatch m).device = s.device := rfl
@[simp] theorem State.changeWatch_store (s : State) (m : ChannelMap) : (s.changeWatch m).store = s.store := rfl
@[simp] theorem State.changeWatch_print (s : State) (m : ChannelMap) : (s.changeWatch m).print = s.print := rfl
@[simp] theorem State.changeWatch_van (s : State) (m : ChannelMap) : (s.changeWatch m).van = s.van := rfl

/-! ## `State.stopWatch` -/

@[simp] theorem State.stopWatch_pending (s : State) : (s.stopWatch).pending = s.pending := rfl
@[simp] theorem State.stopWatch_up (s : State) : (s.stopWatch).up = s.up := rfl
@[simp] theorem State.stopWatch_clock (s : State) : (s.stopWatch).clock = s.clock := rfl
@[simp] theorem State.stopWatch_lp (s : State) : (s.stopWatch).lp = s.lp := rfl
@[simp] theorem State.stopWatch_sites (s : State) : (s.stopWatch).sites = s.sites := rfl
@[simp] theorem State.stopWatch_fe (s : State) : (s.stopWatch).fe = s.fe := rfl
@[simp] theorem State.stopWatch_check (s : State) : (s.stopWatch).check = s.check := rfl
@[simp] theorem State.stopWatch_watch (s : State) : (s.stopWatch).watch = PerInput.same none := rfl
@[simp] theorem State.stopWatch_sag (s : State) : (s.stopWatch).sag = s.sag := rfl
@[simp] theorem State.stopWatch_interval (s : State) : (s.stopWatch).interval = s.interval := rfl
@[simp] theorem State.stopWatch_device (s : State) : (s.stopWatch).device = s.device := rfl
@[simp] theorem State.stopWatch_store (s : State) : (s.stopWatch).store = s.store := rfl
@[simp] theorem State.stopWatch_print (s : State) : (s.stopWatch).print = s.print := rfl
@[simp] theorem State.stopWatch_van (s : State) : (s.stopWatch).van = s.van := rfl

/-! ## `State.countLost` -/

@[simp] theorem State.countLost_pending (s : State) (st : Stream) (n : Nat) : (s.countLost st n).pending = s.pending := rfl
@[simp] theorem State.countLost_up (s : State) (st : Stream) (n : Nat) : (s.countLost st n).up = s.up := rfl
@[simp] theorem State.countLost_clock (s : State) (st : Stream) (n : Nat) : (s.countLost st n).clock = s.clock := rfl
@[simp] theorem State.countLost_lp (s : State) (st : Stream) (n : Nat) : (s.countLost st n).lp = s.lp := rfl
@[simp] theorem State.countLost_sites (s : State) (st : Stream) (n : Nat) : (s.countLost st n).sites = s.sites := rfl
@[simp] theorem State.countLost_fe (s : State) (st : Stream) (n : Nat) : (s.countLost st n).fe = s.fe := rfl
@[simp] theorem State.countLost_check (s : State) (st : Stream) (n : Nat) : (s.countLost st n).check = s.check := rfl
@[simp] theorem State.countLost_watch (s : State) (st : Stream) (n : Nat) : (s.countLost st n).watch = s.watch := rfl
@[simp] theorem State.countLost_sag (s : State) (st : Stream) (n : Nat) : (s.countLost st n).sag = s.sag := rfl
@[simp] theorem State.countLost_interval (s : State) (st : Stream) (n : Nat) : (s.countLost st n).interval = s.interval := rfl
@[simp] theorem State.countLost_device (s : State) (st : Stream) (n : Nat) : (s.countLost st n).device = s.device := rfl
@[simp] theorem State.countLost_print (s : State) (st : Stream) (n : Nat) : (s.countLost st n).print = s.print := rfl
@[simp] theorem State.countLost_van (s : State) (st : Stream) (n : Nat) : (s.countLost st n).van = s.van := rfl

/-! ## The Link Port under updates of attention and of the walker -/

@[simp] theorem State.raise_lp_part (s : State) (b : AttentionBit) : (s.raise b).lp.part = s.lp.part := rfl
@[simp] theorem State.raise_lp_selfTestCode (s : State) (b : AttentionBit) : (s.raise b).lp.selfTestCode = s.lp.selfTestCode := rfl
@[simp] theorem State.raise_lp_link (s : State) (b : AttentionBit) : (s.raise b).lp.link = s.lp.link := rfl
@[simp] theorem State.raise_lp_anchor (s : State) (b : AttentionBit) : (s.raise b).lp.anchor = s.lp.anchor := rfl
@[simp] theorem State.raise_lp_mask (s : State) (b : AttentionBit) : (s.raise b).lp.mask = s.lp.mask := rfl
@[simp] theorem State.raise_lp_fault (s : State) (b : AttentionBit) : (s.raise b).lp.fault = s.lp.fault := rfl
@[simp] theorem State.raise_lp_windows (s : State) (b : AttentionBit) : (s.raise b).lp.windows = s.lp.windows := rfl
@[simp] theorem State.raise_lp_sweep (s : State) (b : AttentionBit) : (s.raise b).lp.sweep = s.lp.sweep := rfl
@[simp] theorem State.raise_lp_anchorBase (s : State) (b : AttentionBit) : (s.raise b).lp.anchorBase = s.lp.anchorBase := rfl
@[simp] theorem State.raise_lp_position (s : State) (b : AttentionBit) : (s.raise b).lp.position = s.lp.position := rfl
@[simp] theorem State.raise_lp_walker (s : State) (b : AttentionBit) : (s.raise b).lp.walker = s.lp.walker := rfl
@[simp] theorem State.raise_lp_departure (s : State) (b : AttentionBit) : (s.raise b).lp.departure = s.lp.departure := rfl
@[simp] theorem State.raise_lp_waitsAfterDone (s : State) (b : AttentionBit) : (s.raise b).lp.waitsAfterDone = s.lp.waitsAfterDone := rfl
@[simp] theorem State.raise_lp_awaySince (s : State) (b : AttentionBit) : (s.raise b).lp.awaySince = s.lp.awaySince := rfl
@[simp] theorem State.raise_lp_anchorRead (s : State) (b : AttentionBit) : (s.raise b).lp.anchorRead = s.lp.anchorRead := rfl
@[simp] theorem State.clearAttention_lp_part (s : State) (v : BitVec 32) : (s.clearAttention v).lp.part = s.lp.part := rfl
@[simp] theorem State.clearAttention_lp_selfTestCode (s : State) (v : BitVec 32) : (s.clearAttention v).lp.selfTestCode = s.lp.selfTestCode := rfl
@[simp] theorem State.clearAttention_lp_link (s : State) (v : BitVec 32) : (s.clearAttention v).lp.link = s.lp.link := rfl
@[simp] theorem State.clearAttention_lp_anchor (s : State) (v : BitVec 32) : (s.clearAttention v).lp.anchor = s.lp.anchor := rfl
@[simp] theorem State.clearAttention_lp_mask (s : State) (v : BitVec 32) : (s.clearAttention v).lp.mask = s.lp.mask := rfl
@[simp] theorem State.clearAttention_lp_fault (s : State) (v : BitVec 32) : (s.clearAttention v).lp.fault = s.lp.fault := rfl
@[simp] theorem State.clearAttention_lp_windows (s : State) (v : BitVec 32) : (s.clearAttention v).lp.windows = s.lp.windows := rfl
@[simp] theorem State.clearAttention_lp_sweep (s : State) (v : BitVec 32) : (s.clearAttention v).lp.sweep = s.lp.sweep := rfl
@[simp] theorem State.clearAttention_lp_anchorBase (s : State) (v : BitVec 32) : (s.clearAttention v).lp.anchorBase = s.lp.anchorBase := rfl
@[simp] theorem State.clearAttention_lp_position (s : State) (v : BitVec 32) : (s.clearAttention v).lp.position = s.lp.position := rfl
@[simp] theorem State.clearAttention_lp_walker (s : State) (v : BitVec 32) : (s.clearAttention v).lp.walker = s.lp.walker := rfl
@[simp] theorem State.clearAttention_lp_departure (s : State) (v : BitVec 32) : (s.clearAttention v).lp.departure = s.lp.departure := rfl
@[simp] theorem State.clearAttention_lp_waitsAfterDone (s : State) (v : BitVec 32) : (s.clearAttention v).lp.waitsAfterDone = s.lp.waitsAfterDone := rfl
@[simp] theorem State.clearAttention_lp_awaySince (s : State) (v : BitVec 32) : (s.clearAttention v).lp.awaySince = s.lp.awaySince := rfl
@[simp] theorem State.clearAttention_lp_anchorRead (s : State) (v : BitVec 32) : (s.clearAttention v).lp.anchorRead = s.lp.anchorRead := rfl
@[simp] theorem State.writeResult_lp_part (s : State) (r : WRef) (n : Nat) (c : ResultCode) (a : List Byte) :
    (s.writeResult r n c a).lp.part = s.lp.part := rfl
@[simp] theorem State.writeResult_lp_selfTestCode (s : State) (r : WRef) (n : Nat) (c : ResultCode) (a : List Byte) :
    (s.writeResult r n c a).lp.selfTestCode = s.lp.selfTestCode := rfl
@[simp] theorem State.writeResult_lp_link (s : State) (r : WRef) (n : Nat) (c : ResultCode) (a : List Byte) :
    (s.writeResult r n c a).lp.link = s.lp.link := rfl
@[simp] theorem State.writeResult_lp_anchor (s : State) (r : WRef) (n : Nat) (c : ResultCode) (a : List Byte) :
    (s.writeResult r n c a).lp.anchor = s.lp.anchor := rfl
@[simp] theorem State.writeResult_lp_mask (s : State) (r : WRef) (n : Nat) (c : ResultCode) (a : List Byte) :
    (s.writeResult r n c a).lp.mask = s.lp.mask := rfl
@[simp] theorem State.writeResult_lp_fault (s : State) (r : WRef) (n : Nat) (c : ResultCode) (a : List Byte) :
    (s.writeResult r n c a).lp.fault = s.lp.fault := rfl
@[simp] theorem State.writeResult_lp_windows (s : State) (r : WRef) (n : Nat) (c : ResultCode) (a : List Byte) :
    (s.writeResult r n c a).lp.windows = s.lp.windows := rfl
@[simp] theorem State.writeResult_lp_sweep (s : State) (r : WRef) (n : Nat) (c : ResultCode) (a : List Byte) :
    (s.writeResult r n c a).lp.sweep = s.lp.sweep := rfl
@[simp] theorem State.writeResult_lp_anchorBase (s : State) (r : WRef) (n : Nat) (c : ResultCode) (a : List Byte) :
    (s.writeResult r n c a).lp.anchorBase = s.lp.anchorBase := rfl
@[simp] theorem State.writeResult_lp_position (s : State) (r : WRef) (n : Nat) (c : ResultCode) (a : List Byte) :
    (s.writeResult r n c a).lp.position = s.lp.position := rfl
@[simp] theorem State.writeResult_lp_departure (s : State) (r : WRef) (n : Nat) (c : ResultCode) (a : List Byte) :
    (s.writeResult r n c a).lp.departure = s.lp.departure := rfl
@[simp] theorem State.writeResult_lp_waitsAfterDone (s : State) (r : WRef) (n : Nat) (c : ResultCode) (a : List Byte) :
    (s.writeResult r n c a).lp.waitsAfterDone = s.lp.waitsAfterDone := rfl
@[simp] theorem State.writeResult_lp_awaySince (s : State) (r : WRef) (n : Nat) (c : ResultCode) (a : List Byte) :
    (s.writeResult r n c a).lp.awaySince = s.lp.awaySince := rfl
@[simp] theorem State.writeResult_lp_anchorRead (s : State) (r : WRef) (n : Nat) (c : ResultCode) (a : List Byte) :
    (s.writeResult r n c a).lp.anchorRead = s.lp.anchorRead := rfl
@[simp] theorem State.writeResult_lp_attention (s : State) (r : WRef) (n : Nat) (c : ResultCode) (a : List Byte) :
    (s.writeResult r n c a).lp.attention = s.lp.attention := rfl

@[simp] theorem State.raise_lp_attention (s : State) (b : AttentionBit) :
    (s.raise b).lp.attention = s.lp.attention ||| b.word := rfl

@[simp] theorem State.clearAttention_lp_attention (s : State) (v : BitVec 32) :
    (s.clearAttention v).lp.attention = s.lp.attention &&& ~~~v := rfl

/-! ## The store under loss counts and deliveries -/

@[simp] theorem State.setDelivery_store_queues (s : State) (st : Stream) (d : Option Delivery) :
    (s.setDelivery st d).store.queues = s.store.queues := rfl
@[simp] theorem State.countLost_store_queues (s : State) (st : Stream) (n : Nat) :
    (s.countLost st n).store.queues = s.store.queues := rfl
@[simp] theorem State.setDelivery_store_levels (s : State) (st : Stream) (d : Option Delivery) :
    (s.setDelivery st d).store.levels = s.store.levels := rfl
@[simp] theorem State.countLost_store_levels (s : State) (st : Stream) (n : Nat) :
    (s.countLost st n).store.levels = s.store.levels := rfl
@[simp] theorem State.setDelivery_store_lostTotal (s : State) (st : Stream) (d : Option Delivery) :
    (s.setDelivery st d).store.lostTotal = s.store.lostTotal := rfl
@[simp] theorem State.setDelivery_store_lostSincePage (s : State) (st : Stream) (d : Option Delivery) :
    (s.setDelivery st d).store.lostSincePage = s.store.lostSincePage := rfl
@[simp] theorem State.setDelivery_store_pool (s : State) (st : Stream) (d : Option Delivery) :
    (s.setDelivery st d).store.pool = s.store.pool := rfl
@[simp] theorem State.countLost_store_pool (s : State) (st : Stream) (n : Nat) :
    (s.countLost st n).store.pool = s.store.pool := rfl
@[simp] theorem State.setDelivery_store_waiting (s : State) (st : Stream) (d : Option Delivery) :
    (s.setDelivery st d).store.waiting = s.store.waiting := rfl
@[simp] theorem State.countLost_store_waiting (s : State) (st : Stream) (n : Nat) :
    (s.countLost st n).store.waiting = s.store.waiting := rfl
@[simp] theorem State.setDelivery_store_pins (s : State) (st : Stream) (d : Option Delivery) :
    (s.setDelivery st d).store.pins = s.store.pins := rfl
@[simp] theorem State.countLost_store_pins (s : State) (st : Stream) (n : Nat) :
    (s.countLost st n).store.pins = s.store.pins := rfl
@[simp] theorem State.setDelivery_store_tails (s : State) (st : Stream) (d : Option Delivery) :
    (s.setDelivery st d).store.tails = s.store.tails := rfl
@[simp] theorem State.countLost_store_tails (s : State) (st : Stream) (n : Nat) :
    (s.countLost st n).store.tails = s.store.tails := rfl
@[simp] theorem State.countLost_store_deliveries (s : State) (st : Stream) (n : Nat) :
    (s.countLost st n).store.deliveries = s.store.deliveries := rfl
@[simp] theorem State.setDelivery_store_pageSequence (s : State) (st : Stream) (d : Option Delivery) :
    (s.setDelivery st d).store.pageSequence = s.store.pageSequence := rfl
@[simp] theorem State.countLost_store_pageSequence (s : State) (st : Stream) (n : Nat) :
    (s.countLost st n).store.pageSequence = s.store.pageSequence := rfl

end Sys2Proof.Machine
end

