-- ==== Sys2Proof/Laws/Frames.lean ====
section
/-! SUPPORT. What the shared operations leave alone: each keeps the queue, the time and the Link Port but
for its attention (`Steady`), and most keep the core of every site record too (`Quiet`). -/

namespace Sys2Proof.Machine

/-- The queue, the time and the Link Port but for attention are as they were. -/
structure Steady (s t : State) : Prop where
  time : SameTime s t
  link : SameLink s t

/-- Steady, and every slot holds the same core of a site record. -/
structure Quiet (s t : State) : Prop where
  steady : Steady s t
  sites : SameSites s t

theorem Steady.refl (s : State) : Steady s s := ⟨⟨rfl, rfl, rfl⟩, rfl⟩

theorem Quiet.refl (s : State) : Quiet s s := ⟨Steady.refl s, fun _ => rfl⟩

theorem Steady.trans {s t u : State} (a : Steady s t) (b : Steady t u) : Steady s u :=
  ⟨⟨b.time.1.trans a.time.1, b.time.2.1.trans a.time.2.1, b.time.2.2.trans a.time.2.2⟩,
    b.link.trans a.link⟩

theorem Quiet.trans {s t u : State} (a : Quiet s t) (b : Quiet t u) : Quiet s u :=
  ⟨a.steady.trans b.steady, fun k => (b.sites k).trans (a.sites k)⟩

/-- A state that differs in none of the five fields. -/
theorem Quiet.of {s t : State} (h1 : t.pending = s.pending) (h2 : t.up = s.up) (h3 : t.clock = s.clock)
    (h4 : t.lp = s.lp) (h5 : t.sites = s.sites) : Quiet s t :=
  ⟨⟨⟨h1, h2, h3⟩, congrArg (fun l : LinkPort => { l with attention := 0 }) h4⟩, fun k => by simp only [State.site, h5]⟩

/-- A state that differs in none of the five fields but for attention. -/
theorem Quiet.ofLink {s t : State} (h1 : t.pending = s.pending) (h2 : t.up = s.up) (h3 : t.clock = s.clock)
    (h4 : { t.lp with attention := 0 } = { s.lp with attention := 0 }) (h5 : t.sites = s.sites) :
    Quiet s t :=
  ⟨⟨⟨h1, h2, h3⟩, h4⟩, fun k => by simp only [State.site, h5]⟩

theorem Steady.of {s t : State} (h1 : t.pending = s.pending) (h2 : t.up = s.up) (h3 : t.clock = s.clock)
    (h4 : t.lp = s.lp) : Steady s t :=
  ⟨⟨h1, h2, h3⟩, congrArg (fun l : LinkPort => { l with attention := 0 }) h4⟩

/-- A first part that leaves the five fields alone, then a second that is quiet. -/
theorem Quiet.after {s t u : State} (h : Quiet u t) (h1 : u.pending = s.pending) (h2 : u.up = s.up)
    (h3 : u.clock = s.clock) (h4 : u.lp = s.lp) (h5 : u.sites = s.sites) : Quiet s t :=
  (Quiet.of h1 h2 h3 h4 h5).trans h

/-- A quiet part, then one that leaves the five fields alone. -/
theorem Quiet.before {s t u : State} (h : Quiet s t) (h1 : u.pending = t.pending) (h2 : u.up = t.up)
    (h3 : u.clock = t.clock) (h4 : u.lp = t.lp) (h5 : u.sites = t.sites) : Quiet s u :=
  h.trans (Quiet.of h1 h2 h3 h4 h5)

/-- A choice between two outcomes. -/
theorem Quiet.ite {s a b : State} {c : Prop} [Decidable c] (ha : Quiet s a) (hb : Quiet s b) :
    Quiet s (if c then a else b) := by split <;> assumption

theorem Steady.ite {s a b : State} {c : Prop} [Decidable c] (ha : Steady s a) (hb : Steady s b) :
    Steady s (if c then a else b) := by split <;> assumption

/-! ## The site table -/

theorem State.setSlot_steady (s : State) (k : Fin 8) (x : Option Site) : Steady s (s.setSlot k x) :=
  Steady.of rfl rfl rfl rfl

theorem State.site_setSlot (s : State) (k j : Fin 8) (x : Option Site) :
    (s.setSlot k x).site j = if k = j then x else s.site j := by
  simp only [State.site, State.setSlot_sites, Fin.getElem_fin, Vector.getElem_set, Fin.val_inj]

theorem State.site_modSite (s : State) (k j : Fin 8) (f : Site → Site) :
    (s.modSite k f).site j = if k = j then (s.site j).map f else s.site j := by
  unfold State.modSite
  cases h : s.site k with
  | none => by_cases e : k = j <;> simp_all
  | some x => rw [State.site_setSlot]; by_cases e : k = j <;> simp_all

theorem State.modSite_steady (s : State) (k : Fin 8) (f : Site → Site) : Steady s (s.modSite k f) := by
  unfold State.modSite
  split
  · exact State.setSlot_steady s k _
  · exact Steady.refl s

theorem State.modSite_quiet (s : State) (k : Fin 8) {f : Site → Site}
    (h : ∀ x, (f x).core = x.core) : Quiet s (s.modSite k f) := by
  refine ⟨State.modSite_steady s k f, fun j => ?_⟩
  rw [State.site_modSite]
  split
  · cases s.site j <;> simp [h]
  · rfl

theorem State.modLabel_steady (s : State) (n : Nat) (f : Site → Site) : Steady s (s.modLabel n f) := by
  unfold State.modLabel
  split
  · exact State.modSite_steady s _ f
  · exact Steady.refl s

theorem State.modLabel_quiet (s : State) (n : Nat) {f : Site → Site}
    (h : ∀ x, (f x).core = x.core) : Quiet s (s.modLabel n f) := by
  unfold State.modLabel
  split
  · exact State.modSite_quiet s _ h
  · exact Quiet.refl s

/-! ## WAKE, attention, the journal -/

theorem State.wakeRequest_quiet (s : State) (w : WakeSource) : Quiet s (s.wakeRequest w) := by
  unfold State.wakeRequest
  exact Quiet.ite (Quiet.of rfl rfl rfl rfl rfl) (Quiet.refl s)

theorem State.raise_quiet (s : State) (b : AttentionBit) : Quiet s (s.raise b) :=
  Quiet.ofLink rfl rfl rfl rfl rfl

theorem State.storeHighTest_quiet (s : State) (n : Nat) : Quiet s (s.storeHighTest n) := by
  unfold State.storeHighTest
  exact Quiet.ite ((State.raise_quiet s _).trans (State.wakeRequest_quiet _ _)) (Quiet.refl s)

theorem State.addRecords_quiet (s : State) (st : Stream) (rs : List Record) : Quiet s (s.addRecords st rs) :=
  Quiet.after (State.storeHighTest_quiet _ _) rfl rfl rfl rfl rfl

theorem State.countLost_quiet (s : State) (st : Stream) (n : Nat) : Quiet s (s.countLost st n) :=
  Quiet.of rfl rfl rfl rfl rfl

theorem State.setJournal_quiet (s : State) (n : Nat) (j : JournalState) : Quiet s (s.setJournal n j) := by
  unfold State.setJournal
  exact Quiet.ite (Quiet.of rfl rfl rfl rfl rfl) (State.modLabel_quiet s n fun _ => rfl)

theorem State.countEntry_quiet (s : State) (n : Nat) : Quiet s (s.countEntry n) := by
  unfold State.countEntry
  exact Quiet.ite (Quiet.refl s) (State.modLabel_quiet s n fun _ => rfl)

theorem State.countLostEntry_quiet (s : State) (n : Nat) : Quiet s (s.countLostEntry n) := by
  unfold State.countLostEntry
  exact Quiet.ite (Quiet.of rfl rfl rfl rfl rfl) (State.modLabel_quiet s n fun _ => rfl)

/-- The Journal's taking of an entry (R104, R105). -/
theorem State.enter_quiet (s : State) (r : EntryRequest) : Quiet s (s.enter r).1 := by
  unfold State.enter
  split
  · exact Quiet.refl s
  · split
    · exact ((State.setJournal_quiet s _ _).trans (State.addRecords_quiet _ _ _)).trans
        (State.countEntry_quiet _ _)
    · exact ((State.setJournal_quiet s _ _).trans (State.countLostEntry_quiet _ _)).trans
        (State.countLost_quiet _ _ _)

theorem State.putAnchored_quiet (s : State) (n : Nat) (a : Anchor) (b : EntryBody) :
    Quiet s (s.putAnchored n a b) := State.enter_quiet s _

theorem State.put_quiet (s : State) (n : Nat) (b : EntryBody) : Quiet s (s.put n b) :=
  State.enter_quiet s _

/-! ## The record store -/

theorem Site.countLostRecord_keeps (st : Stream) (x : Site) :
    (x.countLostRecord st).core = x.core := by
  cases st <;> rfl

theorem State.discardCapture_quiet (s : State) (c : CapturePiece × Queued) (st : Stream) (n : Nat) :
    Quiet s (s.discardCapture c st n) := by
  unfold State.discardCapture
  dsimp only
  refine Quiet.trans ?_ (State.putAnchored_quiet _ _ _ _)
  refine Quiet.trans ?_ (State.modLabel_quiet _ _ (Site.countLostRecord_keeps _))
  refine Quiet.trans ?_ (State.countLost_quiet _ _ _)
  exact Quiet.of rfl rfl rfl rfl rfl

theorem State.makeRoom_quiet (fuel : Nat) (s : State) (st : Stream) (site length : Nat) :
    Quiet s (State.makeRoom fuel s st site length) := by
  induction fuel generalizing s with
  | zero => exact Quiet.refl s
  | succ n ih =>
    unfold State.makeRoom
    refine Quiet.ite (Quiet.refl s) ?_
    split
    · exact Quiet.refl s
    · exact (State.discardCapture_quiet s _ st site).trans (ih _)

theorem State.admitRecord_quiet (s : State) (st : Stream) (r : Record) : Quiet s (s.admitRecord st r).1 := by
  unfold State.admitRecord
  dsimp only
  split
  · exact (State.makeRoom_quiet _ s _ _ _).trans (State.addRecords_quiet _ _ _)
  · exact ((State.makeRoom_quiet _ s _ _ _).trans (State.countLost_quiet _ _ _)).trans
      (State.modLabel_quiet _ _ (Site.countLostRecord_keeps _))

theorem State.offerCapture_quiet (s : State) (site : Nat) (p : Nat → List CapturePiece) :
    Quiet s (s.offerCapture site p).1 := by
  unfold State.offerCapture
  split
  · exact Quiet.refl s
  · dsimp only
    split
    · refine Quiet.trans ?_ (State.addRecords_quiet _ _ _)
      exact State.modLabel_quiet s site fun _ => rfl
    · exact (State.countLost_quiet s _ _).trans (State.modLabel_quiet _ _ (Site.countLostRecord_keeps _))

theorem State.judgePage_quiet (s : State) (r : WRef) : Quiet s (s.judgePage r).1 := by
  unfold State.judgePage
  dsimp only
  split_ifs <;> exact Quiet.of rfl rfl rfl rfl rfl

theorem State.judgePages_quiet (rs : List WRef) (s : State) : Quiet s (s.judgePages rs).1 := by
  induction rs generalizing s with
  | nil => exact Quiet.refl s
  | cons r rs ih => exact (State.judgePage_quiet s r).trans (ih _)

theorem State.pagesLowTest_quiet (s : State) (n : Nat) : Quiet s (s.pagesLowTest n) := by
  unfold State.pagesLowTest
  exact Quiet.ite (State.raise_quiet s _) (Quiet.refl s)

theorem State.startDelivery_quiet (s : State) (st : Stream) : Quiet s (s.startDelivery st) := by
  unfold State.startDelivery
  refine Quiet.ite ?_ (Quiet.refl s)
  split
  · exact Quiet.refl s
  · exact Quiet.after (State.pagesLowTest_quiet _ _) rfl rfl rfl rfl rfl

theorem State.nextStage_quiet (s : State) (st : Stream) (d : Delivery) : Quiet s (s.nextStage st d) := by
  unfold State.nextStage
  split <;> exact Quiet.of rfl rfl rfl rfl rfl

theorem State.publish_quiet (s : State) (st : Stream) (d : Delivery) : Quiet s (s.publish st d) :=
  Quiet.ofLink rfl rfl rfl rfl rfl

/-! ## The Front End and limits -/

theorem State.rechoose_quiet (s : State) (m : ChannelMap) (c : ReferenceCause) : Quiet s (s.rechoose m c) := by
  unfold State.rechoose
  split
  · exact Quiet.after (State.put_quiet _ _ _) rfl rfl rfl rfl rfl
  · exact Quiet.refl s

theorem State.noteMapChange_quiet (s : State) (a b : ChannelMap) : Quiet s (s.noteMapChange a b) := by
  unfold State.noteMapChange
  exact Quiet.ite (Quiet.of rfl rfl rfl rfl rfl) (Quiet.refl s)

theorem State.applyLimits_quiet (s : State) (k : Fin 8) (l : Limits) : Quiet s (s.applyLimits k l) := by
  unfold State.applyLimits
  split
  · exact Quiet.refl s
  · refine Quiet.trans ?_ (State.put_quiet _ _ _)
    exact State.modSite_quiet s k fun _ => rfl

theorem State.applyPending_quiet (s : State) (k : Fin 8) : Quiet s (s.applyPending k) := by
  unfold State.applyPending
  split
  · exact State.applyLimits_quiet s k _
  · exact Quiet.refl s

/-! ## The Sag Monitor -/

theorem State.claim_quiet (s : State) (c : CaptureKind) (site event : Nat) : Quiet s (s.claim c site event).1 := by
  unfold State.claim
  split
  · exact Quiet.refl s
  · exact Quiet.of rfl rfl rfl rfl rfl

theorem State.closeEvent_quiet (s : State) (k : Fin 8) (c : EndCause) (fin : Stamp) (n : Nat)
    (o : CaptureOutcome) : Quiet s (s.closeEvent k c fin n o) := by
  unfold State.closeEvent
  split
  · refine Quiet.trans ?_ (State.raise_quiet _ _)
    refine Quiet.trans ?_ (State.modSite_quiet _ k fun _ => rfl)
    exact Quiet.of rfl rfl rfl rfl rfl
  · exact Quiet.refl s

theorem State.closeEventByOrder_quiet (s : State) (k : Fin 8) (c : EndCause) :
    Quiet s (s.closeEventByOrder k c) := by
  unfold State.closeEventByOrder
  split
  · exact State.closeEvent_quiet s k c _ _ _
  · exact Quiet.refl s

theorem State.openEventNow_quiet (s : State) (k : Fin 8) (x : Site) (v : PerInput (Option Nat))
    (l : List Input) : Quiet s (s.openEventNow k x v l) := by
  unfold State.openEventNow
  dsimp only
  refine Quiet.trans ?_ (State.raise_quiet _ _)
  refine Quiet.trans ?_ (State.modSite_quiet _ k fun _ => rfl)
  exact (State.claim_quiet s .onset x.label x.sag.nextEvent).before rfl rfl rfl rfl rfl

theorem State.classTest_quiet (s : State) (x : Site) (v : PerInput (Option Nat)) : Quiet s (s.classTest x v) := by
  unfold State.classTest
  split
  · exact Quiet.refl s
  · refine Quiet.ite (Quiet.ite ?_ (Quiet.of rfl rfl rfl rfl rfl)) (Quiet.refl s)
    exact Quiet.after (State.wakeRequest_quiet _ _) rfl rfl rfl rfl rfl

theorem State.recoveryTest_quiet (s : State) (k : Fin 8) (x : Site) (ms : List Member) :
    Quiet s (s.recoveryTest k x ms) := by
  unfold State.recoveryTest
  split
  · exact Quiet.refl s
  · refine Quiet.ite (Quiet.of rfl rfl rfl rfl rfl) (Quiet.ite (State.closeEvent_quiet s k _ _ _ _) ?_)
    exact Quiet.after ((State.claim_quiet _ _ _ _).trans (State.closeEvent_quiet _ k _ _ _ _))
      rfl rfl rfl rfl rfl

theorem State.eventTakes_quiet (s : State) (k : Fin 8) (x : Site) (v : PerInput (Option Nat))
    (l : List Input) : Quiet s (s.eventTakes k x v l) := by
  unfold State.eventTakes
  split
  · exact Quiet.of rfl rfl rfl rfl rfl
  · exact Quiet.ite (Quiet.refl s) (State.openEventNow_quiet s k x v l)

theorem State.takeValueSet_quiet (s : State) (k : Fin 8) (x : Site) (v : PerInput (Option Nat)) :
    Quiet s (s.takeValueSet k x v) := by
  unfold State.takeValueSet
  dsimp only
  refine Quiet.trans ?_ (State.recoveryTest_quiet _ k x _)
  refine Quiet.trans ?_ (State.classTest_quiet _ x v)
  refine Quiet.trans ?_ (State.eventTakes_quiet _ k x v _)
  exact Quiet.of rfl rfl rfl rfl rfl

theorem State.eventLoses_quiet (s : State) (k : Fin 8) (i : Input) (a : Bool) : Quiet s (s.eventLoses k i a) := by
  unfold State.eventLoses
  split
  · exact Quiet.refl s
  · refine Quiet.ite ?_ (Quiet.refl s)
    refine Quiet.ite (Quiet.of rfl rfl rfl rfl rfl) (Quiet.ite (Quiet.of rfl rfl rfl rfl rfl) ?_)
    exact Quiet.after (State.closeEvent_quiet _ k _ _ _ _) rfl rfl rfl rfl rfl

theorem State.sagLoses_quiet (s : State) (k : Fin 8) (i : Input) (a : Bool) : Quiet s (s.sagLoses k i a) := by
  unfold State.sagLoses
  split
  · exact Quiet.refl s
  · exact Quiet.after (State.eventLoses_quiet _ k i a) rfl rfl rfl rfl rfl

theorem State.sagReturns_quiet (s : State) (i : Input) : Quiet s (s.sagReturns i) := by
  unfold State.sagReturns
  split <;> exact Quiet.of rfl rfl rfl rfl rfl

theorem State.setOutcome_quiet (s : State) (site : Nat) (c : CaptureKind) (n : Nat) (o : CaptureOutcome) :
    Quiet s (s.setOutcome site c n o) := by
  unfold State.setOutcome
  dsimp only
  refine Quiet.trans ?_ (State.modLabel_quiet _ _ fun _ => rfl)
  split
  · exact Quiet.ite (Quiet.of rfl rfl rfl rfl rfl) (Quiet.refl s)
  · exact Quiet.refl s

theorem State.finishCapture_quiet (s : State) (k : Fin 4) (t : Tracker) (o : CaptureOutcome) :
    Quiet s (s.finishCapture k t o) := by
  unfold State.finishCapture
  split
  · exact State.setOutcome_quiet s _ _ _ _
  · exact State.setOutcome_quiet s _ _ _ _
  · exact State.put_quiet s _ _

theorem State.abandonTracker_quiet (s : State) (site : Nat) (k : Fin 4) : Quiet s (s.abandonTracker site k) := by
  unfold State.abandonTracker
  split
  · exact Quiet.refl s
  · refine Quiet.ite ?_ (Quiet.refl s)
    exact Quiet.after (State.finishCapture_quiet _ _ _ _) rfl rfl rfl rfl rfl

theorem State.abandonTrackers_quiet (s : State) (site : Nat) : Quiet s (s.abandonTrackers site) := by
  unfold State.abandonTrackers trackerNumbers
  simp only [List.foldl]
  exact (((State.abandonTracker_quiet s site _).trans (State.abandonTracker_quiet _ site _)).trans
    (State.abandonTracker_quiet _ site _)).trans (State.abandonTracker_quiet _ site _)

/-! ## The Interval Aggregator -/

theorem State.openInterval_quiet (s : State) (k : Fin 8) (t : Time) : Quiet s (s.openInterval k t) := by
  unfold State.openInterval
  split <;> exact Quiet.of rfl rfl rfl rfl rfl

theorem State.admitInterval_quiet (s : State) (iv : Interval) (x : Site) (c : IntervalEnd) (n : Nat)
    (e : Bool) : Quiet s (s.admitInterval iv x c n e) := by
  unfold State.admitInterval
  dsimp only
  have h : Quiet s _ := (State.modSite_quiet s iv.slot (f := fun y => { y with nextInterval := x.nextInterval + 1 })
    fun _ => rfl).trans (State.admitRecord_quiet _ .intervals
      (.interval (iv.toRecord x.nextInterval c n e)))
  exact Quiet.ite (h.trans (State.modSite_quiet _ _ fun _ => rfl)) h

theorem State.closeInterval_quiet (s : State) (c : IntervalEnd) (n : Nat) (e : Bool) :
    Quiet s (s.closeInterval c n e) := by
  unfold State.closeInterval
  split
  · exact Quiet.of rfl rfl rfl rfl rfl
  · dsimp only
    refine Quiet.ite (Quiet.of rfl rfl rfl rfl rfl) ?_
    exact Quiet.after (State.admitInterval_quiet _ _ _ _ _ _) rfl rfl rfl rfl rfl

theorem State.closeIntervalByOrder_quiet (s : State) (c : IntervalEnd) : Quiet s (s.closeIntervalByOrder c) := by
  unfold State.closeIntervalByOrder
  split
  · exact Quiet.refl s
  · exact State.closeInterval_quiet s _ _ _

theorem State.intervalTakes_quiet (s : State) (b : BlockResult) : Quiet s (s.intervalTakes b) := by
  unfold State.intervalTakes
  split <;> exact Quiet.of rfl rfl rfl rfl rfl

theorem State.boundary_quiet (s : State) (iv : Interval) (b : BlockResult) (c : IntervalEnd) (n : Nat)
    (e : Bool) (t : Time) : Quiet s (s.boundary iv b c n e t) := by
  unfold State.boundary
  dsimp only
  refine Quiet.trans (((State.closeInterval_quiet s c n e).trans (State.applyPending_quiet _ iv.slot)).trans
    (State.openInterval_quiet _ iv.slot t)) ?_
  refine Quiet.after (State.intervalTakes_quiet _ b) rfl rfl rfl rfl rfl

theorem State.takeBlock_quiet (s : State) (b : BlockResult) : Quiet s (s.takeBlock b) := by
  unfold State.takeBlock
  split
  · exact Quiet.refl s
  · exact Quiet.ite (State.boundary_quiet s _ b _ _ _ _)
      (Quiet.ite (State.intervalTakes_quiet s b) (State.boundary_quiet s _ b _ _ _ _))

/-! ## The kit check and lead watch -/

theorem State.afterCheck_quiet (s : State) (k : Fin 8) (x : Site) (r : ReturnState) (v : CheckVerdict)
    (o : Conclusion) (rep : CheckReport) : Quiet s (s.afterCheck k x r v o rep) := by
  have hput (t : State) : Quiet t ((t.put x.label (.checkReport rep)).raise .check) :=
    (State.put_quiet t _ _).trans (State.raise_quiet _ _)
  unfold State.afterCheck
  dsimp only
  split
  · exact hput s
  · refine Quiet.trans ?_ (State.applyPending_quiet _ k)
    refine Quiet.trans ?_ (hput _)
    exact Quiet.of rfl rfl rfl rfl rfl
  · have h : Quiet s (s.noteMapChange x.map o.map) := State.noteMapChange_quiet s x.map o.map
    refine Quiet.ite (Quiet.trans ?_ (State.rechoose_quiet _ _ _)) ?_ <;>
      refine Quiet.trans ?_ (hput _) <;> exact h.before rfl rfl rfl rfl rfl

theorem State.endCheck_steady (s : State) (c : CheckRecord) (v : CheckVerdict) (b : Bool) (o : Conclusion) :
    Steady s (s.endCheck c v b o) := by
  unfold State.endCheck
  split
  · exact Steady.of rfl rfl rfl rfl
  · dsimp only
    refine Steady.trans ?_ (State.afterCheck_quiet _ _ _ _ _ _ _).steady
    refine Steady.trans ?_ (State.modSite_steady _ c.slot _)
    exact Steady.of rfl rfl rfl rfl

theorem State.breakCheck_steady (s : State) (c : CheckRecord) (v : CheckVerdict) :
    Steady s (s.breakCheck c v) := by
  unfold State.breakCheck
  split
  · exact Steady.of rfl rfl rfl rfl
  · exact State.endCheck_steady s c v _ _

theorem State.breakOnLead_steady (s : State) (i : Input) : Steady s (s.breakOnLead i) := by
  unfold State.breakOnLead
  split
  · exact Steady.ite (State.breakCheck_steady s _ _) (Steady.refl s)
  · exact Steady.refl s

theorem State.checkBlock_steady (s : State) (x : Site) (b : BlockResult) (began fin : Stamp) :
    Steady s (s.checkBlock x b began fin) := by
  unfold State.checkBlock
  split
  · exact Steady.refl s
  · dsimp only
    exact Steady.ite (State.breakCheck_steady s _ _) (Steady.of rfl rfl rfl rfl)

theorem State.lineLost_quiet (s : State) (k : Fin 8) (x : Site) (i : Input) (a : Bool) :
    Quiet s (s.lineLost k x i a) := by
  unfold State.lineLost
  refine Quiet.ite (Quiet.trans ?_ (State.rechoose_quiet _ _ _)) (Quiet.refl s)
  unfold State.tellLoss
  dsimp only
  exact Quiet.ite ((State.sagLoses_quiet s k i a).trans (Quiet.of rfl rfl rfl rfl rfl))
    (State.sagLoses_quiet s k i a)

theorem State.declareLost_steady (s : State) (k : Fin 8) (x : Site) (i : Input) (l : Loss)
    (a : Bool) : Steady s (s.declareLost k x i l a) := by
  unfold State.declareLost
  dsimp only
  refine Steady.trans (Quiet.steady ?_) (State.breakOnLead_steady _ i)
  refine ((Quiet.trans ?_ (State.put_quiet _ _ _)).trans (State.lineLost_quiet _ k x i a)).trans
    (State.raise_quiet _ _)
  unfold State.markLost
  exact Quiet.after (State.modSite_quiet _ k fun _ => rfl) rfl rfl rfl rfl rfl

theorem State.lineRestored_quiet (s : State) (k : Fin 8) (x : Site) (i : Input) :
    Quiet s (s.lineRestored k x i) := by
  unfold State.lineRestored
  exact Quiet.ite ((State.sagReturns_quiet s i).trans (State.rechoose_quiet _ _ _)) (Quiet.refl s)

theorem State.declarePresent_steady (s : State) (k : Fin 8) (x : Site) (i : Input) (w : LeadState)
    (c : Stamp) : Steady s (s.declarePresent k x i w c) := by
  unfold State.declarePresent
  dsimp only
  refine Steady.trans (Quiet.steady ?_) (State.breakOnLead_steady _ i)
  refine ((Quiet.trans ?_ (State.put_quiet _ _ _)).trans (State.lineRestored_quiet _ k x i)).trans
    (State.raise_quiet _ _)
  exact Quiet.after (State.modSite_quiet _ k fun _ => rfl) rfl rfl rfl rfl rfl

/-! ## Half-cycles, cycles and blocks -/

theorem State.sagHalf_quiet (s : State) (k : Fin 8) (x : Site) (v : ValueSet) :
    Quiet s (s.sagHalf k x v) := by
  unfold State.sagHalf
  dsimp only
  refine Quiet.trans ?_ (t := if x.state = .surveying then (s.takeValueSet k x v.percents).report x else s)
    (Quiet.of rfl rfl rfl rfl rfl)
  exact Quiet.ite ((State.takeValueSet_quiet s k x v.percents).trans (Quiet.of rfl rfl rfl rfl rfl)) (Quiet.refl s)

theorem State.endHalf_quiet (s : State) (k : Fin 8) (x : Site) (m : PerInput (List Int)) :
    Quiet s (s.endHalf k x m) := by
  unfold State.endHalf
  dsimp only
  refine Quiet.before (Quiet.trans ?_ (State.sagHalf_quiet _ k x _)) rfl rfl rfl rfl rfl
  exact Quiet.of rfl rfl rfl rfl rfl

theorem State.beginBlock_quiet (s : State) (l : PerClamp Nat) : Quiet s (s.beginBlock l) := by
  unfold State.beginBlock
  split
  · exact Quiet.ite (Quiet.of rfl rfl rfl rfl rfl) (Quiet.refl s)
  · exact Quiet.refl s

theorem State.endBlock_steady (s : State) (x : Site) (b : BlockResult) (l : PerClamp Nat) :
    Steady s (s.endBlock x b l) := by
  unfold State.endBlock
  exact ((State.takeBlock_quiet s b).steady.trans (State.checkBlock_steady _ x b _ _)).trans
    (State.beginBlock_quiet _ l).steady

end Sys2Proof.Machine
end

