-- ==== Sys2Proof/Laws/FramesPrint.lean ====
section
/-! SUPPORT. What the operations of the Print Engine, and of events handed on, leave alone: all of them are
quiet. -/

namespace Sys2Proof.Machine

/-! ## The queue and its pins -/

theorem State.modPrint_quiet (s : State) (f : PrintEngine → PrintEngine) : Quiet s (s.modPrint f) :=
  Quiet.of rfl rfl rfl rfl rfl

/-- A change of every site in a list of labels that keeps its core. -/
theorem modLabels_quiet {f : Site → Site} (h : ∀ x, (f x).core = x.core)
    (ns : List Nat) (s : State) : Quiet s (ns.foldl (fun t n => t.modLabel n f) s) := by
  induction ns generalizing s with
  | nil => exact Quiet.refl s
  | cons n ns ih => exact (State.modLabel_quiet s n h).trans (ih _)

theorem State.createJob_quiet (s : State) (o : JobOwner) (c : Nat) (is : List Item) (ns : List Nat)
    (ps : List Page) (e : Nat) : Quiet s (s.createJob o c is ns ps e) := by
  unfold State.createJob
  dsimp only
  refine Quiet.trans ?_ (State.modPrint_quiet _ _)
  exact modLabels_quiet (f := Site.takePin) (fun _ => rfl) ns s

theorem State.requestSlip_quiet (s t : State) (n : Nat) (r : EventRecord) (h : s.requestSlip n r = some t) :
    Quiet s t := by
  unfold State.requestSlip at h
  split at h
  · cases h; exact State.createJob_quiet s _ _ _ _ _ _
  · cases h

/-! ## The work on a job -/

theorem State.drive_quiet (s : State) : Quiet s s.drive := by
  unfold State.drive
  split
  · exact Quiet.refl s
  · split
    · exact Quiet.refl s
    · exact Quiet.ite (State.modPrint_quiet s _) (Quiet.refl s)

theorem State.startRead_quiet (s : State) (j : Job) (p : Page) (o : Nat) : Quiet s (s.startRead j p o) :=
  Quiet.of rfl rfl rfl rfl rfl

theorem State.reach_quiet (s : State) (j : Job) (i : Item) : Quiet s (s.reach j i) := by
  unfold State.reach
  split
  · exact Quiet.ite (State.startRead_quiet s _ _ _) (State.modPrint_quiet s _)
  · exact State.modPrint_quiet s _

theorem State.reachItem_quiet (s : State) : Quiet s s.reachItem := by
  unfold State.reachItem
  split
  · exact Quiet.refl s
  · split
    · exact Quiet.refl s
    · exact Quiet.ite (State.reach_quiet s _ _) (Quiet.refl s)

theorem State.work_quiet (s : State) : Quiet s s.work :=
  (State.reachItem_quiet s).trans (State.drive_quiet _)

theorem State.settle_quiet (s : State) : Quiet s s.settle := by
  unfold State.settle
  dsimp only
  refine Quiet.trans ?_ (State.work_quiet _)
  exact Quiet.ite ((State.modPrint_quiet s _).trans (State.modPrint_quiet _ _)) (State.modPrint_quiet s _)

theorem State.linkReturns_quiet (s : State) : Quiet s s.linkReturns := by
  unfold State.linkReturns
  exact Quiet.ite ((State.modPrint_quiet s _).trans (State.work_quiet _)) (Quiet.refl s)

theorem State.judgeLine_quiet (s : State) : Quiet s s.judgeLine :=
  (State.modPrint_quiet s _).trans (State.settle_quiet _)

/-! ## The end of a job, a frame and a read -/

theorem State.endJob_quiet (s : State) (j : Job) (o : JobOutcome) (c : Nat) : Quiet s (s.endJob j o c) := by
  unfold State.endJob
  dsimp only
  refine Quiet.trans ?_ (State.modPrint_quiet _ _)
  refine Quiet.trans ?_ (State.raise_quiet _ _)
  refine Quiet.trans ?_ (State.put_quiet _ _ _)
  refine Quiet.trans ?_ (modLabels_quiet (f := Site.dropPin) (fun _ => rfl) j.sites _)
  exact Quiet.of rfl rfl rfl rfl rfl

theorem State.breakJob_quiet (s : State) (j : Job) (o : JobOutcome) : Quiet s (s.breakJob j o) :=
  State.endJob_quiet s j o _

theorem State.completeLine_quiet (s : State) (j : Job) : Quiet s (s.completeLine j) := by
  unfold State.completeLine
  dsimp only
  split
  · exact Quiet.ite (State.breakJob_quiet s _ _) (State.modPrint_quiet s _)
  · exact Quiet.ite (State.endJob_quiet s _ _ _)
      (Quiet.ite (State.modPrint_quiet s _) (State.endJob_quiet s _ _ _))

theorem State.endFrame_quiet (s : State) (f : Frame) : Quiet s (s.endFrame f) := by
  unfold State.endFrame
  dsimp only
  split
  · refine Quiet.ite ?_ ?_ <;> refine Quiet.trans ?_ (State.work_quiet _)
    · exact State.modPrint_quiet s _
    · refine Quiet.trans ?_ (State.completeLine_quiet _ _)
      exact State.modPrint_quiet s _
  · exact State.modPrint_quiet s _

theorem State.endByte_quiet (s : State) (f : Frame) : Quiet s (s.endByte f) := by
  unfold State.endByte
  split
  · exact State.modPrint_quiet s _
  · exact State.endFrame_quiet s f

theorem State.abandonFrame_quiet (s : State) (f : Frame) : Quiet s (s.abandonFrame f) := by
  unfold State.abandonFrame
  dsimp only
  split
  · refine Quiet.ite (State.modPrint_quiet s _) (Quiet.ite ?_ ?_)
    · refine Quiet.trans ?_ (State.breakJob_quiet _ _ _)
      exact State.modPrint_quiet s _
    · refine Quiet.trans ?_ (State.modPrint_quiet _ _)
      exact State.modPrint_quiet s _
  · exact State.modPrint_quiet s _

theorem State.signalMoves_quiet (s : State) (b : Bool) : Quiet s (s.signalMoves b) := by
  unfold State.signalMoves
  split
  · exact Quiet.ite ((State.abandonFrame_quiet s _).trans (State.settle_quiet _)) (State.settle_quiet s)
  · exact State.settle_quiet s

theorem State.declareStall_quiet (s : State) (f : Frame) : Quiet s (s.declareStall f) := by
  unfold State.declareStall
  dsimp only
  split
  · refine Quiet.ite (State.modPrint_quiet s _) ?_
    refine Quiet.trans ?_ (State.breakJob_quiet _ _ _)
    exact State.modPrint_quiet s _
  · exact State.modPrint_quiet s _

theorem State.endRead_quiet (s : State) (j : Job) (ls : List PrintLine) : Quiet s (s.endRead j ls) := by
  unfold State.endRead
  dsimp only
  refine Quiet.ite ?_ ?_
  · refine Quiet.trans ?_ (State.breakJob_quiet _ _ _)
    exact State.modPrint_quiet s _
  · refine Quiet.trans ?_ (State.work_quiet _)
    refine Quiet.trans ?_ (State.modPrint_quiet _ _)
    exact State.modPrint_quiet s _

theorem State.readRest_quiet (s : State) (r : RecordRead) (h : List Byte) : Quiet s (s.readRest r h) :=
  Quiet.of rfl rfl rfl rfl rfl

theorem State.readDone_quiet (s : State) (r : RecordRead) (j : Job) (i : Item) (b : List Byte) :
    Quiet s (s.readDone r j i b) := by
  unfold State.readDone
  split
  · exact Quiet.ite (State.endRead_quiet s _ _)
      (Quiet.ite (State.endRead_quiet s _ _) (State.readRest_quiet s _ _))
  · exact State.endRead_quiet s _ _

theorem State.failRead_quiet (s : State) : Quiet s s.failRead := by
  unfold State.failRead
  split
  · exact (State.modPrint_quiet s _).trans (State.breakJob_quiet _ _ _)
  · exact Quiet.refl s

/-- Every job of a list ends. -/
theorem breakJobs_quiet (o : JobOutcome) (js : List Job) (s : State) :
    Quiet s (js.foldl (fun t j => t.breakJob j o) s) := by
  induction js generalizing s with
  | nil => exact Quiet.refl s
  | cons j js ih => exact (State.breakJob_quiet s j o).trans (ih _)

theorem State.stopPrinting_quiet (s : State) : Quiet s s.stopPrinting :=
  (State.modPrint_quiet s _).trans (breakJobs_quiet _ _ _)

/-! ## Events handed on -/

theorem State.skipSlip_quiet (s : State) (x : Site) (r : EventRecord) : Quiet s (s.skipSlip x r) := by
  unfold State.skipSlip
  refine Quiet.trans ?_ (State.putAnchored_quiet _ _ _ _)
  exact State.modLabel_quiet s _ fun _ => rfl

theorem State.testSlip_quiet (s : State) (r : EventRecord) : Quiet s (s.testSlip r) := by
  unfold State.testSlip
  split
  · exact Quiet.refl s
  · refine Quiet.ite ?_ (Quiet.refl s)
    split
    · next h => exact State.requestSlip_quiet s _ _ _ h
    · exact State.skipSlip_quiet s _ _

theorem State.handOn_quiet (s : State) (r : EventRecord) : Quiet s (s.handOn r) := by
  unfold State.handOn
  dsimp only
  have h : Quiet s ((s.modLabel r.site Site.popAdmission).admitRecord .events (.event r)).1 := by
    refine Quiet.trans ?_ (State.admitRecord_quiet _ _ _)
    exact State.modLabel_quiet s _ fun _ => rfl
  refine Quiet.ite ?_ h
  refine Quiet.trans ?_ (State.testSlip_quiet _ r)
  refine h.trans ?_
  exact State.modLabel_quiet _ _ fun _ => rfl

theorem State.handOnAll_quiet (n : Nat) (s : State) (label : Nat) : Quiet s (State.handOnAll n s label) := by
  induction n generalizing s with
  | zero => exact Quiet.refl s
  | succ n ih =>
    unfold State.handOnAll
    split
    · exact Quiet.refl s
    · exact (State.handOn_quiet s _).trans (ih _)

end Sys2Proof.Machine
end

