-- ==== Sys2Proof/Laws/Orders.lean ====
section
/-! SUPPORT. How an order reaches its block and how its answer goes back: one lemma for an order that is
offered, one for an order that is not, and what each order leaves alone. -/

namespace Sys2Proof.Machine

/-! ## Offers and answers -/

theorem State.offered_iff (s : State) (o : Order) (f : Offer) :
    s.offered o = some f ↔ Offers s f ∧ f.order = o := by
  unfold State.offered
  constructor
  · intro h
    split at h
    · next g hg =>
      split at h
      · next hc => cases h; exact ⟨⟨hc.1, hg⟩, hc.2⟩
      · cases h
    all_goals cases h
  · rintro ⟨⟨h1, h2⟩, h3⟩
    rw [h2]
    exact if_pos ⟨h1, h3⟩

/-- An order that is offered is taken whole, and its result is being written. -/
theorem State.answer_of_offer {s : State} {o : Order} {f : Offer} (g : State → Answer) (h : Offers s f)
    (ho : f.order = o) :
    s.answer o g = .next ((g s).state.writeResult f.at_ f.bodyLength (g s).code (g s).area) := by
  unfold State.answer
  rw [(State.offered_iff s o f).mpr ⟨h, ho⟩]

/-- An order that is not offered changes nothing. -/
theorem State.answer_of_none {s : State} {o : Order} (g : State → Answer) (h : s.offered o = none) :
    s.answer o g = .next s := by
  unfold State.answer
  rw [h]

/-- A command that answers an order takes it. -/
theorem takes_of_answer {c : Instr} {o : Order} {s : State} {g : State → Answer} {u : State}
    {code : ResultCode} {area : List Byte} (hc : exec c s = s.answer o g) (hu : g s = ⟨u, code, area⟩) :
    Takes c o s u code area := by
  intro f hf ho
  rw [hc, State.answer_of_offer g hf ho, hu]

/-- An order command answers its own state, or that of its order with the result being written. -/
theorem State.answer_cases (s : State) (o : Order) (g : State → Answer) :
    s.answer o g = .next s ∨ ∃ f, Offers s f ∧ f.order = o ∧
      s.answer o g = .next ((g s).state.writeResult f.at_ f.bodyLength (g s).code (g s).area) := by
  cases h : s.offered o with
  | none => exact Or.inl (State.answer_of_none g h)
  | some f =>
    have hf := (State.offered_iff s o f).mp h
    exact Or.inr ⟨f, hf.1, hf.2, State.answer_of_offer g hf.1 hf.2⟩

/-- The common judgement answers a refusal or what the order does with the site found. -/
theorem State.judgeSite_cases (s : State) (n : Nat) (b : Bool) (f : Fin 8 → Site → Answer) {P : Answer → Prop}
    (hr : ∀ c, P (refuse s c)) (hf : ∀ k x, s.findSlot n = some k → s.site k = some x → P (f k x)) :
    P (s.judgeSite n b f) := by
  unfold State.judgeSite
  split
  · exact hr _
  · split
    · exact hr _
    · next k hk =>
      split
      · exact hr _
      · next x hx => exact hf k x hk hx

/-- The common judgement passes for a label in range that a slot holds. -/
theorem State.judgeSite_pass {s : State} {n : Nat} {b : Bool} {k : Fin 8} {x : Site}
    (f : Fin 8 → Site → Answer) (hl : labelOk n = true) (hb : b = true) (hk : s.findSlot n = some k)
    (hx : s.site k = some x) : s.judgeSite n b f = f k x := by
  unfold State.judgeSite
  rw [if_neg (by simp [hl, hb]), hk]
  simp only [hx]

/-! ## What the sites' orders leave alone -/

theorem refuse_steady (s : State) (c : ResultCode) : Steady s (refuse s c).state := Steady.refl s

theorem State.createSite_steady (s : State) (b : CreateSiteBody) : Steady s (s.createSite b).state := by
  unfold State.createSite
  split
  · exact Steady.refl s
  · split
    · exact Steady.refl s
    · split
      · exact Steady.refl s
      · exact (State.setSlot_steady s _ _).trans (State.put_quiet _ _ _).steady

theorem State.liveMapChanges_steady (s : State) (x : Site) (m : ChannelMap) :
    Steady s (s.liveMapChanges x m) := by
  unfold State.liveMapChanges
  refine Steady.ite ?_ (Steady.refl s)
  refine Steady.trans ?_ (State.rechoose_quiet _ _ _).steady
  exact (State.noteMapChange_quiet s x.map m).steady.trans (Steady.of rfl rfl rfl rfl)

theorem State.setMap_steady (s : State) (b : SetMapBody) : Steady s (s.setMap b).state := by
  unfold State.setMap
  refine State.judgeSite_cases s _ _ _ (P := fun a => Steady s a.state) (refuse_steady s) fun k x _ _ => ?_
  dsimp only
  split
  · exact Steady.refl s
  · split
    all_goals first
      | exact Steady.refl s
      | refine Steady.trans ?_ (State.put_quiet _ _ _).steady
        exact (State.modSite_steady s k _).trans (State.liveMapChanges_steady _ _ _)

theorem State.setLimits_steady (s : State) (b : SetLimitsBody) : Steady s (s.setLimits b).state := by
  unfold State.setLimits
  refine State.judgeSite_cases s _ _ _ (P := fun a => Steady s a.state) (refuse_steady s) fun k x _ _ => ?_
  repeat' split
  all_goals first
    | exact Steady.refl s
    | (dsimp only [accept]; exact (State.applyLimits_quiet s k _).steady)
    | (dsimp only [accept]; exact State.modSite_steady s k _)

theorem State.firstPulse_steady (s : State) (x : Site) (l : PerClamp Nat) :
    Steady s (s.firstPulse x l) := Steady.of rfl rfl rfl rfl

theorem State.beginSurvey_steady (s : State) (k : Fin 8) (x : Site) (l : PerClamp Nat) :
    Steady s (s.beginSurvey k x l) := by
  unfold State.beginSurvey
  dsimp only
  refine Steady.trans ?_ (State.firstPulse_steady _ _ _)
  refine Steady.trans ?_ (State.put_quiet _ _ _).steady
  refine Steady.trans ?_ (State.openInterval_quiet _ k _).steady
  exact (State.modSite_steady s k _).trans (Steady.of rfl rfl rfl rfl)

theorem State.startSurvey_steady (s : State) (n : Nat) (u : Bool) (l : PerClamp Nat) :
    Steady s (s.startSurvey n u l).state := by
  unfold State.startSurvey
  refine State.judgeSite_cases s _ _ _ (P := fun a => Steady s a.state) (refuse_steady s) fun k x _ _ => ?_
  repeat' split
  all_goals first
    | exact Steady.refl s
    | (dsimp only [accept]; exact State.beginSurvey_steady s k x l)

theorem State.handOnWaiting_quiet (s : State) (n : Nat) : Quiet s (s.handOnWaiting n) :=
  State.handOnAll_quiet _ s n

theorem State.pause_steady (s : State) (k : Fin 8) (n : Nat) (c : Option VanLine) :
    Steady s (s.pause k n c) := by
  unfold State.pause
  dsimp only
  refine Steady.trans ?_ (State.put_quiet _ _ _).steady
  refine Steady.trans ?_ (State.closeIntervalByOrder_quiet _ _).steady
  refine Steady.trans (t := ((s.modSite k fun y => { y with state := .paused }).closeEventByOrder k
    .paused).handOnWaiting n) ?_ (Steady.of rfl rfl rfl rfl)
  exact ((State.modSite_steady s k _).trans (State.closeEventByOrder_quiet _ k _).steady).trans
    (State.handOnWaiting_quiet _ n).steady

theorem State.pauseSurvey_steady (s : State) (n : Nat) : Steady s (s.pauseSurvey n).state := by
  unfold State.pauseSurvey
  refine State.judgeSite_cases s _ _ _ (P := fun a => Steady s a.state) (refuse_steady s) fun k x _ _ => ?_
  repeat' split
  all_goals first
    | exact Steady.refl s
    | (dsimp only [accept]; exact State.pause_steady s k _ _)

theorem State.resume_steady (s : State) (k : Fin 8) (x : Site) : Steady s (s.resume k x) := by
  unfold State.resume
  dsimp only
  refine Steady.trans ?_ (State.openInterval_quiet _ k _).steady
  refine Steady.trans (t := ((s.modSite k fun y => { y with state := .surveying }).put x.label
    .resumed).applyPending k) ?_ (Steady.of rfl rfl rfl rfl)
  exact ((State.modSite_steady s k _).trans (State.put_quiet _ _ _).steady).trans
    (State.applyPending_quiet _ k).steady

theorem State.resumeSurvey_steady (s : State) (n : Nat) : Steady s (s.resumeSurvey n).state := by
  unfold State.resumeSurvey
  refine State.judgeSite_cases s _ _ _ (P := fun a => Steady s a.state) (refuse_steady s) fun k x _ _ => ?_
  repeat' split
  all_goals first
    | exact Steady.refl s
    | (dsimp only [accept]; exact State.resume_steady s k x)

theorem State.abortCheck_steady (s : State) : Steady s s.abortCheck := by
  unfold State.abortCheck
  split
  · exact State.breakCheck_steady s _ _
  · exact Steady.refl s

theorem State.closeWork_steady (s : State) (k : Fin 8) (x : Site) : Steady s (s.closeWork k x) := by
  unfold State.closeWork
  split
  · exact ((State.abandonTrackers_quiet s _).trans (State.handOnWaiting_quiet _ _)).steady.trans
      (State.abortCheck_steady _)
  · exact ((((State.abandonTrackers_quiet s _).trans (State.closeEventByOrder_quiet _ k _)).trans
      (State.handOnWaiting_quiet _ _)).trans (State.closeIntervalByOrder_quiet _ _)).steady
  · exact ((State.abandonTrackers_quiet s _).trans (State.handOnWaiting_quiet _ _)).steady
  all_goals exact Steady.refl s

theorem State.leaveLive_steady (s : State) (w : SiteState) : Steady s (s.leaveLive w) := by
  unfold State.leaveLive
  exact Steady.ite (Steady.of rfl rfl rfl rfl) (Steady.refl s)

theorem State.closeSite_steady (s : State) (n : Nat) : Steady s (s.closeSite n).state := by
  unfold State.closeSite
  refine State.judgeSite_cases s _ _ _ (P := fun a => Steady s a.state) (refuse_steady s) fun k x _ _ => ?_
  split_ifs
  · exact Steady.refl s
  · refine Steady.trans ?_ (State.put_quiet _ _ _).steady
    exact ((State.closeWork_steady s k x).trans (State.modSite_steady _ k _)).trans
      (State.leaveLive_steady _ _)

theorem State.discardSite_steady (s : State) (n : Nat) : Steady s (s.discardSite n).state := by
  unfold State.discardSite
  refine State.judgeSite_cases s _ _ _ (P := fun a => Steady s a.state) (refuse_steady s) fun k x _ _ => ?_
  repeat' split
  all_goals first
    | exact Steady.refl s
    | (dsimp only [accept]; exact State.setSlot_steady s k none)

theorem State.readSite_state (s : State) (n r : Nat) : (s.readSite n r).state = s := by
  unfold State.readSite
  split
  · split <;> rfl
  · refine State.judgeSite_cases s _ _ _ (P := fun a => a.state = s) (fun _ => rfl) fun k x _ _ => ?_
    split_ifs <;> rfl

theorem State.beginCheck_steady (s : State) (k : Fin 8) (x : Site) (l : PerClamp Nat) :
    Steady s (s.beginCheck k x l) := by
  unfold State.beginCheck
  dsimp only
  refine Steady.trans ?_ (State.put_quiet _ _ _).steady
  refine (State.modSite_steady s k fun y =>
    { y with state := .checking, returnState := some (returnFor x.state) }).trans ?_
  unfold State.checkPulse State.checkStarts
  split_ifs <;> exact Steady.of rfl rfl rfl rfl

theorem State.startCheck_steady (s : State) (n : Nat) (l : PerClamp Nat) :
    Steady s (s.startCheck n l).state := by
  unfold State.startCheck
  refine State.judgeSite_cases s _ _ _ (P := fun a => Steady s a.state) (refuse_steady s) fun k x _ _ => ?_
  repeat' split
  all_goals first
    | exact Steady.refl s
    | (dsimp only [accept]; exact State.beginCheck_steady s k x l)

theorem State.cancelCheck_steady (s : State) (n : Nat) : Steady s (s.cancelCheck n).state := by
  unfold State.cancelCheck
  refine State.judgeSite_cases s _ _ _ (P := fun a => Steady s a.state) (refuse_steady s) fun k x _ _ => ?_
  repeat' split
  all_goals first
    | exact Steady.refl s
    | (dsimp only [accept]; exact State.breakCheck_steady s _ _)

theorem State.snapshot_steady (s : State) (n : Nat) : Steady s (s.snapshot n).state := by
  unfold State.snapshot
  refine State.judgeSite_cases s _ _ _ (P := fun a => Steady s a.state) (refuse_steady s) fun k x _ _ => ?_
  repeat' split
  all_goals first
    | exact Steady.refl s
    | (dsimp only [accept]; exact (State.claim_quiet s _ _ _).steady)

theorem State.addNote_steady (s : State) (b : AddNoteBody) : Steady s (s.addNote b).state := by
  unfold State.addNote
  split
  · exact Steady.refl s
  · dsimp only
    split <;> exact (State.enter_quiet s _).steady

/-! ## What the other orders leave alone -/

theorem State.givePages_steady (s : State) (c : Nat) (ps : List WRef) (r : Nat) :
    Steady s (s.givePages c ps r).state := by
  unfold State.givePages
  repeat' split
  all_goals first
    | exact Steady.refl s
    | (dsimp only [accept]; exact (State.judgePages_quiet ps s).steady)

theorem State.flushStreams_steady (s : State) (m r : Nat) : Steady s (s.flushStreams m r).state := by
  unfold State.flushStreams
  repeat' split
  all_goals first
    | exact Steady.refl s
    | (dsimp only [accept]; exact Steady.of rfl rfl rfl rfl)

theorem State.setStoreLevels_steady (s : State) (l : StoreLevels) (r : Nat) :
    Steady s (s.setStoreLevels l r).state := by
  unfold State.setStoreLevels
  repeat' split
  all_goals first
    | exact Steady.refl s
    | (dsimp only [accept]; exact Steady.of rfl rfl rfl rfl)

theorem State.judgeJob_steady (s : State) (c : Nat) (is : List RawItem) : Steady s (s.judgeJob c is).state := by
  unfold State.judgeJob
  repeat' split
  all_goals first
    | exact Steady.refl s
    | (dsimp only [State.queueJob, accept]
       refine Steady.trans ?_ (State.createJob_quiet _ _ _ _ _ _ _).steady
       exact Steady.of rfl rfl rfl rfl)

theorem State.queuePrint_steady (s : State) (b : QueuePrintBody) (r : Nat) :
    Steady s (s.queuePrint b r).state := by
  unfold State.queuePrint
  repeat' split
  all_goals first
    | exact Steady.refl s
    | exact State.judgeJob_steady s _ _

theorem State.cancelPrint_steady (s : State) (n : Nat) : Steady s (s.cancelPrint n).state := by
  unfold State.cancelPrint
  repeat' split
  all_goals first
    | exact Steady.refl s
    | (dsimp only [accept]; exact (State.modPrint_quiet s _).steady)
    | (dsimp only [accept]; exact (State.breakJob_quiet s _ _).steady)

theorem State.readPrintQueue_state (s : State) (r : Nat) : (s.readPrintQueue r).state = s := by
  unfold State.readPrintQueue
  split_ifs <;> rfl

theorem State.setPrinter_steady (s : State) (n : Nat) : Steady s (s.setPrinter n).state := by
  unfold State.setPrinter
  repeat' split
  all_goals first
    | exact Steady.refl s
    | (dsimp only [accept]; exact (State.modPrint_quiet s _).steady)

theorem State.modVan_quiet (s : State) (f : VanLines → VanLines) : Quiet s (s.modVan f) :=
  Quiet.of rfl rfl rfl rfl rfl

theorem State.setVanLines_steady (s : State) (b : PerLine LineSettingBody) (r : Nat) :
    Steady s (s.setVanLines b r).state := by
  unfold State.setVanLines
  repeat' split
  all_goals first
    | exact Steady.refl s
    | (dsimp only [accept]; exact (State.modVan_quiet s _).steady)

/-! ## Van lines -/

theorem State.markEntry_quiet (s : State) (e : Edge) (t : Time) : Quiet s (s.markEntry e t) :=
  (State.putAnchored_quiet s _ _ _).trans (State.modVan_quiet _ _)

theorem State.lineEntry_quiet (s : State) (l : VanLine) (e : Edge) (a : Level) (o : Option LineOutcome)
    (t : Time) : Quiet s (s.lineEntry l e a o t) := State.put_quiet s _ _

theorem State.pauseLive_steady (s : State) (l : VanLine) (e : Edge) (a : Level) (t : Time) :
    Steady s (s.pauseLive l e a t) := by
  unfold State.pauseLive
  split
  · split_ifs
    · exact (State.pause_steady s _ _ _).trans (State.lineEntry_quiet _ _ _ _ _ _).steady
    · exact (State.lineEntry_quiet s _ _ _ _ _).steady
  · exact (State.lineEntry_quiet s _ _ _ _ _).steady

theorem State.restExit_quiet (s : State) (w : WakeSource) : Quiet s (s.restExit w) := by
  unfold State.restExit
  split
  · split
    · exact State.modVan_quiet s _
    · exact Quiet.refl s
  · exact Quiet.refl s

theorem State.wakeAction_quiet (s : State) (l : VanLine) : Quiet s (s.wakeAction l) := by
  unfold State.wakeAction
  exact Quiet.ite (Quiet.refl s) ((State.wakeRequest_quiet s _).trans (State.restExit_quiet _ _))

theorem State.lineAction_steady (s : State) (line : VanLine) (a : LineAction) (e : Edge) (l : Level)
    (t : Time) : Steady s (s.lineAction line a e l t) := by
  unfold State.lineAction
  split
  · exact Steady.refl s
  · exact (State.wakeAction_quiet s _).steady
  · exact (State.markEntry_quiet s _ _).steady
  · exact (State.lineEntry_quiet s _ _ _ _ _).steady
  · exact Steady.refl s
  · exact State.pauseLive_steady s _ _ _ _

theorem State.edge_steady (s : State) (line : VanLine) (l : LineState) (a : Level) (t : Time) :
    Steady s (s.edge line l a t) := by
  unfold State.edge
  exact Steady.ite ((State.lineAction_steady s _ _ _ _ _).trans (State.raise_quiet _ _).steady)
    (Steady.refl s)

theorem State.modLine_quiet (s : State) (l : VanLine) (f : LineState → LineState) :
    Quiet s (s.modLine l f) := State.modVan_quiet s _

end Sys2Proof.Machine
end

