-- ==== Sys2Proof/Laws/Entries.lean ====
section
/-! SUPPORT. What a journal entry, a record's admission and the work on a print job leave alone beside what
`Quiet` says: the blocks that measure, and everything but the Print Engine. -/

namespace Sys2Proof.Machine

/-- The blocks that measure and print are as they were. -/
structure Aside (s t : State) : Prop where
  fe : t.fe = s.fe
  check : t.check = s.check
  watch : t.watch = s.watch
  sag : t.sag = s.sag
  interval : t.interval = s.interval
  print : t.print = s.print

theorem Aside.refl (s : State) : Aside s s := ⟨rfl, rfl, rfl, rfl, rfl, rfl⟩

theorem Aside.trans {s t u : State} (a : Aside s t) (b : Aside t u) : Aside s u :=
  ⟨b.fe.trans a.fe, b.check.trans a.check, b.watch.trans a.watch, b.sag.trans a.sag,
    b.interval.trans a.interval, b.print.trans a.print⟩

theorem Aside.ite {s a b : State} {c : Prop} [Decidable c] (ha : Aside s a) (hb : Aside s b) :
    Aside s (if c then a else b) := by split <;> assumption

theorem State.modSite_aside (s : State) (k : Fin 8) (f : Site → Site) : Aside s (s.modSite k f) := by
  unfold State.modSite
  split <;> exact ⟨rfl, rfl, rfl, rfl, rfl, rfl⟩

theorem State.modLabel_aside (s : State) (n : Nat) (f : Site → Site) : Aside s (s.modLabel n f) := by
  unfold State.modLabel
  split
  · exact State.modSite_aside s _ f
  · exact Aside.refl s

theorem State.wakeRequest_aside (s : State) (w : WakeSource) : Aside s (s.wakeRequest w) := by
  unfold State.wakeRequest
  exact Aside.ite ⟨rfl, rfl, rfl, rfl, rfl, rfl⟩ (Aside.refl s)

theorem State.raise_aside (s : State) (b : AttentionBit) : Aside s (s.raise b) :=
  ⟨rfl, rfl, rfl, rfl, rfl, rfl⟩

theorem State.addRecords_aside (s : State) (st : Stream) (rs : List Record) : Aside s (s.addRecords st rs) := by
  unfold State.addRecords State.storeHighTest
  split
  · refine Aside.trans ?_ (State.wakeRequest_aside _ _)
    exact ⟨rfl, rfl, rfl, rfl, rfl, rfl⟩
  · exact ⟨rfl, rfl, rfl, rfl, rfl, rfl⟩

theorem State.countLost_aside (s : State) (st : Stream) (n : Nat) : Aside s (s.countLost st n) :=
  ⟨rfl, rfl, rfl, rfl, rfl, rfl⟩

theorem State.setJournal_aside (s : State) (n : Nat) (j : JournalState) : Aside s (s.setJournal n j) := by
  unfold State.setJournal
  exact Aside.ite ⟨rfl, rfl, rfl, rfl, rfl, rfl⟩ (State.modLabel_aside s n _)

theorem State.countEntry_aside (s : State) (n : Nat) : Aside s (s.countEntry n) := by
  unfold State.countEntry
  exact Aside.ite (Aside.refl s) (State.modLabel_aside s n _)

theorem State.countLostEntry_aside (s : State) (n : Nat) : Aside s (s.countLostEntry n) := by
  unfold State.countLostEntry
  exact Aside.ite ⟨rfl, rfl, rfl, rfl, rfl, rfl⟩ (State.modLabel_aside s n _)

/-- A journal entry leaves the blocks that measure and print alone (R104, R105). -/
theorem State.enter_aside (s : State) (r : EntryRequest) : Aside s (s.enter r).1 := by
  unfold State.enter
  split
  · exact Aside.refl s
  · split
    · exact ((State.setJournal_aside s _ _).trans (State.addRecords_aside _ _ _)).trans
        (State.countEntry_aside _ _)
    · exact ((State.setJournal_aside s _ _).trans (State.countLostEntry_aside _ _)).trans
        (State.countLost_aside _ _ _)

theorem State.putAnchored_aside (s : State) (n : Nat) (a : Anchor) (b : EntryBody) :
    Aside s (s.putAnchored n a b) := State.enter_aside s _

theorem State.put_aside (s : State) (n : Nat) (b : EntryBody) : Aside s (s.put n b) :=
  State.enter_aside s _

theorem State.discardCapture_aside (s : State) (c : CapturePiece × Queued) (st : Stream) (n : Nat) :
    Aside s (s.discardCapture c st n) := by
  unfold State.discardCapture
  dsimp only
  refine Aside.trans ?_ (State.putAnchored_aside _ _ _ _)
  refine Aside.trans ?_ (State.modLabel_aside _ _ _)
  exact ⟨rfl, rfl, rfl, rfl, rfl, rfl⟩

theorem State.makeRoom_aside (fuel : Nat) (s : State) (st : Stream) (site length : Nat) :
    Aside s (State.makeRoom fuel s st site length) := by
  induction fuel generalizing s with
  | zero => exact Aside.refl s
  | succ n ih =>
    unfold State.makeRoom
    refine Aside.ite (Aside.refl s) ?_
    split
    · exact Aside.refl s
    · exact (State.discardCapture_aside s _ st site).trans (ih _)

/-- The admission of a record leaves the blocks that measure and print alone (R119). -/
theorem State.admitRecord_aside (s : State) (st : Stream) (r : Record) : Aside s (s.admitRecord st r).1 := by
  unfold State.admitRecord
  dsimp only
  split
  · exact (State.makeRoom_aside _ s _ _ _).trans (State.addRecords_aside _ _ _)
  · exact ((State.makeRoom_aside _ s _ _ _).trans (State.countLost_aside _ _ _)).trans
      (State.modLabel_aside _ _ _)

/-! ## The work on a print job -/

/-- Only the Print Engine differs. -/
def OnlyPrint (s t : State) : Prop := t = { s with print := t.print }

theorem OnlyPrint.refl (s : State) : OnlyPrint s s := rfl

theorem OnlyPrint.trans {s t u : State} (a : OnlyPrint s t) (b : OnlyPrint t u) : OnlyPrint s u := by
  unfold OnlyPrint at *
  rw [b, a]

theorem OnlyPrint.ite {s a b : State} {c : Prop} [Decidable c] (ha : OnlyPrint s a) (hb : OnlyPrint s b) :
    OnlyPrint s (if c then a else b) := by split <;> assumption

theorem State.modPrint_only (s : State) (f : PrintEngine → PrintEngine) : OnlyPrint s (s.modPrint f) := rfl

theorem State.drive_only (s : State) : OnlyPrint s s.drive := by
  unfold State.drive
  split
  · exact OnlyPrint.refl s
  · split
    · exact OnlyPrint.refl s
    · exact OnlyPrint.ite (State.modPrint_only s _) (OnlyPrint.refl s)

theorem State.reach_only (s : State) (j : Job) (i : Item) : OnlyPrint s (s.reach j i) := by
  unfold State.reach
  split
  · exact OnlyPrint.ite rfl (State.modPrint_only s _)
  · exact State.modPrint_only s _

theorem State.reachItem_only (s : State) : OnlyPrint s s.reachItem := by
  unfold State.reachItem
  split
  · exact OnlyPrint.refl s
  · split
    · exact OnlyPrint.refl s
    · exact OnlyPrint.ite (State.reach_only s _ _) (OnlyPrint.refl s)

theorem State.work_only (s : State) : OnlyPrint s s.work :=
  (State.reachItem_only s).trans (State.drive_only _)

theorem State.settle_only (s : State) : OnlyPrint s s.settle := by
  unfold State.settle
  dsimp only
  refine OnlyPrint.trans ?_ (State.work_only _)
  exact OnlyPrint.ite ((State.modPrint_only s _).trans (State.modPrint_only _ _)) (State.modPrint_only s _)

theorem State.linkReturns_only (s : State) : OnlyPrint s s.linkReturns := by
  unfold State.linkReturns
  exact OnlyPrint.ite ((State.modPrint_only s _).trans (State.work_only _)) (OnlyPrint.refl s)

theorem State.judgeLine_only (s : State) : OnlyPrint s s.judgeLine :=
  (State.modPrint_only s _).trans (State.settle_only _)

end Sys2Proof.Machine
end

