-- ==== Sys2Proof/Laws/Events.lean ====
section
/-! SUPPORT. What the choices of the Sag Monitor can answer: the capture offered next and the entry that
leaves the worst-event list (R78, R82). -/

namespace Sys2Proof.Machine

/-- The choice of `SagMonitor.firstComplete` over a list of trackers, from a choice made before: there is
none exactly when nothing is complete, and it is a complete tracker claimed no later than any other. -/
theorem earliestComplete_foldl (T : Fin 4 → Option Tracker) (l : List (Fin 4)) : ∀ b : Option (Fin 4 × Tracker),
    let r := l.foldl (fun best k =>
      match T k, best with
      | some t, none => if t.complete then some (k, t) else none
      | some t, some b => if t.complete ∧ t.order < b.2.order then some (k, t) else some b
      | none, b => b) b
    (r = none ↔ b = none ∧ ∀ k ∈ l, ∀ t, T k = some t → t.remaining ≠ 0)
    ∧ ∀ f t, r = some (f, t) → (b = some (f, t) ∨ (f ∈ l ∧ T f = some t ∧ t.remaining = 0))
      ∧ (∀ g o, b = some (g, o) → t.order ≤ o.order)
      ∧ ∀ k ∈ l, ∀ o, T k = some o → o.remaining = 0 → t.order ≤ o.order := by
  induction l with
  | nil =>
    intro b
    refine ⟨by simp, fun f t h => ⟨Or.inl h, fun g o h' => ?_, by simp⟩⟩
    rw [List.foldl_nil] at h
    rw [h] at h'
    cases h'
    exact le_refl _
  | cons k l ih =>
    intro b
    simp only [List.foldl_cons]
    obtain ⟨i1, i2⟩ := ih (match T k, b with
      | some t, none => if t.complete then some (k, t) else none
      | some t, some b => if t.complete ∧ t.order < b.2.order then some (k, t) else some b
      | none, b => b)
    cases hk : T k with
    | none =>
      simp only [hk] at i1 i2 ⊢
      refine ⟨by rw [i1]; simp [hk], fun f t h => ?_⟩
      obtain ⟨a, b', c⟩ := i2 f t h
      exact ⟨a.imp_right fun ⟨x, y⟩ => ⟨List.mem_cons_of_mem _ x, y⟩, b', by
        simp only [List.mem_cons]; rintro j (rfl | hj) o ho hr
        · rw [hk] at ho; cases ho
        · exact c j hj o ho hr⟩
    | some u =>
      cases b with
      | none =>
        by_cases hc : u.complete = true
        · simp only [hk, hc, if_true] at i1 i2 ⊢
          have hz : u.remaining = 0 := by simpa [Tracker.complete] using hc
          refine ⟨by rw [i1]; simp [hk, hz], fun f t h => ?_⟩
          obtain ⟨a, b', c⟩ := i2 f t h
          refine ⟨Or.inr ?_, by simp, ?_⟩
          · rcases a with a | ⟨x, y⟩
            · cases a; exact ⟨List.mem_cons_self, hk, hz⟩
            · exact ⟨List.mem_cons_of_mem _ x, y⟩
          · simp only [List.mem_cons]; rintro j (rfl | hj) o ho hr
            · rw [hk] at ho; cases ho; exact b' _ _ rfl
            · exact c j hj o ho hr
        · have hz : u.remaining ≠ 0 := by simpa [Tracker.complete] using hc
          simp only [hk, hc] at i1 i2 ⊢
          refine ⟨by simp at i1 ⊢; rw [i1]; simp [hk, hz], fun f t h => ?_⟩
          obtain ⟨a, b', c⟩ := i2 f t h
          refine ⟨Or.inr ?_, by simp, ?_⟩
          · rcases a with a | ⟨x, y⟩
            · simp at a
            · exact ⟨List.mem_cons_of_mem _ x, y⟩
          · simp only [List.mem_cons]; rintro j (rfl | hj) o ho hr
            · rw [hk] at ho; cases ho; exact absurd hr hz
            · exact c j hj o ho hr
      | some w =>
        by_cases hc : u.complete = true ∧ u.order < w.2.order
        · simp only [hk, hc, and_self, if_true] at i1 i2 ⊢
          have hz : u.remaining = 0 := by simpa [Tracker.complete] using hc.1
          refine ⟨by rw [i1]; simp, fun f t h => ?_⟩
          obtain ⟨a, b', c⟩ := i2 f t h
          refine ⟨Or.inr ?_, ?_, ?_⟩
          · rcases a with a | ⟨x, y⟩
            · cases a; exact ⟨List.mem_cons_self, hk, hz⟩
            · exact ⟨List.mem_cons_of_mem _ x, y⟩
          · rintro g o h'; cases h'; exact le_trans (b' _ _ rfl) (le_of_lt hc.2)
          · simp only [List.mem_cons]; rintro j (rfl | hj) o ho hr
            · rw [hk] at ho; cases ho; exact b' _ _ rfl
            · exact c j hj o ho hr
        · simp only [hk, hc, if_false] at i1 i2 ⊢
          refine ⟨by rw [i1]; simp, fun f t h => ?_⟩
          obtain ⟨a, b', c⟩ := i2 f t h
          refine ⟨a.imp_right fun ⟨x, y⟩ => ⟨List.mem_cons_of_mem _ x, y⟩, b', ?_⟩
          simp only [List.mem_cons]; rintro j (rfl | hj) o ho hr
          · rw [hk] at ho; cases ho
            have : u.complete = true := by simpa [Tracker.complete] using hr
            have : w.2.order ≤ u.order := by by_contra hx; exact hc ⟨this, by omega⟩
            exact le_trans (b' w.1 w.2 rfl) this
          · exact c j hj o ho hr

/-- A capture is offered next exactly when some tracker is complete, and it is one claimed first (R78). -/
theorem firstComplete_iff (m : SagMonitor) :
    ((∃ f : Fin 4, ∃ t, m.trackers[f] = some t ∧ t.remaining = 0) ↔ ∃ f t, m.firstComplete = some (f, t))
    ∧ ∀ f t, m.firstComplete = some (f, t) → m.trackers[f] = some t ∧ t.remaining = 0
      ∧ ∀ (j : Fin 4) (o : Tracker), m.trackers[j] = some o → o.remaining = 0 → t.order ≤ o.order := by
  obtain ⟨g1, g2⟩ := earliestComplete_foldl (fun k => m.trackers[k]) trackerNumbers none
  have hm : ∀ k : Fin 4, k ∈ trackerNumbers := by decide
  have found : ∀ f t, m.firstComplete = some (f, t) → m.trackers[f] = some t ∧ t.remaining = 0 := by
    intro f t h
    rcases (g2 f t h).1 with a | ⟨_, a, b⟩
    · cases a
    · exact ⟨a, b⟩
  refine ⟨⟨?_, fun ⟨f, t, h⟩ => ⟨f, t, found f t h⟩⟩, fun f t h =>
    ⟨(found f t h).1, (found f t h).2, fun j o ho hr => (g2 f t h).2.2 j (hm j) o ho hr⟩⟩
  rintro ⟨f, t, h, h0⟩
  cases hf : m.firstComplete with
  | none => exact absurd h0 ((g1.mp hf).2 f (hm f) t h)
  | some a => exact ⟨a.1, a.2, rfl⟩

/-- The entry that leaves a full list: the highest residual, and among equals the highest number (R82). -/
theorem highest_spec (l : List WorstEntry) : (highest l = none ↔ l = []) ∧ ∀ h, highest l = some h → h ∈ l ∧ (∀ v ∈ l, v.residual ≤ h.residual) ∧
   (∀ v ∈ l, v.residual = h.residual → v.number ≤ h.number) := by
  induction l with
  | nil => simp [highest]
  | cons e es ih =>
    obtain ⟨i1, i2⟩ := ih
    cases hh : highest es with
    | none =>
      have := i1.mp hh; subst this
      simp [highest]
    | some g =>
      obtain ⟨a, b, c⟩ := i2 g hh
      by_cases hl : leavesBefore e g = true
      · simp only [highest, hh, hl, if_true]
        refine ⟨by simp, fun h he => ?_⟩
        cases he
        have hl' : g.residual < e.residual ∨ e.residual = g.residual ∧ g.number < e.number := by
          simpa [leavesBefore] using hl
        refine ⟨List.mem_cons_self, ?_, ?_⟩
        · simp only [List.mem_cons]; rintro v (rfl | hv)
          · exact le_refl _
          · have := b v hv; omega
        · simp only [List.mem_cons]; rintro v (rfl | hv) hr
          · exact le_refl _
          · have h1 := b v hv; have h2 := c v hv; omega
      · simp only [highest, hh]
        rw [if_neg hl]
        refine ⟨by simp, fun h he => ?_⟩
        cases he
        have hl' : ¬ (g.residual < e.residual ∨ e.residual = g.residual ∧ g.number < e.number) := by
          simpa [leavesBefore] using hl
        refine ⟨List.mem_cons_of_mem _ a, ?_, ?_⟩
        · simp only [List.mem_cons]; rintro v (rfl | hv)
          · omega
          · exact b v hv
        · simp only [List.mem_cons]; rintro v (rfl | hv) hr
          · omega
          · exact c v hv hr

end Sys2Proof.Machine
end

