-- ==== Sys2Proof/Laws/Harmonics.lean ====
section
/-! SUPPORT. The harmonic arithmetic as sums (R32; log 41). -/

namespace Sys2Proof.Laws

open Sys2Proof.Machine

/-- A correlation is the sum of the products of the points and the function of their phase. -/
theorem correlate_eq_sum (f : Nat → Int) (order p : Nat) (xs : List Int) (hp : p < 256) :
    correlate f order p xs = ((List.range xs.length).map fun n => xs.getD n 0 * f ((p + order * n) % 256)).sum := by
  induction xs generalizing p with
  | nil => rfl
  | cons x xs ih =>
    rw [correlate, ih _ (Nat.mod_lt _ (by omega)), List.length_cons, List.range_succ_eq_map, List.map_cons,
      List.sum_cons, List.map_map]
    congr 1
    · simp [Nat.mod_eq_of_lt hp]
    · congr 1
      apply List.map_congr_left
      intro n _
      simp only [Function.comp, List.getD_cons_succ]
      congr 2
      rw [Nat.mod_add_mod, Nat.mul_succ]
      congr 1
      omega

theorem cosAt_mod (n : Nat) : cosAt (n % 256) = cosAt n := by
  unfold cosAt; rw [Nat.mod_mod]

theorem sinAt_mod (n : Nat) : sinAt (n % 256) = sinAt n := by
  unfold sinAt
  rw [← cosAt_mod, Nat.mod_add_mod, cosAt_mod]

/-- A wave without samples has no component. -/
theorem component_nil (order : Nat) : component order [] = ⟨0, 0⟩ := rfl

end Sys2Proof.Laws
end

