-- ==== Sys2Proof/Laws/Intervals.lean ====
section
/-! SUPPORT. What the Interval Aggregator's tests of a block can answer (R89, R92). -/

namespace Sys2Proof.Machine

/-- The half-cycles that a block contains (R89). -/
theorem blockHalves_mem (b : BlockResult) (h : Nat) : h ∈ blockHalves b ↔ InBlock b h := by
  simp only [blockHalves, List.mem_map, List.mem_range, InBlock]
  constructor
  · rintro ⟨j, hj, rfl⟩; omega
  · intro ⟨h1, h2⟩; exact ⟨h - 2 * b.cycles * (b.number - 1) - 1, by omega, by omega⟩

/-- A block is marked by a report of its half-cycles with a detector in Low or Long Hold (R89). -/
theorem blockMarked_iff (reports : List DetectorReport) (b : BlockResult) :
    blockMarked reports b = true ↔ ∃ r i, r ∈ reports ∧ InBlock b r.half ∧ i.isVoltage = true
      ∧ (r.detectors.get i = some .low ∨ r.detectors.get i = some .longHold) := by
  simp only [blockMarked, List.any_eq_true, Bool.and_eq_true, List.contains_iff_mem, blockHalves_mem, DetectorReport.marks,
    Bool.or_eq_true, beq_iff_eq]
  constructor
  · rintro ⟨r, hr, hb, i, hi, hd⟩; exact ⟨r, i, hr, hb, by revert hi; cases i <;> decide, hd⟩
  · rintro ⟨r, i, hr, hb, hi, hd⟩; exact ⟨r, hr, hb, i, by revert hi; cases i <;> decide, hd⟩

/-- Every half-cycle of a block has a report that shows an input's detector Normal, Low or in Long Hold. -/
theorem judgedThroughout_iff (reports : List DetectorReport) (b : BlockResult) (i : Input) :
    judgedThroughout reports b i = true ↔ ∀ h, InBlock b h → ∃ r, r ∈ reports ∧ r.half = h
      ∧ ∃ e, r.detectors.get i = some e ∧ (e = .normal ∨ e = .low ∨ e = .longHold) := by
  simp only [judgedThroughout, List.all_eq_true, blockHalves_mem, List.any_eq_true, Bool.and_eq_true, beq_iff_eq]
  refine forall₂_congr fun h _ => exists_congr fun r => and_congr_right fun _ => and_congr_right fun _ => ⟨?_, ?_⟩
  · intro h3
    cases he : r.detectors.get i with
    | none => simp [he] at h3
    | some e => simp only [he] at h3; refine ⟨e, rfl, ?_⟩; cases e <;> simp_all [Detector.judges]
  · rintro ⟨e, h3, h4⟩
    rw [h3]
    rcases h4 with rfl | rfl | rfl <;> rfl

end Sys2Proof.Machine
end

