-- ==== Sys2Proof/Laws/Sites.lean ====
section
/-! SUPPORT. The site table as the orders find it, what no journal entry changes in a site record or clears in
Attention, and what every check leaves that ends before a verdict giving Ready. -/

namespace Sys2Proof.Machine

/-! ## The site table -/

theorem State.modSite_at {s : State} {k : Fin 8} {x : Site} (f : Site → Site) (h : s.site k = some x) :
    s.modSite k f = s.setSlot k (some (f x)) := by
  unfold State.modSite
  rw [h]

theorem mem_slotNumbers (k : Fin 8) : k ∈ slotNumbers := by
  fin_cases k <;> simp [slotNumbers]

theorem State.findSlot_none {s : State} {n : Nat} :
    s.findSlot n = none ↔ ∀ k x, s.site k = some x → x.label ≠ n := by
  unfold State.findSlot
  rw [List.find?_eq_none]
  constructor
  · intro h k x hx hl
    have := h k (mem_slotNumbers k)
    simp [hx, hl] at this
  · intro h k _ hc
    split at hc
    · next x hx => exact h k x hx (by simpa using hc)
    · simp at hc

theorem State.findSlot_isSome {s : State} {n : Nat} {k : Fin 8} {x : Site} (hx : s.site k = some x)
    (hl : x.label = n) : (s.findSlot n).isSome = true := by
  cases h : s.findSlot n with
  | some _ => rfl
  | none => exact absurd hl (State.findSlot_none.mp h k x hx)

/-- The slot found holds a site with the label. -/
theorem State.findSlot_holds {s : State} {n : Nat} {k : Fin 8} (h : s.findSlot n = some k) :
    ∃ x, s.site k = some x ∧ x.label = n := by
  have := List.find?_some h
  split at this
  · next x hx => exact ⟨x, hx, by simpa using this⟩
  · cases this

/-- No slot holds a live site. -/
theorem State.liveSlot_none {s : State} :
    s.liveSlot = none ↔ ∀ k x, s.site k = some x → x.state.isLive = false := by
  unfold State.liveSlot
  rw [List.find?_eq_none]
  constructor
  · intro h k x hx
    have := h k (mem_slotNumbers k)
    rw [hx] at this
    simpa using this
  · intro h k _ hc
    split at hc
    · next x hx => simp [h k x hx] at hc
    · simp at hc

theorem Live.elapse {s : State} {k : Fin 8} {x : Site} (h : Live s k x) (dt : Nat) :
    (s.elapse dt).liveSlot = some k ∧ (s.elapse dt).liveSite = some x := by
  have e : (s.elapse dt).liveSlot = some k := h.1
  exact ⟨e, by unfold State.liveSite; rw [e]; exact h.2⟩

theorem PerInput.get_of {α : Type} (f : Input → α) (i : Input) : (PerInput.of f).get i = f i := by
  cases i <;> rfl

theorem PerStream.get_set {α : Type} (p : PerStream α) (a b : Sys2Proof.Stream) (v : α) :
    (p.set a v).get b = if a = b then v else p.get b := by
  cases a <;> cases b <;> rfl

/-! ## What a journal entry leaves of a site record -/

/-- The core of a site record and its map. -/
def Site.coreMap (x : Site) : SiteCore × ChannelMap := (x.core, x.map)

/-- Every slot holds the same core and map. -/
def SameMaps (s t : State) : Prop := ∀ k : Fin 8, (t.site k).map Site.coreMap = (s.site k).map Site.coreMap

theorem SameMaps.refl (s : State) : SameMaps s s := fun _ => rfl

theorem SameMaps.trans {s t u : State} (a : SameMaps s t) (b : SameMaps t u) : SameMaps s u :=
  fun k => (b k).trans (a k)

theorem State.modSite_maps (s : State) (k : Fin 8) (f : Site → Site) (h : ∀ x, (f x).coreMap = x.coreMap) :
    SameMaps s (s.modSite k f) := by
  intro j
  rw [State.site_modSite]
  split
  · cases s.site j <;> simp [h]
  · rfl

theorem State.modLabel_maps (s : State) (n : Nat) (f : Site → Site) (h : ∀ x, (f x).coreMap = x.coreMap) :
    SameMaps s (s.modLabel n f) := by
  unfold State.modLabel
  split
  · exact State.modSite_maps s _ f h
  · exact SameMaps.refl s

theorem State.addRecords_maps (s : State) (st : Stream) (rs : List Record) :
    SameMaps s (s.addRecords st rs) := by
  intro k
  unfold State.addRecords State.storeHighTest State.wakeRequest
  split
  · split <;> rfl
  · rfl

theorem State.enter_maps (s : State) (r : EntryRequest) : SameMaps s (s.enter r).1 := by
  unfold State.enter
  split
  · exact SameMaps.refl s
  · have a : ∀ j, SameMaps s (s.setJournal r.site j) := by
      intro j
      unfold State.setJournal
      split
      · intro k; rfl
      · exact State.modLabel_maps s _ _ (fun _ => rfl)
    have b : ∀ t : State, SameMaps t (t.countEntry r.site) := by
      intro t
      unfold State.countEntry
      split
      · exact SameMaps.refl t
      · exact State.modLabel_maps t _ _ (fun _ => rfl)
    have c : ∀ t : State, SameMaps t (t.countLostEntry r.site) := by
      intro t
      unfold State.countLostEntry
      split
      · intro k; rfl
      · exact State.modLabel_maps t _ _ (fun _ => rfl)
    split
    · exact SameMaps.trans (SameMaps.trans (a _) (State.addRecords_maps _ _ _)) (b _)
    · exact SameMaps.trans (SameMaps.trans (a _) (c _)) (fun _ => rfl)

theorem State.put_maps (s : State) (n : Nat) (b : EntryBody) : SameMaps s (s.put n b) := State.enter_maps s _

theorem State.applyPending_maps (s : State) (k : Fin 8) : SameMaps s (s.applyPending k) := by
  unfold State.applyPending State.applyLimits
  split
  · split
    · exact SameMaps.refl s
    · refine SameMaps.trans ?_ (State.put_maps _ _ _)
      exact State.modSite_maps s k _ (fun _ => rfl)
  · exact SameMaps.refl s

theorem State.applyPending_aside (s : State) (k : Fin 8) : Aside s (s.applyPending k) := by
  unfold State.applyPending State.applyLimits
  split
  · split
    · exact Aside.refl s
    · exact (State.modSite_aside s k _).trans (State.put_aside _ _ _)
  · exact Aside.refl s

/-! ## Attention -/

theorem State.raise_attends (s : State) (b : AttentionBit) : (s.raise b).attends b = true := by
  cases b <;> simp [State.raise, State.attends, AttentionBit.word, AttentionBit.place]

/-- Raising a bit clears none. -/
theorem State.raise_keeps {s : State} {b : AttentionBit} (c : AttentionBit) (h : s.attends b = true) :
    (s.raise c).attends b = true := by
  unfold State.attends at h ⊢
  cases c <;> simp [State.raise, AttentionBit.word, BitVec.getLsbD_or, h]

theorem State.wakeRequest_lp (s : State) (w : WakeSource) : (s.wakeRequest w).lp = s.lp := by
  unfold State.wakeRequest
  split <;> rfl

theorem State.modSite_lp (s : State) (k : Fin 8) (f : Site → Site) : (s.modSite k f).lp = s.lp := by
  unfold State.modSite
  split <;> rfl

theorem State.modLabel_lp (s : State) (n : Nat) (f : Site → Site) : (s.modLabel n f).lp = s.lp := by
  unfold State.modLabel
  split
  · exact State.modSite_lp s _ f
  · rfl

theorem State.attends_of_lp {s t : State} (h : t.lp = s.lp) (b : AttentionBit) : t.attends b = s.attends b := by
  unfold State.attends
  rw [h]

theorem State.addRecords_keeps {s : State} {b : AttentionBit} (st : Stream) (rs : List Record)
    (h : s.attends b = true) : (s.addRecords st rs).attends b = true := by
  unfold State.addRecords State.storeHighTest
  split
  · rw [State.attends_of_lp (State.wakeRequest_lp _ _)]
    exact State.raise_keeps _ h
  · exact h

/-- No entry clears an attention bit. -/
theorem State.enter_keeps {s : State} {b : AttentionBit} (r : EntryRequest) (h : s.attends b = true) :
    (s.enter r).1.attends b = true := by
  unfold State.enter
  split
  · exact h
  · have a : ∀ j, (s.setJournal r.site j).lp = s.lp := by
      intro j
      unfold State.setJournal
      split
      · rfl
      · exact State.modLabel_lp s _ _
    split
    · have c : ∀ t : State, (t.countEntry r.site).lp = t.lp := by
        intro t
        unfold State.countEntry
        split
        · rfl
        · exact State.modLabel_lp t _ _
      rw [State.attends_of_lp (c _)]
      refine State.addRecords_keeps _ _ ?_
      rw [State.attends_of_lp (a _)]
      exact h
    · have c : ∀ t : State, (t.countLostEntry r.site).lp = t.lp := by
        intro t
        unfold State.countLostEntry
        split
        · rfl
        · exact State.modLabel_lp t _ _
      refine (State.attends_of_lp (s := s) ?_ b).trans h
      exact (c _).trans (a _)

theorem State.put_keeps {s : State} {b : AttentionBit} (n : Nat) (e : EntryBody) (h : s.attends b = true) :
    (s.put n e).attends b = true := State.enter_keeps _ h

theorem State.applyPending_keeps {s : State} {b : AttentionBit} (k : Fin 8) (h : s.attends b = true) :
    (s.applyPending k).attends b = true := by
  unfold State.applyPending State.applyLimits
  split
  · split
    · exact h
    · refine State.put_keeps _ _ ?_
      rw [State.attends_of_lp (State.modSite_lp _ _ _)]
      exact h
  · exact h

/-! ## The end of a check before a verdict that gives Ready (R40, R43, R44, R47, R50) -/

theorem unreached_map (m : ChannelMap) (c : CheckRecord) (a : PerInput (Option Association)) :
    (Conclusion.unreached m c a).map = m := rfl

theorem mapDiffers_self (m : ChannelMap) : mapDiffers m m = false := by simp [mapDiffers]

theorem rolesDiffer_self (m : ChannelMap) : rolesDiffer m m = false := by simp [rolesDiffer]

/-- The state and the result that such a check gives the core of its site record. -/
def SiteCore.broken (x : SiteCore) (v : CheckVerdict) : SiteCore :=
  { x with
    state := if x.returnState = some .paused then .paused else .drafted
    checkStatus := v.status, unusable := v.reason, returnState := none }

/-- The site record of such a check: its core, and no entry verified. -/
theorem Site.endCheck_broken (x : Site) (c d : CheckRecord) (v : CheckVerdict) (a : PerInput (Option Association))
    (hv : v = .cancelled ∨ ∃ r, v = .unusable r) (y : Site)
    (hy : y = x.endCheck c (x.returnState.getD .drafted) v (Conclusion.unreached x.map d a)) :
    y.core = x.core.broken v
      ∧ ∀ i, (y.map.get i).verified = false ∧ (y.map.get i).role = (x.map.get i).role := by
  subst hy
  have hver : ∀ i, verifiedAfter x v (Conclusion.unreached x.map d a) i = false := by
    intro i
    rcases hv with rfl | ⟨r, rfl⟩ <;> simp [verifiedAfter]
  refine ⟨?_, fun i => by simp [Site.endCheck, mapAfter, PerInput.get_of, hver, unreached_map]⟩
  rcases hv with rfl | ⟨r, rfl⟩ <;> rcases hh : x.returnState with _ | _ | _ <;>
    simp [Site.endCheck, Site.core, SiteCore.broken, hh, stateAfter, CheckVerdict.ready]

/-- Where a state differs from another only by one slot, and a third has its maps and is steady, the parts of
`CheckBroken` that speak of sites, time and link follow. -/
theorem sites_of_broken {s s1 t : State} {k : Fin 8} {x y : Site} {v : CheckVerdict}
    (hsite : ∀ j, s1.site j = if k = j then some y else s.site j) (hs : Steady s s1)
    (hy : y.core = x.core.broken v
      ∧ ∀ i, (y.map.get i).verified = false ∧ (y.map.get i).role = (x.map.get i).role)
    (hm : SameMaps s1 t) (ht : Steady s1 t) :
    (t.site k).map Site.core = some (x.core.broken v)
      ∧ (∀ z i, t.site k = some z → (z.map.get i).verified = false ∧ (z.map.get i).role = (x.map.get i).role)
      ∧ SameOtherSites s t k ∧ SameTime s t ∧ SameLink s t := by
  have h0 := hm k
  rw [hsite] at h0
  simp only [if_true, Option.map_some, Option.map_eq_some_iff] at h0
  obtain ⟨z, hz, hz2⟩ := h0
  simp only [Site.coreMap, Prod.mk.injEq] at hz2
  refine ⟨by rw [hz, Option.map_some, hz2.1, hy.1], ?_, ?_, (hs.trans ht).time, (hs.trans ht).link⟩
  · intro w i hw
    rw [hz] at hw
    cases hw
    rw [hz2.2]
    exact hy.2 i
  · intro j hj
    have h1 := hm j
    rw [hsite, if_neg (Ne.symm hj)] at h1
    have h2 := congrArg (Option.map Prod.fst) h1
    simpa [Option.map_map, Function.comp_def, Site.coreMap] using h2

/-- Every check that ends cancelled or Unusable. -/
theorem State.endCheck_broken (s : State) (c d : CheckRecord) (x : Site) (v : CheckVerdict) (done : Bool)
    (a : PerInput (Option Association)) (hx : s.site c.slot = some x)
    (hv : v = .cancelled ∨ ∃ r, v = .unusable r) :
    CheckBroken s (s.endCheck c v done (Conclusion.unreached x.map d a)) c.slot x v.status v.reason := by
  unfold State.endCheck
  rw [hx]
  dsimp only
  rw [State.modSite_at (s := { s with check := none }) (k := c.slot) (x := x) _ hx]
  generalize hy : Site.endCheck x c (x.returnState.getD .drafted) v (Conclusion.unreached x.map d a) = y
  have hyb := Site.endCheck_broken x c d v a hv y hy.symm
  generalize checkReport c x (x.returnState.getD .drafted) v done (Conclusion.unreached x.map d a) = rep
  generalize hs1 : State.setSlot { s with check := none } c.slot (some y) = s1
  have hsite : ∀ j, s1.site j = if c.slot = j then some y else s.site j := by
    intro j
    rw [← hs1, State.site_setSlot]
    rfl
  have st1 : Steady s s1 := by
    rw [← hs1]
    exact Steady.of rfl rfl rfl rfl
  have e1 : s1.check = none ∧ s1.sag = s.sag ∧ s1.interval = s.interval ∧ s1.print = s.print ∧ s1.fe = s.fe := by
    rw [← hs1]
    exact ⟨rfl, rfl, rfl, rfl, rfl⟩
  cases hret : x.returnState.getD .drafted with
  | drafted =>
    have hne : x.returnState ≠ some .paused := by
      intro h
      rw [h] at hret
      cases hret
    generalize hu : s1.stopWatch.stopFrontEnd.put x.label (.checkReport rep) = u
    have e : s1.afterCheck c.slot x .drafted v (Conclusion.unreached x.map d a) rep
        = (u.raise .check).applyPending c.slot := by
      rw [← hu]
      unfold State.afterCheck
      rcases hv with rfl | ⟨r, rfl⟩ <;> rfl
    have hq := e ▸ (State.afterCheck_quiet s1 c.slot x .drafted v (Conclusion.unreached x.map d a) rep).steady
    have hm : SameMaps s1 ((u.raise .check).applyPending c.slot) := by
      refine SameMaps.trans ?_ (State.applyPending_maps _ _)
      refine SameMaps.trans (t := u) ?_ (fun _ => rfl)
      rw [← hu]
      exact SameMaps.trans (t := s1.stopWatch.stopFrontEnd) (fun _ => rfl) (State.put_maps _ _ _)
    have ha : Aside s1.stopWatch.stopFrontEnd ((u.raise .check).applyPending c.slot) := by
      refine Aside.trans ?_ (State.applyPending_aside _ _)
      refine Aside.trans ?_ (State.raise_aside _ _)
      rw [← hu]
      exact State.put_aside _ _ _
    rw [e]
    obtain ⟨k1, k2, k3, k4, k5⟩ := sites_of_broken hsite st1 hyb hm hq
    exact ⟨ha.check.trans e1.1, State.applyPending_keeps _ (State.raise_attends _ _), k1, k2,
      fun _ => ⟨ha.fe, ha.watch⟩, fun h => absurd h hne, k3, k4, k5, ha.sag.trans e1.2.1,
      ha.interval.trans e1.2.2.1, ha.print.trans e1.2.2.2.1⟩
  | paused =>
    have hp : x.returnState = some .paused := by cases h : x.returnState <;> simp_all
    generalize hw : s1.changeWatch (((s1.site c.slot).map (·.map)).getD x.map) = w
    have e : s1.afterCheck c.slot x .paused v (Conclusion.unreached x.map d a) rep
        = (w.put x.label (.checkReport rep)).raise .check := by
      rw [← hw]
      unfold State.afterCheck
      have h : s1.noteMapChange x.map x.map = s1 := by simp [State.noteMapChange, mapDiffers_self]
      rcases hv with rfl | ⟨r, rfl⟩ <;> simp [unreached_map, rolesDiffer_self, h]
    have hq := e ▸ (State.afterCheck_quiet s1 c.slot x .paused v (Conclusion.unreached x.map d a) rep).steady
    have hw1 : SameMaps s1 w := by
      rw [← hw]
      exact fun _ => rfl
    have hm : SameMaps s1 ((w.put x.label (.checkReport rep)).raise .check) :=
      SameMaps.trans (SameMaps.trans hw1 (State.put_maps _ _ _)) (fun _ => rfl)
    have ha : Aside w ((w.put x.label (.checkReport rep)).raise .check) :=
      (State.put_aside _ _ _).trans (State.raise_aside _ _)
    have e2 : w.check = none ∧ w.sag = s.sag ∧ w.interval = s.interval ∧ w.print = s.print ∧ w.fe = s.fe := by
      rw [← hw]
      exact e1
    rw [e]
    obtain ⟨k1, k2, k3, k4, k5⟩ := sites_of_broken hsite st1 hyb hm hq
    exact ⟨ha.check.trans e2.1, State.raise_attends _ _, k1, k2, fun h => absurd hp h,
      fun _ => ha.fe.trans e2.2.2.2.2, k3, k4, k5, ha.sag.trans e2.2.1, ha.interval.trans e2.2.2.1,
      ha.print.trans e2.2.2.2.1⟩

theorem State.breakCheck_broken (s : State) (c : CheckRecord) (x : Site) (v : CheckVerdict)
    (hx : s.site c.slot = some x) (hv : v = .cancelled ∨ ∃ r, v = .unusable r) :
    CheckBroken s (s.breakCheck c v) c.slot x v.status v.reason := by
  unfold State.breakCheck
  rw [hx]
  exact State.endCheck_broken s c c x v _ _ hx hv

end Sys2Proof.Machine
end

