-- ==== Sys2Proof/Laws/Jobs.lean ====
section
/-! SUPPORT. What the ends of print jobs do to the pins, to the records in delivery and to Attention Print
(R154, R156). -/

namespace Sys2Proof.Machine

/-- No record stands in a delivery. -/
abbrev NoneInDelivery (s : State) : Prop := ∀ st q, q ∈ s.store.queues.get st → q.inDelivery = false

/-- The page pins and each slot's label and site pins are as they were, and no record has come into a
delivery. -/
structure SamePins (s t : State) : Prop where
  pages : t.store.pins = s.store.pins
  sites : ∀ k, (t.site k).map (fun x => (x.label, x.pins)) = (s.site k).map fun x => (x.label, x.pins)
  queued : NoneInDelivery s → NoneInDelivery t

theorem SamePins.trans {s t u : State} (a : SamePins s t) (b : SamePins t u) : SamePins s u :=
  ⟨b.pages.trans a.pages, fun k => (b.sites k).trans (a.sites k), fun h => b.queued (a.queued h)⟩

/-- A state with the same store and sites. -/
theorem SamePins.of {s t : State} (h1 : t.store = s.store) (h2 : t.sites = s.sites) : SamePins s t :=
  ⟨by rw [h1], fun k => by simp only [State.site, h2], fun h => by unfold NoneInDelivery; rw [h1]; exact h⟩

theorem SamePins.refl (s : State) : SamePins s s := SamePins.of rfl rfl

theorem SamePins.ite {s a b : State} {c : Prop} [Decidable c] (ha : SamePins s a) (hb : SamePins s b) :
    SamePins s (if c then a else b) := by split <;> assumption

/-! ## An entry -/

theorem State.modLabel_store (s : State) (n : Nat) (f : Site → Site) : (s.modLabel n f).store = s.store := by
  unfold State.modLabel State.modSite
  split
  · split <;> rfl
  · rfl

theorem State.modLabel_samePins (s : State) (n : Nat) {f : Site → Site}
    (h : ∀ x, (f x).label = x.label ∧ (f x).pins = x.pins) : SamePins s (s.modLabel n f) := by
  have e := State.modLabel_store s n f
  refine ⟨by rw [e], fun k => ?_, fun g => by unfold NoneInDelivery; rw [e]; exact g⟩
  unfold State.modLabel
  split
  · rw [State.site_modSite]
    split
    · cases s.site k <;> simp [h]
    · rfl
  · rfl

theorem State.wakeRequest_samePins (s : State) (w : WakeSource) : SamePins s (s.wakeRequest w) := by
  unfold State.wakeRequest
  exact SamePins.ite (SamePins.of rfl rfl) (SamePins.refl s)

theorem State.raise_samePins (s : State) (b : AttentionBit) : SamePins s (s.raise b) := SamePins.of rfl rfl

theorem State.addRecords_samePins (s : State) (st : Stream) (rs : List Record) : SamePins s (s.addRecords st rs) := by
  unfold State.addRecords State.storeHighTest
  refine SamePins.trans (t := { s with store := { s.store with
      queues := s.store.queues.set st (s.store.queues.get st ++ rs.map (queued s)) } }) ?_ ?_
  · refine ⟨rfl, fun _ => rfl, fun h su q hq => ?_⟩
    rw [PerStream.get_set] at hq
    split at hq
    · rcases List.mem_append.mp hq with h1 | h1
      · exact h _ q h1
      · obtain ⟨r, _, rfl⟩ := List.mem_map.mp h1
        rfl
    · exact h su q hq
  · exact SamePins.ite ((State.raise_samePins _ _).trans (State.wakeRequest_samePins _ _)) (SamePins.refl _)

theorem State.setJournal_samePins (s : State) (n : Nat) (j : JournalState) : SamePins s (s.setJournal n j) := by
  unfold State.setJournal
  exact SamePins.ite (SamePins.of rfl rfl) (State.modLabel_samePins s n fun _ => ⟨rfl, rfl⟩)

theorem State.countEntry_samePins (s : State) (n : Nat) : SamePins s (s.countEntry n) := by
  unfold State.countEntry
  exact SamePins.ite (SamePins.refl s) (State.modLabel_samePins s n fun _ => ⟨rfl, rfl⟩)

theorem State.countLostEntry_samePins (s : State) (n : Nat) : SamePins s (s.countLostEntry n) := by
  unfold State.countLostEntry
  exact SamePins.ite (SamePins.of rfl rfl) (State.modLabel_samePins s n fun _ => ⟨rfl, rfl⟩)

theorem State.countLost_samePins (s : State) (st : Stream) (n : Nat) : SamePins s (s.countLost st n) :=
  ⟨rfl, fun _ => rfl, id⟩

/-- A journal entry moves no pin and takes no record into a delivery (R104, R105). -/
theorem State.put_samePins (s : State) (n : Nat) (b : EntryBody) : SamePins s (s.put n b) := by
  unfold State.put State.putAnchored State.enter
  split
  · exact SamePins.refl s
  · split
    · exact ((State.setJournal_samePins s _ _).trans (State.addRecords_samePins _ _ _)).trans
        (State.countEntry_samePins _ _)
    · exact ((State.setJournal_samePins s _ _).trans (State.countLostEntry_samePins _ _)).trans
        (State.countLost_samePins _ _ _)

/-! ## A job -/

/-- The search for a label sees the labels alone. -/
theorem State.findSlot_congr {s t : State} (h : ∀ k, (t.site k).map Site.label = (s.site k).map Site.label)
    (n : Nat) : t.findSlot n = s.findSlot n := by
  unfold State.findSlot
  congr 1
  funext k
  have := h k
  cases hs : s.site k <;> cases ht : t.site k <;> simp_all

theorem SamePins.labels {s t : State} (h : SamePins s t) (k : Fin 8) :
    (t.site k).map Site.label = (s.site k).map Site.label := by
  have := congrArg (Option.map Prod.fst) (h.sites k)
  simpa [Option.map_map, Function.comp_def] using this

/-- One site pin less for each time a label is named. -/
theorem dropSitePins_site (ns : List Nat) : ∀ (s : State) (k : Fin 8) (x : Site), s.site k = some x →
    s.findSlot x.label = some k →
    (∀ j, ((ns.foldl (fun t n => t.modLabel n Site.dropPin) s).site j).map Site.label = (s.site j).map Site.label)
    ∧ ∃ y, (ns.foldl (fun t n => t.modLabel n Site.dropPin) s).site k = some y ∧ y.label = x.label
      ∧ y.pins = x.pins - ns.count x.label := by
  induction ns with
  | nil => exact fun s k x hx _ => ⟨fun _ => rfl, x, hx, rfl, by simp⟩
  | cons n ns ih =>
    intro s k x hx hk
    have hl : ∀ j, ((s.modLabel n Site.dropPin).site j).map Site.label = (s.site j).map Site.label := by
      intro j
      unfold State.modLabel
      split
      · rw [State.site_modSite]
        split
        · cases s.site j <;> rfl
        · rfl
      · rfl
    obtain ⟨y, hy, hyl, hyp⟩ : ∃ y, (s.modLabel n Site.dropPin).site k = some y ∧ y.label = x.label
        ∧ y.pins = x.pins - (if n = x.label then 1 else 0) := by
      by_cases e : n = x.label
      · subst e
        refine ⟨x.dropPin, ?_, rfl, by simp [Site.dropPin]⟩
        simp only [State.modLabel, hk, State.site_modSite, if_pos, hx, Option.map_some]
      · refine ⟨x, ?_, rfl, by simp [e]⟩
        unfold State.modLabel
        split
        · rename_i j hj
          obtain ⟨z, hz, hzl⟩ := State.findSlot_holds hj
          have : j ≠ k := by
            intro h
            subst h
            exact e (by rw [← hzl]; simp_all)
          rw [State.site_modSite, if_neg this]
          exact hx
        · exact hx
    obtain ⟨h1, z, hz, hzl, hzp⟩ := ih (s.modLabel n Site.dropPin) k y hy
      (by rw [State.findSlot_congr hl, hyl]; exact hk)
    refine ⟨fun j => (h1 j).trans (hl j), z, hz, hzl.trans hyl, ?_⟩
    rw [hzp, hyp, hyl, List.count_cons]
    by_cases e : n = x.label
    · simp only [e, beq_self_eq_true, if_true]
      omega
    · simp [e]

theorem dropSitePins_store (ns : List Nat) (s : State) :
    (ns.foldl (fun t n => t.modLabel n Site.dropPin) s).store = s.store := by
  induction ns generalizing s with
  | nil => rfl
  | cons n ns ih => rw [List.foldl_cons, ih, State.modLabel_store]

/-- The end of a job releases its pins and raises Attention Print (R154). -/
theorem State.endJob_pins (s : State) (j : Job) (o : JobOutcome) (c : Nat) :
    (s.endJob j o c).store.pins = j.pages.foldl dropPin s.store.pins
    ∧ (∀ k x, s.site k = some x → s.findSlot x.label = some k → ∃ y, (s.endJob j o c).site k = some y
        ∧ (s.endJob j o c).findSlot y.label = some k ∧ y.label = x.label
        ∧ y.pins = x.pins - j.sites.count x.label)
    ∧ (NoneInDelivery s → NoneInDelivery (s.endJob j o c))
    ∧ (s.endJob j o c).attends .print = true := by
  let s1 : State := { s with store := s.store.releasePins j.pages }
  let s2 : State := j.sites.foldl (fun t n => t.modLabel n Site.dropPin) s1
  have h2 : s2.store = s.store.releasePins j.pages := dropSitePins_store _ _
  have hp : SamePins s2 (s.endJob j o c) :=
    ((State.put_samePins s2 0 _).trans (State.raise_samePins _ .print)).trans (SamePins.of rfl rfl)
  refine ⟨?_, fun k x hx hk => ?_, fun h => ?_, State.raise_attends _ _⟩
  · rw [hp.pages, h2]
    rfl
  · obtain ⟨hl, y, hy, hyl, hyp⟩ := dropSitePins_site j.sites s1 k x hx hk
    have e := hp.sites k
    change (s2.site k) = some y at hy
    rw [hy] at e
    cases hz : (s.endJob j o c).site k with
    | none => rw [hz] at e; cases e
    | some z =>
      rw [hz] at e
      simp only [Option.map_some, Option.some.injEq, Prod.mk.injEq] at e
      refine ⟨z, rfl, ?_, e.1.trans hyl, e.2.trans hyp⟩
      rw [e.1, hyl, State.findSlot_congr (s := s1) fun i => (hp.labels i).trans (hl i)]
      exact hk
  · refine hp.queued fun st q hq => h st q ?_
    rw [h2] at hq
    exact hq

/-- Jobs that end one after another release the pins of each (R154, R156). -/
theorem endJobs_pins (o : JobOutcome) (js : List Job) : ∀ (s w : State),
    w = js.foldl (fun t j => t.endJob j o (j.copy - 1)) s →
    w.store.pins = js.foldl (fun pins j => j.pages.foldl dropPin pins) s.store.pins
    ∧ (∀ k x, s.site k = some x → s.findSlot x.label = some k → ∃ y, w.site k = some y
        ∧ y.pins = js.foldl (fun n j => n - j.sites.count x.label) x.pins)
    ∧ (NoneInDelivery s → NoneInDelivery w) ∧ (js ≠ [] → w.attends .print = true) := by
  induction js with
  | nil =>
    rintro s w rfl
    exact ⟨rfl, fun k x hx _ => ⟨x, hx, rfl⟩, id, fun h => absurd rfl h⟩
  | cons j js ih =>
    intro s w hw
    obtain ⟨a, b, c, d⟩ := State.endJob_pins s j o (j.copy - 1)
    obtain ⟨a', b', c', d'⟩ := ih (s.endJob j o (j.copy - 1)) w hw
    refine ⟨by rw [a', a]; rfl, fun k x hx hk => ?_, fun h => c' (c h), fun _ => ?_⟩
    · obtain ⟨y, hy, hf, hl, hp⟩ := b k x hx hk
      obtain ⟨z, hz, hzp⟩ := b' k y hy hf
      exact ⟨z, hz, by rw [hzp, hl, hp]; rfl⟩
    · by_cases e : js = []
      · subst e
        subst hw
        exact d
      · exact d' e

end Sys2Proof.Machine
end

