-- ==== Sys2Proof/Laws/Printer.lean ====
section
/-! SUPPORT. What the printer's signals, a stall and the end of a job leave alone, and what they do to the
line and the frame. -/

namespace Sys2Proof.Machine

theorem SameMeasuring.refl (s : State) : SameMeasuring s s := ⟨rfl, rfl, rfl, rfl, rfl⟩

theorem SameMeasuring.trans {s t u : State} (a : SameMeasuring s t) (b : SameMeasuring t u) :
    SameMeasuring s u :=
  ⟨b.1.trans a.1, b.2.1.trans a.2.1, b.2.2.1.trans a.2.2.1, b.2.2.2.1.trans a.2.2.2.1,
    b.2.2.2.2.trans a.2.2.2.2⟩

theorem SameMeasuring.ite {s a b : State} {c : Prop} [Decidable c] (ha : SameMeasuring s a)
    (hb : SameMeasuring s b) : SameMeasuring s (if c then a else b) := by split <;> assumption

theorem Aside.measuring {s t : State} (h : Aside s t) : SameMeasuring s t :=
  ⟨h.fe, h.check, h.watch, h.sag, h.interval⟩

theorem OnlyPrint.measuring {s t : State} (h : OnlyPrint s t) : SameMeasuring s t := by
  unfold OnlyPrint at h
  rw [h]
  exact SameMeasuring.refl s

theorem modLabels_measuring (f : Site → Site) (ns : List Nat) (s : State) :
    SameMeasuring s (ns.foldl (fun t n => t.modLabel n f) s) := by
  induction ns generalizing s with
  | nil => exact SameMeasuring.refl s
  | cons n ns ih => exact (State.modLabel_aside s n f).measuring.trans (ih _)

/-- The end of a job (R154). -/
theorem State.endJob_measuring (s : State) (j : Job) (o : JobOutcome) (c : Nat) :
    SameMeasuring s (s.endJob j o c) := by
  unfold State.endJob
  dsimp only
  refine SameMeasuring.trans ?_ (State.modPrint_only _ _).measuring
  refine SameMeasuring.trans ?_ (State.raise_aside _ _).measuring
  refine SameMeasuring.trans ?_ (State.put_aside _ _ _).measuring
  refine SameMeasuring.trans ?_ (modLabels_measuring Site.dropPin j.sites _)
  exact SameMeasuring.refl _

/-- A frame that a signal abandons (R151). -/
theorem State.abandonFrame_measuring (s : State) (f : Frame) : SameMeasuring s (s.abandonFrame f) := by
  unfold State.abandonFrame
  dsimp only
  split
  · refine SameMeasuring.ite (State.modPrint_only s _).measuring (SameMeasuring.ite ?_ ?_)
    · exact (State.modPrint_only s _).measuring.trans (State.endJob_measuring _ _ _ _)
    · exact (State.modPrint_only s _).measuring.trans (State.modPrint_only _ _).measuring
  · exact (State.modPrint_only s _).measuring

/-- A change of a signal (R149, R151). -/
theorem State.signalMoves_measuring (s : State) (b : Bool) : SameMeasuring s (s.signalMoves b) := by
  unfold State.signalMoves
  split
  · exact SameMeasuring.ite ((State.abandonFrame_measuring s _).trans (State.settle_only _).measuring)
      (State.settle_only s).measuring
  · exact (State.settle_only s).measuring

/-- A signal that ends moves the Print Engine alone (R149). -/
theorem State.signalMoves_only (s : State) : OnlyPrint s (s.signalMoves false) := by
  unfold State.signalMoves
  split
  · exact State.settle_only s
  · exact State.settle_only s

/-- A declared stall (R152). -/
theorem State.declareStall_measuring (s : State) (f : Frame) : SameMeasuring s (s.declareStall f) := by
  unfold State.declareStall
  dsimp only
  split
  · refine SameMeasuring.ite (State.modPrint_only s _).measuring ?_
    exact (State.modPrint_only s _).measuring.trans (State.endJob_measuring _ _ _ _)
  · exact (State.modPrint_only s _).measuring

/-! ## The signals and the line -/

/-- The printer's signals, the holds, the stall and the judged flag are the same in two engines. -/
structure SameSignals (p q : PrintEngine) : Prop where
  paperOut : q.paperOut = p.paperOut
  paperHold : q.paperHold = p.paperHold
  headHot : q.headHot = p.headHot
  heatHold : q.heatHold = p.heatHold
  present : q.present = p.present
  stall : q.stall = p.stall
  judged : q.judged = p.judged

theorem SameSignals.refl (p : PrintEngine) : SameSignals p p := ⟨rfl, rfl, rfl, rfl, rfl, rfl, rfl⟩

theorem SameSignals.trans {p q r : PrintEngine} (a : SameSignals p q) (b : SameSignals q r) : SameSignals p r :=
  ⟨b.1.trans a.1, b.2.trans a.2, b.3.trans a.3, b.4.trans a.4, b.5.trans a.5, b.6.trans a.6, b.7.trans a.7⟩

theorem SameSignals.ite {p a b : PrintEngine} {c : Prop} [Decidable c] (ha : SameSignals p a)
    (hb : SameSignals p b) : SameSignals p (if c then a else b) := by split <;> assumption

theorem PrintEngine.send_signals (p : PrintEngine) (j : Job) (l : PrintLine) (n : Nat) :
    SameSignals p (p.send j l n) := by
  unfold PrintEngine.send
  split
  · unfold PrintEngine.beginFrame
    split
    · exact SameSignals.refl p
    · exact ⟨rfl, rfl, rfl, rfl, rfl, rfl, rfl⟩
  all_goals exact ⟨rfl, rfl, rfl, rfl, rfl, rfl, rfl⟩

theorem State.drive_signals (s : State) : SameSignals s.print s.drive.print := by
  unfold State.drive
  split
  · exact SameSignals.refl _
  · split
    · exact SameSignals.refl _
    · split
      · exact PrintEngine.send_signals _ _ _ _
      · exact SameSignals.refl _

/-- Reaching an item keeps the signals, the line, the frame and Strobe (R142). -/
theorem State.reachItem_signals (s : State) : SameSignals s.print s.reachItem.print
    ∧ s.reachItem.print.line = s.print.line ∧ s.reachItem.print.frame = s.print.frame
    ∧ s.reachItem.print.strobe = s.print.strobe := by
  unfold State.reachItem
  split
  · exact ⟨SameSignals.refl _, rfl, rfl, rfl⟩
  · split
    · exact ⟨SameSignals.refl _, rfl, rfl, rfl⟩
    · split
      · unfold State.reach
        split
        · split <;> exact ⟨⟨rfl, rfl, rfl, rfl, rfl, rfl, rfl⟩, rfl, rfl, rfl⟩
        · exact ⟨⟨rfl, rfl, rfl, rfl, rfl, rfl, rfl⟩, rfl, rfl, rfl⟩
      · exact ⟨SameSignals.refl _, rfl, rfl, rfl⟩

theorem State.work_signals (s : State) : SameSignals s.print s.work.print :=
  (State.reachItem_signals s).1.trans (State.drive_signals _)

theorem State.settle_signals (s : State) : SameSignals s.print s.settle.print := by
  unfold State.settle
  dsimp only
  refine SameSignals.trans ?_ (State.work_signals _)
  split <;> exact ⟨rfl, rfl, rfl, rfl, rfl, rfl, rfl⟩

/-- With the line not Ready no frame begins (R150). -/
theorem State.work_not_ready {s : State} (h : s.print.line ≠ .ready) : s.work.print.frame = s.print.frame
    ∧ s.work.print.strobe = s.print.strobe ∧ s.work.print.line = s.print.line := by
  obtain ⟨-, a, b, c⟩ := State.reachItem_signals s
  unfold State.work
  rw [← a, ← b, ← c]
  rw [← a] at h
  generalize s.reachItem = u at *
  unfold State.drive
  split
  · exact ⟨rfl, rfl, rfl⟩
  · split
    · exact ⟨rfl, rfl, rfl⟩
    · split
      · simp only [State.modPrint, PrintEngine.send]
        split
        · next hl => exact absurd hl h
        all_goals simp_all [PrintEngine.hold, PrintEngine.modJob]
      · exact ⟨rfl, rfl, rfl⟩

/-- A line judged other than Ready settles there, and no frame begins (R149, R150). -/
theorem State.settle_not_ready {s : State} (h : s.print.judge ≠ .ready) :
    s.settle.print.frame = s.print.frame ∧ s.settle.print.strobe = s.print.strobe
      ∧ s.settle.print.line = s.print.judge := by
  unfold State.settle
  dsimp only
  rw [if_neg (show ¬ (s.modPrint PrintEngine.setLine).print.line = .ready from h)]
  exact State.work_not_ready (s := s.modPrint PrintEngine.setLine) h

/-- An active Paper Out or Head Hot, or an inactive Present, keeps the line from Ready (R149). -/
theorem SameSignals.judge_ne_ready {p q : PrintEngine} (h : SameSignals p q)
    (hp : p.paperOut = true ∨ p.headHot = true ∨ p.present = false) : q.judge ≠ .ready := by
  unfold PrintEngine.judge
  rw [h.paperOut, h.headHot, h.present]
  rcases hp with e | e | e <;> simp only [e]
  · split <;> simp
  · split
    · simp
    · split <;> simp
  · rw [if_pos (Or.inr (by simp))]
    simp

/-- The end of a job changes the Print Engine's queue alone (R154). -/
theorem State.endJob_print (s : State) (j : Job) (o : JobOutcome) (c : Nat) :
    (s.endJob j o c).print = { s.print with jobs := s.print.jobs.filter fun k => k.number != j.number } := by
  have keeps : ∀ (f : Site → Site) (ns : List Nat) (t : State),
      (ns.foldl (fun t n => t.modLabel n f) t).print = t.print := by
    intro f ns
    induction ns with
    | nil => exact fun t => rfl
    | cons n ns ih => intro t; rw [List.foldl_cons, ih, (State.modLabel_aside t n f).print]
  unfold State.endJob
  simp only [State.modPrint]
  rw [(State.raise_aside _ _).print, (State.put_aside _ _ _).print, keeps]

/-- An abandoned frame is gone, with Strobe low; the signals and the line are as they were (R151). -/
theorem State.abandonFrame_print (s : State) (f : Frame) : SameSignals s.print (s.abandonFrame f).print
    ∧ (s.abandonFrame f).print.frame = none ∧ (s.abandonFrame f).print.strobe = false
    ∧ (s.abandonFrame f).print.line = s.print.line := by
  have e : (s.abandonFrame f).print
      = { s.print with frame := none, strobe := false, jobs := (s.abandonFrame f).print.jobs } := by
    unfold State.abandonFrame
    dsimp only
    split
    · split
      · rfl
      · split
        · unfold State.breakJob
          rw [State.endJob_print]
          rfl
        · rfl
    · rfl
  rw [e]
  exact ⟨⟨rfl, rfl, rfl, rfl, rfl, rfl, rfl⟩, rfl, rfl, rfl⟩

/-- A signal that stops the printer leaves no frame, with Strobe low (R151). -/
theorem State.signalMoves_stops (s : State)
    (h : s.print.paperOut = true ∨ s.print.headHot = true ∨ s.print.present = false) :
    (s.signalMoves true).print.frame = none
      ∧ (s.print.frame.isSome = true → (s.signalMoves true).print.strobe = false)
      ∧ SameSignals s.print (s.signalMoves true).print := by
  unfold State.signalMoves
  split
  · next f hf =>
    rw [if_pos rfl]
    obtain ⟨a, b, c, _⟩ := State.abandonFrame_print s f
    obtain ⟨e1, e2, _⟩ := State.settle_not_ready (a.judge_ne_ready h)
    exact ⟨e1.trans b, fun _ => e2.trans c, a.trans (State.settle_signals _)⟩
  · next hf =>
    obtain ⟨e1, _, _⟩ := State.settle_not_ready ((SameSignals.refl s.print).judge_ne_ready h)
    exact ⟨e1.trans hf, by simp [hf], State.settle_signals _⟩

/-- A job that is Held is not worked on (R151). -/
theorem State.work_held {s : State} {k : Job} {r : HoldReason} (h : s.print.current = some k)
    (hs : k.state = .held r) : s.work = s := by
  have e : s.reachItem = s := by
    unfold State.reachItem
    rw [h]
    dsimp only
    split
    · rfl
    · rw [if_neg (by simp [hs])]
  unfold State.work
  rw [e]
  unfold State.drive
  rw [h]
  dsimp only
  split
  · rfl
  · rw [if_neg (by simp [hs])]

/-! ## The next job number (R136) -/

/-- The numbers that a search for a free job number meets. -/
def candidates : Nat → Nat → List Nat
  | 0, _ => []
  | k + 1, n => n :: candidates k (nextFrom1 n)

theorem freeNumber_free_or_all_used (k : Nat) (jobs : List Job) (n : Nat) :
    (∀ j, j ∈ jobs → j.number ≠ freeNumber k jobs n) ∨ ∀ c, c ∈ candidates k n → c ∈ jobs.map (·.number) := by
  induction k generalizing n with
  | zero => right; intro c h; cases h
  | succ k ih =>
    unfold freeNumber
    split
    · rename_i h
      rcases ih (nextFrom1 n) with h1 | h1
      · exact Or.inl h1
      · right
        intro c hc
        rcases List.mem_cons.mp hc with rfl | hc
        · simpa using h
        · exact h1 c hc
    · rename_i h
      left
      intro j hj he
      exact h (List.any_eq_true.mpr ⟨j, hj, by simpa using he⟩)

theorem candidates_range (k n : Nat) (h : n + k ≤ 65536) : candidates k n = List.range' n k := by
  induction k generalizing n with
  | zero => rfl
  | succ k ih =>
    rw [candidates, List.range'_succ]
    cases k with
    | zero => rfl
    | succ k =>
      have : nextFrom1 n = n + 1 := by unfold nextFrom1 Config.word16Max; rw [if_neg (by omega)]
      rw [this, ih (n + 1) (by omega)]

theorem candidates_nodup (n : Nat) : (candidates 16 n).Nodup := by
  by_cases h : n + 16 ≤ 65536
  · rw [candidates_range 16 n h]; exact List.nodup_range'
  · by_cases h1 : 65535 ≤ n
    · have : nextFrom1 n = 1 := by unfold nextFrom1 Config.word16Max; rw [if_pos h1]
      rw [candidates, this, candidates_range 15 1 (by omega)]
      refine List.nodup_cons.mpr ⟨?_, List.nodup_range'⟩
      rw [List.mem_range']
      omega
    · have : 65520 < n ∧ n < 65535 := by omega
      obtain ⟨h2, h3⟩ := this
      interval_cases n <;> decide

/-- Among at most eight jobs the search finds a number that none of them holds (R136). -/
theorem freeNumber_free (jobs : List Job) (n : Nat) (h : jobs.length ≤ 8) :
    ∀ j, j ∈ jobs → j.number ≠ freeNumber 16 jobs n := by
  rcases freeNumber_free_or_all_used 16 jobs n with h1 | h1
  · exact h1
  · have h2 := (candidates_nodup n).subperm (fun c hc => h1 c hc)
    have h3 := h2.length_le
    simp [candidates] at h3
    omega
end Sys2Proof.Machine
end

