-- ==== Sys2Proof/Laws/Store.lean ====
section
/-! SUPPORT. What the Record Store's searches and pin requests can answer (R119, R124, R127, R174). -/

namespace Sys2Proof.Machine

/-- A delivery in flight holds a page. -/
theorem inFlight_iff (m : RecordStore) (p : Page) :
    m.inFlight p = true ↔ ∃ st d, m.deliveries.get st = some d ∧ d.page.bus = p.bus := by
  simp only [RecordStore.inFlight, List.any_eq_true]
  constructor
  · rintro ⟨st, _, h⟩
    cases hd : m.deliveries.get st with
    | none => simp [hd] at h
    | some d => exact ⟨st, d, hd, by simpa [hd] using h⟩
  · rintro ⟨st, d, hd, h⟩
    exact ⟨st, by cases st <;> decide, by simp [hd, h]⟩

/-- A page is the tail of a stream. -/
theorem isTail_iff (m : RecordStore) (p : Page) :
    m.isTail p = true ↔ ∃ st q, m.tails.get st = some q ∧ q.bus = p.bus := by
  simp only [RecordStore.isTail, List.any_eq_true]
  constructor
  · rintro ⟨st, _, h⟩
    cases hd : m.tails.get st with
    | none => simp [hd] at h
    | some d => exact ⟨st, d, hd, by simpa [hd] using h⟩
  · rintro ⟨st, d, hd, h⟩
    exact ⟨st, by cases st <;> decide, by simp [hd, h]⟩

/-- A sound page reference names an entry with the right, fits its window and is aligned (R125, R140). -/
theorem pageSound_iff (lp : LinkPort) (r : WRef) (write : Bool) :
    lp.pageSound r write = true ↔ r.reserved = 0 ∧ ∃ h : r.window < 16, ∃ w : Window,
      lp.windows[r.window] = some w ∧ r.offset + 8192 ≤ w.length
        ∧ (if write then w.write else w.read) = true ∧ (w.base + r.offset) % 8192 = 0 := by
  by_cases h : r.window < 16 ∧ r.reserved = 0
  · have e : lp.entry r = lp.windows[r.window]'h.1 := by simp [LinkPort.entry, h]
    cases hw : lp.windows[r.window]'h.1 with
    | none => simp [LinkPort.pageSound, LinkPort.valid, LinkPort.bus, e, hw]
    | some w =>
      cases write <;> simp [LinkPort.pageSound, LinkPort.valid, LinkPort.bus, e, hw, h, Config.pageBytes, and_assoc]
        <;> intros <;> exact decide_eq_true_iff
  · have e : lp.entry r = none := by simp [LinkPort.entry, h]
    simp only [LinkPort.pageSound, LinkPort.valid, e, Bool.false_and, Bool.false_eq_true, false_iff]
    rintro ⟨a, b, _⟩
    exact h ⟨b, a⟩

/-- One pin on each page of a list of distinct pages: an entry more for each page that has none (R127). -/
theorem addPins_distinct (ps : List Page) : ∀ pins : List PinEntry, (ps.map Page.bus).Nodup →
    ps.foldl addPin pins = pins.map (fun e => if e.page.bus ∈ ps.map Page.bus then { e with count := e.count + 1 } else e)
          ++ (ps.filter (fun p => !pins.any fun e => e.page.bus == p.bus)).map fun p => ⟨p, 1⟩ := by
  induction ps with
  | nil => intro pins _; simp
  | cons p ps ih =>
    intro pins hd
    simp only [List.map_cons, List.nodup_cons] at hd
    obtain ⟨hp, hn⟩ := hd
    rw [List.foldl_cons, ih _ hn]
    by_cases ha : (pins.any fun e => e.page.bus == p.bus) = true
    · have e1 : addPin pins p = pins.map fun e => if e.page.bus == p.bus then { e with count := e.count + 1 } else e := by
        simp [addPin, ha]
      rw [e1, List.filter_cons_of_neg (by simp [ha])]
      congr 1
      · rw [List.map_map]
        apply List.map_congr_left
        intro e _
        by_cases he : e.page.bus = p.bus
        · simp [he, hp]
          simpa using hp
        · simp [he]
      · congr 1
        apply List.filter_congr
        intro q _
        congr 1
        rw [List.any_map]
        congr 1; funext e; simp only [Function.comp]; split <;> rfl
    · have e1 : addPin pins p = pins ++ [⟨p, 1⟩] := by simp [addPin, ha]
      rw [e1, List.filter_cons_of_pos (by simpa using ha)]
      have hne : ∀ e ∈ pins, e.page.bus ≠ p.bus := by simpa using ha
      simp only [List.map_append, List.map_cons, List.map_nil, List.append_assoc, List.any_append, List.any_cons, List.any_nil, Bool.or_false]
      congr 1
      · apply List.map_congr_left; intro e he; simp [hne e he]
      · have : (p.bus ∈ ps.map Page.bus) = False := by simpa using hp
        simp only [this, if_false, List.singleton_append]
        congr 1
        congr 1
        apply List.filter_congr
        intro q hq
        have : (p.bus == q.bus) = false := by
          simp only [beq_eq_false_iff_ne]; intro h; exact hp (List.mem_map.mpr ⟨q, hq, h.symm⟩)
        simp [this]

/-- The oldest eligible capture: `el` says that a queued record is the first piece of an eligible one
(R119). -/
theorem oldestEligible_iff (l : List Queued) (el : Queued → Prop) (h : ∀ q, el q ↔ ∃ p, q.record = .piece p ∧ p.piece = 1 ∧ ∀ y, y ∈ l → sameCapture p y = true → y.inDelivery = false) :
      (oldestEligible l = none ↔ ∀ q, q ∈ l → ¬ el q)
      ∧ ∀ p q, oldestEligible l = some (p, q) ↔ q.record = .piece p ∧ el q ∧ ∃ before after, l = before ++ q :: after
          ∧ ∀ y, y ∈ before → ¬ el y := by
  have key : ∀ q p r, eligibleFirst l q = some (p, r) ↔ q.record = .piece p ∧ el q ∧ r = q := by
    intro q p r
    rw [h]
    cases hr : q.record <;> simp [eligibleFirst, hr]
    constructor
    · rintro ⟨⟨a, b⟩, rfl, rfl⟩
      refine ⟨rfl, ⟨a, fun y hy hs => ?_⟩, rfl⟩
      rcases b y hy with c | c
      · simp [c] at hs
      · exact c
    · rintro ⟨rfl, ⟨a, b⟩, rfl⟩
      refine ⟨⟨a, fun y hy => ?_⟩, rfl, rfl⟩
      cases c : sameCapture _ y
      · exact Or.inl rfl
      · exact Or.inr (b y hy c)
  have kn : ∀ q, eligibleFirst l q = none ↔ ¬ el q := by
    intro q
    constructor
    · intro hn he
      obtain ⟨p, hp, _⟩ := (h q).mp he
      rw [(key q p q).mpr ⟨hp, he, rfl⟩] at hn; cases hn
    · intro he; cases hc : eligibleFirst l q with
      | none => rfl
      | some a => exact absurd ((key q a.1 a.2).mp hc).2.1 he
  constructor
  · simp [oldestEligible, kn]
  · intro p q
    rw [oldestEligible, List.findSome?_eq_some_iff]
    constructor
    · rintro ⟨a, x, b, rfl, hx, hn⟩
      obtain ⟨h1, h2, rfl⟩ := (key x p q).mp hx
      exact ⟨h1, h2, a, b, rfl, fun y hy => (kn y).mp (hn y hy)⟩
    · rintro ⟨h1, h2, a, b, hl, hn⟩
      exact ⟨a, q, b, hl, (key q p q).mpr ⟨h1, h2, rfl⟩, fun y hy => (kn y).mpr (hn y hy)⟩

end Sys2Proof.Machine
end

