-- ==== Sys2Proof/WellFormed.lean ====
section
/-! DEFINITION. Which commands are well formed: every operand lies within what its register, field, bus
or converter can carry (11.1 to 11.6, R21, R29). -/

namespace Sys2Proof

/-! ## Parts -/

/-- A field of a number of bytes. -/
def fits (bytes n : Nat) : Bool := decide (n < 256 ^ bytes)

/-- A window reference is 8 bytes (R180). -/
def refFits (r : WRef) : Bool := fits 4 r.offset && fits 1 r.window && fits 3 r.reserved

/-- A limits block (11.4). -/
def limitsFit (l : Limits) : Bool :=
  fits 2 l.sag && fits 2 l.hysteresis && fits 2 l.interruption && fits 2 l.settle && fits 2 l.longLimit
    && fits 2 l.anchorWindow && fits 1 l.depth && fits 1 l.intervalLength && fits 1 l.leadHoldoff
    && fits 1 l.clampHoldoff

/-- The body of Create Site (11.4). -/
def createFits (b : CreateSiteBody) : Bool :=
  fits 2 b.label && fits 2 b.nominalVoltage && fits 1 b.frequency && fits 1 b.wiring && fits 1 b.options
    && fits 1 b.limitsGiven && fits 2 b.slipDepth && limitsFit b.limits

/-- A map entry (11.4). -/
def entryFits (e : MapEntryBody) : Bool := fits 1 e.role && fits 2 e.scale

/-- One truth value for each input holds throughout. -/
def allInputs (t : PerInput Bool) : Bool := t.v1 && t.v2 && t.v3 && t.v4 && t.i1 && t.i2 && t.i3 && t.i4

/-- The body of Set Map (11.4). -/
def mapFieldsFit (b : SetMapBody) : Bool :=
  fits 2 b.label && allInputs ⟨entryFits b.entries.v1, entryFits b.entries.v2, entryFits b.entries.v3,
    entryFits b.entries.v4, entryFits b.entries.i1, entryFits b.entries.i2, entryFits b.entries.i3,
    entryFits b.entries.i4⟩

/-- The body of Add Note within an order record (11.4). -/
def noteFits (b : AddNoteBody) : Bool :=
  fits 2 b.label && fits 1 b.author && fits 1 b.request && fits 4 b.event && fits 2 b.textLength
    && decide (b.text.length ≤ 948)

/-- The list of Give Pages (11.4). -/
def pagesFit (count : Nat) (pages : List WRef) : Bool :=
  fits 1 count && pages.length == count && pages.all refFits

/-- The body of Set Store Levels (11.4). -/
def levelsFit (l : StoreLevels) : Bool :=
  fits 1 l.hold.events && fits 1 l.hold.intervals && fits 1 l.hold.journal && fits 1 l.hold.captures
    && fits 1 l.pagesLow && fits 1 l.storeHigh

/-- The body of Queue Print within an order record (11.4). -/
def queueFits (b : QueuePrintBody) : Bool :=
  fits 1 b.copies && fits 1 b.itemCount && decide (b.items.length ≤ 956)

def settingFits (b : LineSettingBody) : Bool := fits 1 b.sense && fits 1 b.action

/-- A result area within an order record (R175). -/
def resultFits (n : Nat) : Bool := decide (n ≤ 960)

/-- The sense levels of the clamps (R29). -/
def sensesFit (p : PerClamp Nat) : Bool :=
  decide (p.i1 ≤ 1000 ∧ p.i2 ≤ 1000 ∧ p.i3 ≤ 1000 ∧ p.i4 ≤ 1000)

/-- The samples of one half-cycle of an input (R21, R28). -/
def samplesFit (l : List Int) : Bool := l.length == 128 && l.all fun c => decide (-32767 ≤ c ∧ c ≤ 32767)

def allSamplesFit (s : PerInput (List Int)) : Bool :=
  allInputs ⟨samplesFit s.v1, samplesFit s.v2, samplesFit s.v3, samplesFit s.v4, samplesFit s.i1,
    samplesFit s.i2, samplesFit s.i3, samplesFit s.i4⟩

/-- The nanoseconds of an instant beyond its whole milliseconds (log 14). -/
def nanosFit (n : Nat) : Bool := decide (n < 1000000)

/-- What an anchor read brings back (R172, R180). -/
def anchorReadFits : AnchorRead → Bool
  | .complete bytes => bytes.length == 320
  | .busError offset => decide (offset < 320)
  | .timeout offset => decide (offset < 320)

/-! ## Commands -/

/-- A command is well formed. -/
def wellFormed : Instr → Bool
  | .powerOn => true
  | .reset _ => true
  | .start _ => true
  | .anchorReadDone _ r => anchorReadFits r
  | .stop _ => true
  | .back _ => true
  | .nudge _ _ => true
  | .attentionWrite _ _ => true
  | .attentionMaskWrite _ _ => true
  | .registerWrite _ _ _ => true
  | .selfTestDone _ _ => true
  | .sweepExpiry _ => true
  | .linkReadDone _ link => refFits link
  | .orderReadDone _ bytes => decide (64 ≤ bytes.length ∧ bytes.length ≤ 1024)
  | .resultWriteDone _ => true
  | .doneWriteDone _ => true
  | .busError _ _ => true
  | .accessTimeout _ _ => true
  | .createSite b => createFits b
  | .setMap b => mapFieldsFit b
  | .setLimits b => fits 2 b.label && limitsFit b.limits
  | .startSurvey label _ sense => fits 2 label && sensesFit sense
  | .pauseSurvey label => fits 2 label
  | .resumeSurvey label => fits 2 label
  | .closeSite label => fits 2 label
  | .discardSite label => fits 2 label
  | .readSite label result => fits 2 label && resultFits result
  | .startCheck label sense => fits 2 label && sensesFit sense
  | .cancelCheck label => fits 2 label
  | .setClock sec ms => fits 4 sec && fits 2 ms
  | .snapshot label => fits 2 label
  | .addNote b => noteFits b
  | .givePages count pages result => pagesFit count pages && resultFits result
  | .flushStreams mask result => fits 1 mask && resultFits result
  | .setStoreLevels levels result => levelsFit levels && resultFits result
  | .queuePrint b result => queueFits b && resultFits result
  | .cancelPrint job => fits 2 job
  | .readPrintQueue result => resultFits result
  | .setPrinter timeout => fits 1 timeout
  | .setVanLines lines result =>
    settingFits lines.ignition && settingFits lines.mark && settingFits lines.door && settingFits lines.aux
      && resultFits result
  | .away => true
  | .rest => true
  | .linkBecomesAway => true
  | .cycleEnd _ => true
  | .zeroCrossing _ ns => nanosFit ns
  | .lockAcquired => true
  | .halfCycleEnd _ samples => allSamplesFit samples
  | .blockEnd _ phases neutral => sensesFit ⟨phases.i1, phases.i2, phases.i3, neutral⟩
  | .clockWrap => true
  | .presencePhaseEnd => true
  | .rotationFound => true
  | .associationComplete => true
  | .lockWaitExpiry => true
  | .leadsMoved => true
  | .leadLost _ input ahead => match ahead with
    | some samples => allSamplesFit samples && decide (input = .v1 ∨ input = .v2 ∨ input = .v3)
    | none => true
  | .leadRestored _ => true
  | .settleDone _ => true
  | .eventLong => true
  | .captureComplete => true
  | .eventRecordHandedOn label => fits 2 label
  | .holdTimeExpiry _ _ => true
  | .deliveryStart _ => true
  | .pageWriteDone _ _ => true
  | .pageLinkWriteDone _ _ => true
  | .printJobStart => true
  | .recordReadDone _ bytes => decide (bytes.length ≤ 8192)
  | .busyRise _ => true
  | .busyFall _ => true
  | .paperOutChange _ _ => true
  | .headHotChange _ _ => true
  | .presentChange _ _ => true
  | .printerHoldCleared _ => true
  | .printerStall _ => true
  | .stallClear _ => true
  | .vanLineChange _ _ _ => true
  | .lineDebounced _ _ => true
  | .wakeDelayEnd _ => true

end Sys2Proof
end

