-- ==== Sys2Proof/Tests/Slice0.lean ====
section
/-! SUPPORT. Tests: ill-formed commands for each check of `wellFormed`, one step of each command on a small
state, and for each statement a state and operands that meet its hypotheses. -/

namespace Sys2Proof.Tests

set_option Elab.async false

open Sys2Proof.Machine

/-! ## Small states -/

/-- The state a command answers. -/
def after (c : Instr) (s : State) : State :=
  match exec c s with
  | .next t => t
  | _ => s

def window : Window := ⟨65536, 65536, true, true⟩

/-- A Running part with an Attended link, one window, and a printer that is Ready. -/
def running : State := { State.reset with
  lp := { LinkPort.reset with
    part := .running, link := .attended, sweep := 10, position := some .anchor
    windows := (Vector.replicate 16 none).set 0 (some window) }
  print := { PrintEngine.reset with judged := true, present := true, line := .ready } }

def ref (offset : Nat) : WRef := ⟨offset, 0, 0⟩

def walking (w : WalkPhase) (s : State) : State := { s with lp := { s.lp with walker := w } }

/-- The walker offers an order whose record stands at offset 4,096. -/
def offering (o : Order) (s : State) : State := walking (.offering ⟨ref 4096, 32, o⟩) s

/-- The writes of the result that the walker is writing. -/
def answered (s : State) : List (Nat × List Byte) :=
  match s.lp.walker with
  | .writingResult _ a => a.writes
  | _ => []

/-- The result code that the walker is writing. -/
def code (c : Instr) (o : Order) (s : State) : Option Nat :=
  ((answered (after c (offering o s))).getLast?).map fun w => fromLe w.2

def levels : PerClamp Nat := ⟨500, 500, 500, 500⟩

def createBody : CreateSiteBody := ⟨7, 230, 50, 1, 0, 0, 0, defaultLimits⟩

def site (st : SiteState) : Site :=
  { Site.create createBody .wye ⟨false, false, .off, 0, false⟩ Time.zero with state := st }

/-- The part with a site labelled 7 in slot 0. -/
def holding (x : Site) : State := { running with sites := (Vector.replicate 8 none).set 0 (some x) }

def withSite (st : SiteState) : State := holding (site st)

/-- The site surveys: its map, detectors, lead watch and interval are those of Start Survey. -/
def surveying : State := walking .idle (after (.startSurvey 7 false levels) (offering (.startSurvey 7 false)
  (withSite .ready)))

def paused : State := walking .idle (after (.pauseSurvey 7) (offering (.pauseSurvey 7) surveying))

/-- The site is checked, from Drafted. -/
def checking : State := walking .idle (after (.startCheck 7 levels) (offering (.startCheck 7) (withSite .drafted)))

/-- A check record in another phase. -/
def inPhase (f : CheckRecord → CheckRecord) : State := { checking with check := checking.check.map f }

def samples : PerInput (List Int) := PerInput.same (List.replicate 128 1000)

/-- The sense levels of I1 to I3. -/
def phases (l : PerClamp Nat) : PerPhase Nat := ⟨l.i1, l.i2, l.i3⟩

/-! ## Well-formedness -/

theorem test_well_formed_commands : ([
    .powerOn, .anchorReadDone 0 (.complete (List.replicate 320 0)), .anchorReadDone 0 (.busError 319)
    , .linkReadDone 0 (ref 4294967295), .orderReadDone 0 (List.replicate 64 0), .createSite createBody
    , .startSurvey 65535 true ⟨1000, 1000, 1000, 1000⟩, .setClock 4294967295 999
    , .addNote ⟨7, 1, 0, 0, 2, [72, 73]⟩, .givePages 1 [ref 8192] 8, .flushStreams 15 88
    , .setStoreLevels ⟨⟨1, 0, 2, 0⟩, 8, 75⟩ 88, .queuePrint ⟨1, 1, [8, 4, 0, 0]⟩ 4, .readPrintQueue 392
    , .setVanLines ⟨⟨0, 0⟩, ⟨1, 0⟩, ⟨2, 0⟩, ⟨255, 255⟩⟩ 12, .halfCycleEnd 10 samples
    , .blockEnd 0 (phases levels) 500, .zeroCrossing 0 999999, .leadLost 0 .v1 (some samples), .recordReadDone 0 []] : List Instr).all
    wellFormed = true := by decide +kernel

theorem test_ill_formed_anchor_reads : ([
    .anchorReadDone 0 (.complete []), .anchorReadDone 0 (.busError 320), .anchorReadDone 0 (.timeout 320)]
    : List Instr).all (fun c => !wellFormed c) = true := by decide +kernel

theorem test_ill_formed_walker_reads : ([
    .linkReadDone 0 (ref 4294967296), .linkReadDone 0 ⟨0, 256, 0⟩, .linkReadDone 0 ⟨0, 0, 16777216⟩
    , .orderReadDone 0 (List.replicate 63 0), .orderReadDone 0 (List.replicate 1025 0)
    , .recordReadDone 0 (List.replicate 8193 0)] : List Instr).all (fun c => !wellFormed c) = true := by decide +kernel

theorem test_ill_formed_create_site : ([
    { createBody with label := 65536 }, { createBody with nominalVoltage := 65536 }
    , { createBody with frequency := 256 }, { createBody with wiring := 256 }, { createBody with options := 256 }
    , { createBody with limitsGiven := 256 }, { createBody with slipDepth := 65536 }
    , { createBody with limits := { defaultLimits with sag := 65536 } }] : List CreateSiteBody).all
    (fun b => !wellFormed (.createSite b)) = true := by decide +kernel

theorem test_ill_formed_limits : ([
    { defaultLimits with sag := 65536 }, { defaultLimits with hysteresis := 65536 }
    , { defaultLimits with interruption := 65536 }, { defaultLimits with settle := 65536 }
    , { defaultLimits with longLimit := 65536 }, { defaultLimits with anchorWindow := 65536 }
    , { defaultLimits with depth := 256 }, { defaultLimits with intervalLength := 256 }
    , { defaultLimits with leadHoldoff := 256 }, { defaultLimits with clampHoldoff := 256 }] : List Limits).all
    (fun l => !wellFormed (.setLimits ⟨7, l⟩)) = true := by decide +kernel

def entry : MapEntryBody := ⟨0, false, 1⟩

theorem test_ill_formed_set_map : wellFormed (.setMap ⟨7, PerInput.same entry⟩) = true
    ∧ wellFormed (.setMap ⟨65536, PerInput.same entry⟩) = false
    ∧ Input.all.all (fun i => !wellFormed (.setMap ⟨7, (PerInput.same entry).set i ⟨256, false, 1⟩⟩)
        && !wellFormed (.setMap ⟨7, (PerInput.same entry).set i ⟨0, false, 65536⟩⟩)) = true := by decide +kernel

theorem test_ill_formed_labels : ([
    .setLimits ⟨65536, defaultLimits⟩, .startSurvey 65536 false levels, .pauseSurvey 65536, .resumeSurvey 65536
    , .closeSite 65536, .discardSite 65536, .readSite 65536 192, .startCheck 65536 levels, .cancelCheck 65536
    , .snapshot 65536, .cancelPrint 65536, .eventRecordHandedOn 65536] : List Instr).all
    (fun c => !wellFormed c) = true := by decide +kernel

theorem test_ill_formed_senses : ([⟨1001, 0, 0, 0⟩, ⟨0, 1001, 0, 0⟩, ⟨0, 0, 1001, 0⟩, ⟨0, 0, 0, 1001⟩]
    : List (PerClamp Nat)).all (fun p => !wellFormed (.startSurvey 7 false p) && !wellFormed (.startCheck 7 p)
      && !wellFormed (.blockEnd 0 (phases p) p.i4)) = true := by decide +kernel

theorem test_ill_formed_notes_and_clock : ([
    .setClock 4294967296 0, .setClock 0 65536, .addNote ⟨65536, 0, 0, 0, 0, []⟩, .addNote ⟨0, 256, 0, 0, 0, []⟩
    , .addNote ⟨0, 0, 256, 0, 0, []⟩, .addNote ⟨0, 0, 0, 4294967296, 0, []⟩, .addNote ⟨0, 0, 0, 0, 65536, []⟩
    , .addNote ⟨0, 0, 0, 0, 0, List.replicate 949 0⟩] : List Instr).all (fun c => !wellFormed c) = true := by
  decide +kernel

theorem test_ill_formed_store_orders : ([
    .givePages 256 [] 0, .givePages 1 [] 8, .givePages 1 [⟨0, 256, 0⟩] 8, .givePages 1 [ref 0] 961
    , .flushStreams 256 88, .flushStreams 0 961, .setStoreLevels ⟨⟨256, 0, 0, 0⟩, 0, 0⟩ 88
    , .setStoreLevels ⟨⟨0, 256, 0, 0⟩, 0, 0⟩ 88, .setStoreLevels ⟨⟨0, 0, 256, 0⟩, 0, 0⟩ 88
    , .setStoreLevels ⟨⟨0, 0, 0, 256⟩, 0, 0⟩ 88, .setStoreLevels ⟨⟨0, 0, 0, 0⟩, 256, 0⟩ 88
    , .setStoreLevels ⟨⟨0, 0, 0, 0⟩, 0, 256⟩ 88, .setStoreLevels ⟨⟨0, 0, 0, 0⟩, 0, 0⟩ 961] : List Instr).all
    (fun c => !wellFormed c) = true := by decide +kernel

theorem test_ill_formed_print_orders : ([
    .queuePrint ⟨256, 0, []⟩ 4, .queuePrint ⟨0, 256, []⟩ 4, .queuePrint ⟨0, 0, List.replicate 957 0⟩ 4
    , .queuePrint ⟨1, 1, []⟩ 961, .readPrintQueue 961, .readSite 7 961, .setPrinter 256] : List Instr).all
    (fun c => !wellFormed c) = true := by decide +kernel

def settings : PerLine LineSettingBody := ⟨⟨0, 0⟩, ⟨1, 0⟩, ⟨2, 0⟩, ⟨255, 255⟩⟩

theorem test_ill_formed_van_lines : wellFormed (.setVanLines settings 961) = false
    ∧ VanLine.all.all (fun l => !wellFormed (.setVanLines (settings.set l ⟨256, 0⟩) 12)
        && !wellFormed (.setVanLines (settings.set l ⟨0, 256⟩) 12)) = true := by decide +kernel

theorem test_ill_formed_samples : Input.all.all (fun i =>
    !wellFormed (.halfCycleEnd 0 (samples.set i [])) && !wellFormed (.leadLost 0 .v1 (some (samples.set i [])))
      && !wellFormed (.halfCycleEnd 0 (samples.set i (List.replicate 128 32768)))
      && !wellFormed (.halfCycleEnd 0 (samples.set i (List.replicate 128 (-32768))))) = true
    ∧ wellFormed (.leadLost 0 .i1 (some samples)) = false := by decide +kernel

theorem test_ill_formed_crossings : wellFormed (.zeroCrossing 0 1000000) = false := by decide +kernel

/-- No row gives bits, so no word spells a command. -/
theorem test_no_word_spells_a_command : decodeTableWord 8 255 = none ∧ decodeTableWord 32 0 = none := by decide +kernel

/-! ## One step of each command -/

theorem test_power_on_and_reset : after .powerOn running = { State.reset with
      print := { PrintEngine.reset with present := true } }
    ∧ (after (.reset 5) running).clock = ⟨0, 5, true⟩ ∧ (after (.reset 5) running).lp.part = .selfTest := by
  decide +kernel

def idle : State := { running with lp := { running.lp with link := .idle, position := none, anchor := 8192 } }

theorem test_start_reads_the_anchor : (after (.start 3) idle).lp.anchorRead = some ⟨8192, 3⟩
    ∧ (after (.registerWrite 3 .controlStatus 1) idle).lp.anchorRead = some ⟨8192, 3⟩ := by decide +kernel

/-- A sound anchor block: the signature, a sweep of 10 ms, no first link, one window of 64 KiB at 65,536. -/
def anchorBlock : List Byte :=
  ascii "PEKARO48" ++ le 2 10 ++ zeros 54 ++ (le 8 65536 ++ le 4 65536 ++ byte 3 ++ zeros 3) ++ zeros 240

def reading : State := { idle with lp := { idle.lp with anchorRead := some ⟨8192, 0⟩ } }

theorem test_a_sound_anchor_starts_the_link : (after (.anchorReadDone 1 (.complete anchorBlock)) reading).lp.link = .attended
    ∧ (after (.anchorReadDone 1 (.complete anchorBlock)) reading).lp.windows[0] = some window
    ∧ (after (.anchorReadDone 1 (.complete (zeros 320))) reading).lp.fault = ⟨.badAnchor, .anchorRead, 255, 0⟩ := by
  decide +kernel

theorem test_stop : (after (.stop 1) running).lp.link = .idle ∧ (after (.registerWrite 1 .controlStatus 2) running)
    = after (.stop 1) running := by decide +kernel

def away : State := { running with lp := { running.lp with
  link := .away, walker := .stopped, awaySince := some Stamp.zero } }

theorem test_back : (after (.back 1) away).lp.link = .attended ∧ (after (.back 1) away).lp.walker = .waiting 1
    ∧ (after (.back 1) running).lp = running.lp := by decide +kernel

theorem test_registers : (after (.attentionWrite 0 3) { running with lp := { running.lp with attention := 7 } }).lp.attention = 4
    ∧ (after (.attentionMaskWrite 0 9) running).lp.mask = 9
    ∧ (after (.registerWrite 0 .anchor 4096) running).lp.anchor = 4096 := by decide +kernel

theorem test_self_test_done : (after (.selfTestDone 9 none) State.reset).lp.part = .running
    ∧ (after (.selfTestDone 9 (some (.converter .i4))) State.reset).controlStatus = 1 + 2 ^ 4 * 28 + 2 ^ 31 * 8 := by
  decide +kernel

def waiting : State := walking (.waiting 0) running

theorem test_nudge_and_sweep : (after (.nudge 1 0) waiting).lp.walker = .readingLink ⟨.linkRead, 255, 16, [], 1⟩
    ∧ (after (.sweepExpiry 10) waiting).lp.walker = .readingLink ⟨.linkRead, 255, 16, [], 10⟩
    ∧ (after (.sweepExpiry 9) waiting).lp.walker = .waiting 0 := by decide +kernel

def linkReading : State := walking (.readingLink ⟨.linkRead, 255, 16, [], 0⟩) running

theorem test_links : (after (.linkReadDone 2 WRef.null) linkReading).lp.walker = .waiting 2
    ∧ (after (.linkReadDone 2 (ref 65472)) linkReading).lp.walker
      = .readingOrder (ref 65472) ⟨.orderRead, 0, 65472, [], 2⟩
    ∧ (after (.linkReadDone 2 (ref 65488)) linkReading).lp.fault = ⟨.badLink, .linkRead, 255, 16⟩ := by
  decide +kernel

/-- The record of an Away order in the state New, 64 bytes long. -/
def awayRecord : List Byte := le 2 23 ++ le 2 64 ++ le 2 0 ++ byte 1 ++ zeros 57

def orderReading : State := walking (.readingOrder (ref 4096) ⟨.orderRead, 0, 4096, [], 0⟩) running

theorem test_orders_are_offered : (after (.orderReadDone 1 awayRecord) orderReading).lp.walker
      = .offering ⟨ref 4096, 0, .away⟩
    ∧ (after (.orderReadDone 1 (zeros 64)) orderReading).lp.walker
      = .writingResult (ref 4096) ⟨.resultWrite, 0, 4096, [(7, [1])], 1⟩ := by decide +kernel

def writing : State := walking (.writingResult (ref 4096) ⟨.resultWrite, 0, 4096, [(7, [0])], 0⟩) running

theorem test_results_and_done : (after (.resultWriteDone 1) writing).lp.walker
      = .writingDone (ref 4096) ⟨.resultWrite, 0, 4096, [(6, [2])], 1⟩
    ∧ (after (.doneWriteDone 1) (after (.resultWriteDone 1) writing)).lp.attention = 1 := by decide +kernel

theorem test_faults_halt : (after (.busError 1 .walker) writing).lp.link = .halted
    ∧ (after (.accessTimeout 50 .walker) writing).lp.fault = ⟨.accessTimeout, .resultWrite, 0, 4096⟩
    ∧ (after (.accessTimeout 49 .walker) writing).lp.link = .attended := by decide +kernel

theorem test_create_site : (after (.createSite createBody) (offering (.createSite createBody) running)).site 0
      = some { site .drafted with counters := ⟨0, 0, 1, 0, 0, 0, 0, 0⟩, journal := ⟨2, false, 0, false⟩ }
    ∧ code (.createSite createBody) (.createSite createBody) (withSite .drafted) = some 5 := by decide +kernel

/-- The default map of a Wye site as Set Map gives it, with a ratio of 20 on V1. -/
def mapBody : SetMapBody := ⟨7, ⟨⟨0, false, 20⟩, ⟨1, false, 1⟩, ⟨2, false, 1⟩, ⟨3, false, 1⟩, ⟨0, false, 100⟩,
  ⟨1, false, 100⟩, ⟨2, false, 100⟩, ⟨4, false, 100⟩⟩⟩

theorem test_set_map : ((after (.setMap mapBody) (offering (.setMap mapBody) (withSite .ready))).site 0).map
      (fun x => (x.state, x.map.v1.scale, x.checkStatus)) = some (.drafted, 20, .never)
    ∧ code (.setMap mapBody) (.setMap mapBody) surveying = some 7 := by decide +kernel

theorem test_set_limits : ((after (.setLimits ⟨7, { defaultLimits with sag := 8500 }⟩)
      (offering (.setLimits ⟨7, { defaultLimits with sag := 8500 }⟩) (withSite .drafted))).site 0).map
        (fun x => (x.active.sag, x.version)) = some (8500, 2)
    ∧ code (.setLimits ⟨7, { defaultLimits with sag := 4999 }⟩) (.setLimits ⟨7, { defaultLimits with sag := 4999 }⟩)
      (withSite .drafted) = some 2 := by decide +kernel

theorem test_start_survey : (surveying.site 0).map (·.state) = some .surveying ∧ surveying.fe.clock = .seeking
    ∧ surveying.fe.reference = some .v1 ∧ surveying.sag.detectors.v3 = some (.settling 0 false)
    ∧ surveying.interval.isSome = true ∧ surveying.fe.sense.i1 = some .fitted := by decide +kernel

theorem test_pause_and_resume : (paused.site 0).map (·.state) = some .paused ∧ paused.interval = none
    ∧ ((after (.resumeSurvey 7) (offering (.resumeSurvey 7) paused)).site 0).map (·.state) = some .surveying := by
  decide +kernel

theorem test_close_site : ((after (.closeSite 7) (offering (.closeSite 7) surveying)).site 0).map (·.state) = some .closed
    ∧ (after (.closeSite 7) (offering (.closeSite 7) surveying)).fe = FrontEnd.reset := by decide +kernel

theorem test_discard_site : (after (.discardSite 7) (offering (.discardSite 7) (withSite .closed))).site 0 = none
    ∧ code (.discardSite 7) (.discardSite 7) surveying = some 7 := by decide +kernel

theorem test_read_site : ((answered (after (.readSite 7 192) (offering (.readSite 7 192) (withSite .ready)))).head?).map
      (fun w => (w.1, w.2.length, w.2.take 4)) = some (96, 192, [0, 7, 0, 3])
    ∧ ((answered (after (.readSite 0 192) (offering (.readSite 0 192) (withSite .ready)))).head?).map
      (fun w => (w.2.length, w.2.take 4)) = some (192, [7, 0, 3, 0]) := by decide +kernel

theorem test_start_and_cancel_check : checking.check.isSome = true ∧ checking.fe.clock = .seeking
    ∧ ((after (.cancelCheck 7) (offering (.cancelCheck 7) checking)).site 0).map (fun x => (x.state, x.checkStatus))
      = some (.drafted, .aborted) := by decide +kernel

theorem test_set_clock : (after (.setClock 100 999) (offering (.setClock 100 999) running)).clock = ⟨100, 999, false⟩
    ∧ code (.setClock 100 1000) (.setClock 100 1000) running = some 2 := by decide +kernel

theorem test_snapshot : ((after (.snapshot 7) (offering (.snapshot 7) surveying)).sag.trackers[0]).map
      (fun t => (t.kind, t.trigger, t.remaining)) = some (.snapshot, 1, 1)
    ∧ code (.snapshot 7) (.snapshot 7) (withSite .ready) = some 7 := by decide +kernel

def note : AddNoteBody := ⟨7, 3, 255, 0, 2, ascii "OK"⟩

theorem test_add_note : ((after (.addNote note) (offering (.addNote note) (withSite .ready))).store.queues.journal).map
      (·.length) = [entryLength (.note (ascii "OK"))]
    ∧ code (.addNote { note with request := 2 }) (.addNote { note with request := 2 }) running = some 2 := by
  decide +kernel

theorem test_give_pages : (after (.givePages 1 [ref 8192] 8) (offering (.givePages 1 [ref 8192] 8) running)).store.pool
      = [⟨ref 8192, 73728⟩]
    ∧ code (.givePages 1 [ref 8192] 7) (.givePages 1 [ref 8192] 7) running = some 1 := by decide +kernel

theorem test_flush_streams : ((after (.flushStreams 4 88) (offering (.flushStreams 4 88) surveying)).store.queues.journal).all
      (·.due) = true ∧ code (.flushStreams 4 87) (.flushStreams 4 87) running = some 1 := by decide +kernel

theorem test_set_store_levels : (after (.setStoreLevels ⟨⟨60, 0, 0, 0⟩, 9, 100⟩ 88)
      (offering (.setStoreLevels ⟨⟨60, 0, 0, 0⟩, 9, 100⟩ 88) running)).store.levels = ⟨⟨60, 0, 0, 0⟩, 9, 100⟩
    ∧ code (.setStoreLevels ⟨⟨61, 0, 0, 0⟩, 9, 100⟩ 88) (.setStoreLevels ⟨⟨61, 0, 0, 0⟩, 9, 100⟩ 88) running
      = some 2 := by decide +kernel

def ruleJob : QueuePrintBody := ⟨1, 1, [8, 4, 0, 0]⟩

def queued1 : State := walking .idle (after (.queuePrint ruleJob 4) (offering (.queuePrint ruleJob 4) running))

theorem test_queue_print : queued1.print.jobs.map (fun j => (j.number, j.items)) = [(1, [.rule])]
    ∧ code (.queuePrint { ruleJob with copies := 0 } 4) (.queuePrint { ruleJob with copies := 0 } 4) running = some 2 := by
  decide +kernel

def printing : State := after .printJobStart queued1

theorem test_print_job_start : printing.print.line = .sending ∧ printing.print.strobe = true
    ∧ printing.print.data = 16 := by decide +kernel

theorem test_cancel_print : (after (.cancelPrint 1) (offering (.cancelPrint 1) queued1)).print.jobs = []
    ∧ code (.cancelPrint 2) (.cancelPrint 2) queued1 = some 17 := by decide +kernel

theorem test_read_print_queue : ((answered (after (.readPrintQueue 392) (offering (.readPrintQueue 392) queued1))).head?).map
      (fun w => (w.2.length, w.2.take 6)) = some (392, [1, 10, 2, 0, 1, 0]) := by decide +kernel

theorem test_set_printer : (after (.setPrinter 60) (offering (.setPrinter 60) running)).print.timeout = 60
    ∧ code (.setPrinter 61) (.setPrinter 61) running = some 2 := by decide +kernel

theorem test_set_van_lines : (after (.setVanLines settings 12) (offering (.setVanLines settings 12) running)).van.lines.aux.sense
      = .none ∧ code (.setVanLines ⟨⟨0, 0⟩, ⟨1, 1⟩, ⟨2, 0⟩, ⟨255, 255⟩⟩ 12) (.setVanLines ⟨⟨0, 0⟩, ⟨1, 1⟩, ⟨2, 0⟩, ⟨255, 255⟩⟩ 12)
      running = some 2 := by decide +kernel

def departing (c : DepartureCause) : State := { walking .stopped running with lp := { running.lp with
  walker := .stopped, departure := some ⟨c, Stamp.zero⟩ } }

theorem test_away_and_rest : (after .away (offering .away running)).lp.departure = some ⟨.away, Stamp.zero⟩
    ∧ (after .rest (offering .rest running)).lp.departure = some ⟨.rest, Stamp.zero⟩
    ∧ code .rest .rest surveying = some 7 := by decide +kernel

def resting : State := after .linkBecomesAway (departing .rest)

theorem test_link_becomes_away : (after .linkBecomesAway (departing .away)).lp.link = .away
    ∧ resting.lp.part = .resting ∧ resting.print.line = .absent := by decide +kernel

theorem test_wake_delay_end : (after (.wakeDelayEnd 50) (after (.back 0) resting)).lp.link = .attended
    ∧ (after (.wakeDelayEnd 49) (after (.back 0) resting)).lp.part = .resting := by decide +kernel

/-- A survey with its Front End in another state. -/
def front (f : FrontEnd → FrontEnd) : State := { surveying with fe := f surveying.fe }

def wholeCycle : State := front fun f => { f with
  halvesInCycle := 2, good := 4, crossings := [⟨1000000, some 50000⟩], lastCrossing := some 1000000
  cycleSquares := PerInput.same (256 * 23000 * 23000) }

theorem test_cycle_end : (after (.cycleEnd 20) wholeCycle).fe.good = 5
    ∧ (after (.cycleEnd 20) wholeCycle).fe.ring.map (·.number) = [1]
    ∧ (after (.cycleEnd 20) wholeCycle).fe.cycleStart.up = 20
    ∧ (after (.cycleEnd 19) wholeCycle).fe.cycleCount = 0 := by decide +kernel

/-- The first crossing measures nothing, and the second one 19.99 ms after it 50.025 Hz. -/
theorem test_zero_crossing_and_lock : (after (.zeroCrossing 5 0) surveying).fe.crossings = [⟨5000000, none⟩]
    ∧ (after (.zeroCrossing 19 990000) (after (.zeroCrossing 5 0) surveying)).fe.crossings
      = [⟨5000000, none⟩, ⟨24990000, some 50025⟩]
    ∧ (after .lockAcquired (after (.cycleEnd 20) wholeCycle)).fe.clock = .locked
    ∧ (after .lockAcquired wholeCycle).fe.clock = .seeking := by decide +kernel

/-- 1,000 counts with a ratio of 1 are 50.00 V, 21.74 % of 230 V. -/
theorem test_half_cycle_end : (after (.halfCycleEnd 10 samples) surveying).fe.halfCount = 1
    ∧ (presenceMeasures (site .ready).map 230 samples).v1 = some 2174
    ∧ (after (.halfCycleEnd 10 samples) surveying).fe.lastSet.map (fun v => (v.number, v.endTime.ms, v.values.v1,
      v.values.v4)) = some (1, 10, some ⟨.l1, 5000, 2174⟩, none)
    ∧ (after (.halfCycleEnd 10 samples) surveying).sag.detectors.v1 = some (.settling 1 false) := by decide +kernel

def wholeBlock : State := front fun f => { f with cyclesInBlock := 10, cycleStart := ⟨⟨0, 200, true⟩, 200⟩ }

theorem test_block_end : (after (.blockEnd 0 (phases levels) 500) wholeBlock).fe.blockCount = 1
    ∧ (after (.blockEnd 0 (phases levels) 500) wholeBlock).fe.blockStart.up = 200
    ∧ ((after (.blockEnd 0 (phases levels) 500) wholeBlock).interval.map (·.held.length)) = some 1 := by decide +kernel

/-- The cosine of an order at the 256 points of a cycle, and its sine. -/
def cosWave (order : Nat) : List Int := (List.range 256).map fun n => cosAt (order * n)

def sinWave (order : Nat) : List Int := (List.range 256).map fun n => sinAt (order * n)

/-- The RMS of a cosine is its amplitude over the square root of 2, which is its value at 45°; a third harmonic of the same size has 100 % and no other
order any; a sine lags a cosine by 90°. -/
theorem test_harmonics : (component 1 (cosWave 1)).rms 1 1 = (cosAt 32).natAbs
    ∧ (component 3 (cosWave 3)).magnitude (component 1 (cosWave 1)) = 10000
    ∧ (component 2 (cosWave 3)).magnitude (component 1 (cosWave 1)) = 0
    ∧ (component 1 (sinWave 1)).lag (component 1 (cosWave 1)) = 900
    ∧ (component 1 (cosWave 1)).lag (component 1 (sinWave 1)) = 2700 := by decide +kernel

/-- The table's cosines and sines lie on the unit circle within its precision. -/
theorem test_cosines : ((List.range 256).all fun n =>
      decide ((cosAt n * cosAt n + sinAt n * sinAt n - 2 ^ 96).natAbs < 2 ^ 49)) = true
    ∧ [cosAt 0, cosAt 64, cosAt 128, sinAt 64] = [2 ^ 48, 0, -2 ^ 48, 2 ^ 48] := by decide +kernel

theorem test_clock_wrap : (after .clockWrap running).clock = ⟨0, 0, true⟩ := by decide +kernel

def presenceOver : State := inPhase fun c => { c with
  presenceEnd := some ⟨Time.zero, 1000⟩
  inputs := c.inputs.map fun e => { e with squares := 25000000, measures := 100 } }

/-- A mean of 500 (5.00 %) is present, and the check goes on to Rotation at the end of the last half-cycle. -/
theorem test_presence_phase_end : (after .presencePhaseEnd presenceOver).check.map
      (fun c => (c.phase, c.phaseStart.up, c.inputs.v1.presence, c.inputs.v4.presence))
      = some (.rotation, 1000, .present, .notJudged)
    ∧ (after .presencePhaseEnd (inPhase fun c => { c with presenceEnd := some ⟨Time.zero, 1000⟩ })).check = none := by
  decide +kernel

def rotated : State := inPhase fun c => { c with
  phase := .rotation, run := 5, runPattern := some .acb, runEnd := ⟨Time.zero, 1400⟩ }

theorem test_rotation_found : (after .rotationFound rotated).check.map (fun c => (c.phase, c.rotation, c.run))
    = some (.association, .acb, 0) := by decide +kernel

/-- Five blocks that associate clamp I1 with V1, I2 with V2 and I3 with V3, I1 reversed. -/
def associated : State := inPhase fun c => { c with
  phase := .association, rotation := .abc, run := 5
  inputs := { c.inputs with
    i1 := { c.inputs.i1 with outcomes := List.replicate 5 (.candidate .v1 .reversed) }
    i2 := { c.inputs.i2 with outcomes := List.replicate 5 (.candidate .v2 .normal) }
    i3 := { c.inputs.i3 with outcomes := List.replicate 5 (.candidate .v3 .normal) } } }

theorem test_association_complete : ((after .associationComplete associated).site 0).map
      (fun x => (x.state, x.checkStatus, x.map.i1.verified, x.map.i2.verified))
      = some (.ready, .findings, false, true) := by decide +kernel

def lockWaited10 : State := inPhase fun c => { c with phase := .rotation, lockWaitDue := true }

def movedLeads : State := inPhase fun c => { c with
  phase := .rotation, inputs := { c.inputs with v2 := { c.inputs.v2 with moved := 10 } } }

theorem test_checks_end_unusable : ((after .lockWaitExpiry lockWaited10).site 0).map (·.unusable)
      = some (some .noReference)
    ∧ ((after .leadsMoved movedLeads).site 0).map (fun x => (x.state, x.unusable))
      = some (.drafted, some .leadsMoved) := by decide +kernel

/-- V1 is Doubtful from the start, and its 30 s holdoff has run out at the last half-cycle. -/
def doubtful : State := { front fun f => { f with lastHalfEnd := ⟨⟨30, 0, true⟩, 30000⟩ } with
  watch := surveying.watch.set .v1 (some ⟨.doubtful, some Stamp.zero, some 3, none, none, 100⟩) }

theorem test_lead_lost : ((after (.leadLost 0 .v1 none) doubtful).watch.v1).map (·.status) = some .lost
    ∧ ((after (.leadLost 0 .v1 none) doubtful).site 0).map (·.map.v1.presence) = some .absent
    ∧ (after (.leadLost 0 .v1 none) doubtful).fe.nextReference = some (some .v2) := by decide +kernel

/-- V1 has been Returning for 2 s at the last half-cycle. -/
def returning : State := { front fun f => { f with lastHalfEnd := ⟨⟨2, 0, true⟩, 2000⟩ } with
  watch := surveying.watch.set .v1 (some ⟨.returning, none, none, some Stamp.zero, some Stamp.zero, 9000⟩)
  sag := { surveying.sag with detectors := surveying.sag.detectors.set .v1 (some .absent) } }

theorem test_lead_restored : ((after (.leadRestored .v1) returning).watch.v1).map (·.status) = some .present
    ∧ (after (.leadRestored .v1) returning).sag.detectors.v1 = some (.settling 0 false) := by decide +kernel

def settled : State := { surveying with sag := { surveying.sag with
  detectors := PerInput.of fun i => if i.isVoltage then some (.settling 100 true) else none } }

theorem test_settle_done : (after (.settleDone .v1) settled).sag.detectors.v1 = some .normal := by decide +kernel

/-- Every detector is Normal, and the next half-cycle opens an event. -/
def normal : State := { surveying with sag := { surveying.sag with
  detectors := ⟨some .normal, some .normal, some .normal, none, none, none, none, none⟩ } }

def dipping : State := after (.halfCycleEnd 10 samples) normal

theorem test_event_opens : dipping.sag.openEvent.map (fun e => (e.number, e.halves, e.members.length, e.cls, e.onset))
      = some (1, 1, 3, .sag, .collecting)
    ∧ (dipping.site 0).map (fun x => (x.openEvent, x.sag.nextEvent)) = some (1, 2)
    ∧ dipping.sag.trackers[0].isSome = true := by decide +kernel

def longDip : State := { dipping with fe := { dipping.fe with lastHalfEnd := ⟨⟨60, 0, true⟩, 60000⟩ } }

theorem test_event_long : (after .eventLong longDip).sag.openEvent = none
    ∧ (after .eventLong longDip).sag.detectors.v1 = some .longHold
    ∧ ((after .eventLong longDip).site 0).map (fun x => x.sag.admission.map (·.endCause)) = some [.long] := by
  decide +kernel

/-- The onset capture of the event has counted its last cycle. -/
def captured : State := { dipping with sag := { dipping.sag with
  trackers := dipping.sag.trackers.map (Option.map fun t => { t with remaining := 0 }) } }

theorem test_capture_complete : (after .captureComplete captured).store.queues.captures.length = 12
    ∧ (after .captureComplete captured).sag.trackers[0] = none
    ∧ (after .captureComplete captured).sag.openEvent.map (·.onset) = some (.admitted 1) := by decide +kernel

/-- A closed event waits with both outcomes final. -/
def closedEvent : State := after .eventLong (after .captureComplete { captured with fe := longDip.fe })

theorem test_event_record_handed_on : (after (.eventRecordHandedOn 7) closedEvent).store.queues.events.length = 1
    ∧ ((after (.eventRecordHandedOn 7) closedEvent).site 0).map
      (fun x => (x.counters.events, x.sag.worst.length, x.sag.admission.length)) = some (1, 1, 0) := by
  decide +kernel

/-- A page in the pool, and the journal's records of the site waiting. -/
def pooled : State := { surveying with store := { surveying.store with
  pool := [⟨ref 8192, 73728⟩], queues := surveying.store.queues.map makeDue } }

def delivering : State := after (.deliveryStart .journal) pooled

theorem test_delivery_start : delivering.store.deliveries.journal.map (fun d => (d.count, d.stage, d.access.offset))
      = some (1, .records, 8256) ∧ delivering.store.pool = []
    ∧ (after (.holdTimeExpiry 2000 .journal) { pooled with store := { pooled.store with
        queues := surveying.store.queues } }).store.deliveries.journal.isSome = true := by decide +kernel

def linking : State := after (.pageWriteDone 1 .journal) (after (.pageWriteDone 1 .journal) delivering)

theorem test_page_write_done : linking.store.deliveries.journal.map (fun d => (d.access.kind, d.access.offset, d.access.writes))
    = some (.streamStartWrite, 40, [(0, refBytes (ref 8192))]) := by decide +kernel

theorem test_page_link_write_done : (after (.pageLinkWriteDone 1 .journal) linking).store.queues.journal = []
    ∧ (after (.pageLinkWriteDone 1 .journal) linking).store.tails.journal = some ⟨ref 8192, 73728⟩
    ∧ (after (.pageLinkWriteDone 1 .journal) linking).lp.attention = 2 := by decide +kernel

/-- A Note item of the device's journal at offset 64 of a page: its header is being read. -/
def noteJob : QueuePrintBody := ⟨1, 1, [5, 16, 0, 0] ++ le 2 0 ++ le 2 64 ++ refBytes (ref 16384)⟩

def readingRecord : State := after .printJobStart (walking .idle (after (.queuePrint noteJob 4)
  (offering (.queuePrint noteJob 4) running)))

theorem test_record_read_done : (readingRecord.print.read.map (fun r => (r.access.kind, r.access.offset)))
      = some (.recordRead, 16448)
    ∧ (after (.recordReadDone 1 (zeros 16)) readingRecord).print.jobs.map (fun j => j.content.map (·.length))
      = [some 1] ∧ (after (.recordReadDone 1 (zeros 16)) readingRecord).print.strobe = true := by decide +kernel

theorem test_busy : (after (.busyRise 1) printing).print.strobe = false
    ∧ (after (.busyFall 1) (after (.busyRise 1) printing)).print.data = 45
    ∧ (after (.busyFall 1) (after (.busyRise 1) printing)).print.strobe = true := by decide +kernel

theorem test_signals : (after (.paperOutChange 1 true) printing).print.line = .heldPaper
    ∧ (after (.headHotChange 1 true) printing).print.line = .heldHeat
    ∧ (after (.presentChange 1 false) printing).print.line = .absent
    ∧ (after (.paperOutChange 1 true) printing).print.jobs.map (·.state) = [.held .paper] := by decide +kernel

def paperBack : State := after (.paperOutChange 1 false) (after (.paperOutChange 1 true) printing)

theorem test_printer_hold_cleared : paperBack.print.line = .heldPaper ∧ (after (.printerHoldCleared 999) paperBack).print.line
      = .heldPaper ∧ (after (.printerHoldCleared 1000) paperBack).print.line = .sending := by decide +kernel

def stalled : State := after (.printerStall 10000) printing

theorem test_printer_stall : stalled.print.line = .stalled ∧ stalled.print.jobs = []
    ∧ (after (.printerStall 9999) printing).print.line = .sending
    ∧ (after (.stallClear 1000) stalled).print.line = .ready := by decide +kernel

/-- The lines of a part 20 ms after its Reset. -/
def lined : State := after (.lineDebounced 20 .ignition) running

theorem test_van_lines : lined.van.lines.ignition.settling = none
    ∧ (after (.vanLineChange 5 .ignition .high) lined).van.lines.ignition.pendingChange = some ⟨⟨0, 25, true⟩, 25⟩
    ∧ (after (.lineDebounced 20 .ignition) (after (.vanLineChange 5 .ignition .high) lined)).van.lines.ignition.level
      = .high
    ∧ (after (.lineDebounced 20 .ignition) (after (.vanLineChange 5 .ignition .high) lined)).lp.attention = 256 := by
  decide +kernel

/-! ## States and operands that meet the hypotheses of the statements -/

/-- A state whose queue holds one command. -/
def oneCommand : State := { checking with pending := [.clockWrap] }

theorem witness_StepRunsTheFrontCommand : oneCommand.pending = .clockWrap :: [] ∧ running.pending = [] := ⟨rfl, rfl⟩

theorem witness_TheClockCountsAndWraps : (⟨4294967295, 999, false⟩ : Time).ms ≤ 999
    ∧ (⟨4294967295, 998, false⟩ : Time).total + 1 < 4294967296000 ∧ ClockLegal running
    ∧ ClockLegal { running with clock := ⟨4294967295, 999, false⟩ } := by decide +kernel

theorem witness_TheClockStaysLegal : ClockLegal oneCommand ∧ ∃ t, step oneCommand = .next t :=
  ⟨by decide +kernel, _, rfl⟩

theorem witness_TheLinkStaysFit : LinkFitsPart oneCommand ∧ ∃ t, step oneCommand = .next t :=
  ⟨by decide +kernel, _, rfl⟩

theorem witness_TheStoreKeepsItsCaps : StoreWithinCaps oneCommand ∧ ∃ t, step oneCommand = .next t :=
  ⟨by decide +kernel, _, rfl⟩

theorem witness_TheTablesKeepTheirBounds : TablesWithinBounds oneCommand ∧ ∃ t, step oneCommand = .next t :=
  ⟨by decide +kernel, _, rfl⟩

theorem checking_slots : ∀ j : Fin 8, j ≠ 0 → oneCommand.site j = none := by decide +kernel

/-- A site is Checking, and the check record names it. -/
theorem witness_TheSiteTableStaysSound : SiteTableSound oneCommand ∧ ∃ t, step oneCommand = .next t := by
  refine ⟨⟨fun j k x y hj hk _ => ?_, fun c hc => ?_⟩, _, rfl⟩
  · have h (i : Fin 8) (z : Site) (hi : oneCommand.site i = some z) : i = 0 := by
      by_contra hne
      rw [checking_slots i hne] at hi
      cases hi
    rw [h j x hj, h k y hk]
  · have h1 : oneCommand.check.map (·.slot) = some 0 := by decide +kernel
    have h2 : (oneCommand.site 0).map (·.state) = some .checking := by decide +kernel
    rw [hc] at h1
    cases hs : oneCommand.site 0 with
    | none => rw [hs] at h2; cases h2
    | some x =>
      rw [hs] at h2
      refine ⟨x, ?_, by simpa using h2⟩
      rw [show c.slot = 0 by simpa using h1]
      exact hs

theorem witness_PowerOnAndResetRestoreEveryBlock : running.lp.part ≠ .resting ∧ resting.lp.part = .resting
    ∧ resting.van.rest = some ⟨Stamp.zero, none⟩ := by decide +kernel

/-- A Reset that ended Rest: self-test with an exit that waits for its entry. -/
def wokenByReset : State := after (.reset 0) resting

theorem witness_SelfTestEndsRunningOrBroken : State.reset.lp.part = .selfTest ∧ State.reset.print.jobs = []
    ∧ State.reset.van.rest = none ∧ wokenByReset.lp.part = .selfTest ∧ wokenByReset.print.jobs = []
    ∧ wokenByReset.van.rest = some ⟨Stamp.zero, some ⟨.reset, Stamp.zero, false⟩⟩ := by decide +kernel

theorem witness_RegisterWritesActByTheirRegister : (17 : BitVec 64).toNat % 16 = 1 ∧ (2 : BitVec 64).toNat % 16 = 2
    ∧ (4 : BitVec 64).toNat % 16 = 4 ∧ (8 : BitVec 64).toNat % 16 = 8 ∧ (15 : BitVec 64).toNat % 16 ∉ [1, 2, 4, 8]
    ∧ AttentionBit.event ≠ AttentionBit.check := by decide +kernel

/-- Every field that Control/Status and Fault show at its largest. -/
def fullStatus : State := { surveying with
  lp := { surveying.lp with selfTestCode := 255, fault := ⟨.badAnchor, .resultWrite, 255, 4294967295⟩ }
  store := { surveying.store with pool := List.replicate 256 ⟨ref 0, 0⟩ } }

theorem witness_StatusRegistersReadTheirFields : TablesWithinBounds fullStatus ∧ StoreWithinCaps fullStatus
    ∧ fullStatus.lp.selfTestCode < 256 ∧ fullStatus.lp.fault.window < 256
    ∧ fullStatus.lp.fault.offset < 4294967296 := by decide +kernel

theorem witness_StartReadsTheAnchorAndStartsTheLink : (idle.lp.part = .running ∧ idle.lp.link = .idle
      ∧ idle.lp.anchor.toNat % 4096 = 0 ∧ (8193 : BitVec 64).toNat % 4096 ≠ 0)
    ∧ State.reset.lp.part ≠ .running ∧ running.lp.link ≠ .idle
    ∧ reading.lp.anchorRead = some ⟨8192, 0⟩ ∧ anchorBlock.length = 320
    ∧ badAnchorField reading.lp anchorBlock = none ∧ badAnchorField reading.lp (zeros 320) = some 0
    ∧ badAnchorField reading.lp (anchorBlock.set 8 9) = some 8
    ∧ badAnchorField reading.lp (anchorBlock.set 16 1) = some 16
    ∧ badAnchorField reading.lp (anchorBlock.set 76 0) = some 64 ∧ 0 + 50 ≤ reading.up + 50 := by decide +kernel

def broken : State := after (.selfTestDone 0 (some .printerStrobe)) State.reset

/-- A Broken part judges its printer line from the signals (R149). -/
theorem test_broken_judges_the_line : broken.print.judged = true ∧ broken.print.line = .absent
    ∧ (after (.presentChange 0 true) broken).print.line = .ready := by decide +kernel

/-- A Stop ends the job, with its Print Ended entry in the journal and Attention Print raised (R156). -/
theorem test_stop_ends_the_job : (after (.stop 0) printing).print.jobs = []
    ∧ (after (.stop 0) printing).store.queues.journal.length = printing.store.queues.journal.length + 1
    ∧ (after (.stop 0) printing).attends .print = true := by decide +kernel

theorem witness_StopEndsTheLink : running.lp.part = .running ∧ resting.lp.part = .resting
    ∧ running.print.jobs = [] ∧ State.reset.lp.part = .selfTest ∧ broken.lp.part = .broken
    ∧ printing.lp.part = .running ∧ printing.print.jobs ≠ []
    ∧ (withSite .drafted).lp.part = .running ∧ (withSite .drafted).site 0 = some (site .drafted)
    ∧ (withSite .drafted).findSlot (site .drafted).label = some 0 := by decide +kernel

/-- A departure is pending while the walker writes its order Done. -/
def leaving : State := { departing .away with lp := { (departing .away).lp with
  walker := .writingDone (ref 4096) ⟨.resultWrite, 0, 4096, [(6, [2])], 0⟩ } }

def halted : State := after (.busError 1 .walker) writing

theorem witness_BackBringsTheLinkBack : (away.lp.part = .running ∧ away.lp.link = .away
      ∧ away.lp.awaySince = some Stamp.zero)
    ∧ ((departing .away).lp.link = .attended ∧ (departing .away).lp.departure = some ⟨.away, Stamp.zero⟩
      ∧ (departing .away).lp.walker = .stopped)
    ∧ (leaving.lp.link = .attended ∧ leaving.lp.departure = some ⟨.away, Stamp.zero⟩ ∧ leaving.lp.walker ≠ .stopped)
    ∧ (resting.lp.part = .resting ∧ resting.van.rest = some ⟨Stamp.zero, none⟩)
    ∧ (after (.back 0) resting).van.rest = some ⟨Stamp.zero, some ⟨.back, Stamp.zero, false⟩⟩
    ∧ broken.lp.part = .broken ∧ idle.lp.link = .idle ∧ halted.lp.link = .halted ∧ halted.lp.part = .running
    ∧ running.lp.link = .attended ∧ running.lp.departure = none := by decide +kernel

theorem witness_TheWalkerFollowsTheLink : (waiting.lp.link = .attended ∧ waiting.lp.departure = none
      ∧ waiting.lp.walker = .waiting 0 ∧ waiting.lp.sweep ≠ 0 ∧ 0 + waiting.lp.sweep ≤ waiting.up + 10
      ∧ waiting.up + 9 < 0 + waiting.lp.sweep)
    ∧ State.reset.lp.sweep = 0 ∧ away.lp.link ≠ .attended ∧ (departing .away).lp.departure.isSome = true
    ∧ linkReading.lp.walker = .readingLink ⟨.linkRead, 255, 16, [], 0⟩
    ∧ (ref 65472 ≠ WRef.null ∧ linkReading.lp.linkPasses (ref 65472) = true)
    ∧ linkReading.lp.linkPasses (ref 65488) = false ∧ linkReading.lp.linkPasses (ref 65473) = false
    ∧ linkReading.lp.linkPasses ⟨16, 1, 0⟩ = false ∧ linkReading.lp.linkPasses ⟨16, 16, 0⟩ = false := by
  decide +kernel

theorem witness_TheWalkerJudgesTheOrder :
    orderReading.lp.walker = .readingOrder (ref 4096) ⟨.orderRead, 0, 4096, [], 0⟩ ∧ awayRecord.length = 64
    ∧ field (awayRecord.set 6 2) 6 1 = 2 ∧ field awayRecord 6 1 ≠ 2
    ∧ orderOf orderReading.lp (ref 4096) awayRecord = some .away
    ∧ orderOf orderReading.lp (ref 4096) (zeros 64) = none
    ∧ (awayRecord.length = field awayRecord 2 2 ∧ field awayRecord 6 1 = 1 ∧ field awayRecord 2 2 % 16 = 0
      ∧ recordFits orderReading.lp (ref 4096) (field awayRecord 2 2) = true ∧ field awayRecord 4 2 = 0
      ∧ kindNeeds (field awayRecord 0 2) = some (0, 0)) := by decide +kernel

def doneWriting (f : LinkPort → LinkPort) : State := { running with lp := f { running.lp with
  walker := .writingDone (ref 4096) ⟨.resultWrite, 0, 4096, [(6, [2])], 0⟩ } }

theorem witness_TheWalkerWritesDone :
    writing.lp.walker = .writingResult (ref 4096) ⟨.resultWrite, 0, 4096, [(7, [0])], 0⟩
    ∧ leaving.lp.departure.isSome = true ∧ (doneWriting id).lp.departure = none
    ∧ (doneWriting id).lp.waitsAfterDone = false
    ∧ (doneWriting fun p => { p with waitsAfterDone := true }).lp.waitsAfterDone = true := by decide +kernel

theorem witness_FaultsHaltTheLink : writing.lp.link = .attended
    ∧ writing.accessOf .walker = some ⟨.resultWrite, 0, 4096, [(7, [0])], 0⟩
    ∧ (delivering.accessOf (.delivery .journal)).isSome = true ∧ (readingRecord.accessOf .recordRead).isSome = true
    ∧ readingRecord.lp.link = .attended ∧ readingRecord.print.read.isSome = true
    ∧ readingRecord.print.current.isSome = true ∧ writing.print.read = none
    ∧ 0 + 50 ≤ writing.up + 50 ∧ writing.up + 49 < 0 + 50 := by decide +kernel

theorem offering_offers (o : Order) (s : State) (h : s.lp.link = .attended) :
    Offers (offering o s) ⟨ref 4096, 32, o⟩ := ⟨h, rfl⟩

theorem witness_OrdersAnswerTheirOffer : orderOfCommand .away = some .away
    ∧ Offers (offering .away running) ⟨ref 4096, 32, .away⟩
    ∧ ∀ f, ¬ (Offers running f ∧ f.order = .away) := by
  refine ⟨rfl, offering_offers _ _ rfl, fun f h => ?_⟩
  have := h.1.2
  cases this

/-- A record store with a record of a length in its captures. -/
def filled (n : Nat) : State := { withSite .drafted with store := { RecordStore.reset with
  queues := { (PerStream.same [] : PerStream (List Queued)) with
    captures := [⟨.interval (Interval.toRecord (Interval.opened 0 (site .drafted) Time.zero) 1 .paused 0 true), n, 7,
      Time.zero, false, false⟩] } } }

def spent : JournalState := ⟨4294967295, true, 65535, false⟩

theorem witness_TheJournalAdmitsOrCountsAnEntry :
    (filled 0).journalOf 7 = some JournalState.fresh ∧ JournalState.fresh.exhausted = false
    ∧ (filled 0).journalOf 0 = some JournalState.fresh
    ∧ (filled (524288 - entryLength .resumed)).store.total + entryLength .resumed ≤ 524288
    ∧ 524288 < (filled (524289 - entryLength .resumed)).store.total + entryLength .resumed
    ∧ (holding { site .drafted with journal := spent }).journalOf 7 = some spent ∧ spent.exhausted = true := by
  decide +kernel

def eventRecord : EventRecord := ⟨7, 1, Time.zero, 1, 10, 8000, .v1, 0, 0, .sag, [], 1, .recovered, .skipped, .skipped⟩

/-- A capture of the site in the store, which the event record does not fit beside. -/
def crowded : State := { after .captureComplete captured with store := { (after .captureComplete captured).store with
  queues := { (after .captureComplete captured).store.queues with
    captures := (after .captureComplete captured).store.queues.captures ++ (filled 470000).store.queues.captures } } }

theorem witness_RecordsAreAdmittedOrLost :
    ((oldestEligible crowded.store.queues.captures).isSome = true ∧ (crowded.siteOf 7).isSome = true
      ∧ 491520 < crowded.store.nonJournalOccupancy + 96 ∧ (crowded.admitRecord .events (.event eventRecord)).2 = true)
    ∧ (Record.event eventRecord).length = 96
    ∧ (filled (491520 - 96)).store.nonJournalOccupancy + 96 ≤ 491520 ∧ (filled (491520 - 96)).store.total + 96 ≤ 524288
    ∧ 491520 < (filled (491521 - 96)).store.nonJournalOccupancy + 96
    ∧ oldestEligible (filled (491521 - 96)).store.queues.captures = none := by decide +kernel

theorem witness_WakeIsRaisedWhenAway : away.lp.link = .away ∧ away.van.wake = .low ∧ running.lp.link ≠ .away
    ∧ (away.wakeRequest .storeHigh).van.wake = .high
    ∧ (filled 393215).store.total < (filled 393215).store.levels.storeHigh * 524288 / 100
    ∧ (filled 393215).store.levels.storeHigh * 524288 / 100
      ≤ ((filled 393215).addRecords .events [.event eventRecord]).store.total
    ∧ (filled 393216).store.levels.storeHigh * 524288 / 100 ≤ (filled 393216).store.total := by decide +kernel

/-! ### Sites -/

/-- Two sites, in slots 0 and 1. -/
def twoSites (x y : Site) : State := { running with sites := ((Vector.replicate 8 none).set 0 (some x)).set 1 (some y) }

def labelled (n : Nat) (x : Site) : Site := { x with label := n }

/-- A full site table. -/
def fullTable : State := { running with sites := Vector.ofFn fun k : Fin 8 => some (labelled (8 + k.val) (site .drafted)) }

theorem no_label (s : State) (label : Nat)
    (h : ∀ k : Fin 8, ((s.site k).map fun x => decide (x.label = label)) ≠ some true) :
    ∀ (k : Fin 8) (x : Site), s.site k = some x → x.label ≠ label := by
  intro k x hx he
  have := h k
  rw [hx] at this
  exact this (by simp [he])

theorem witness_CreateSiteFillsTheLowestSlot :
    ([1, 65535].all fun n => [50, 800].all fun v => [0, 1].all fun g =>
      (judgeCreate ⟨n, v, 60, 2, 11, g, 9800, defaultLimits⟩).isSome) = true
    ∧ parseWiring 1 = some .wye ∧ parseOptions 11 100 = some ⟨true, true, .depth, 100, false⟩
    ∧ slipOk ⟨true, true, .depth, 100, false⟩ = true
    ∧ parseOptions 0 100 = some ⟨false, false, .off, 0, false⟩
    ∧ (∀ (j : Fin 8) (x : Site), (withSite .drafted).site j = some x → x.label ≠ 1)
    ∧ (withSite .drafted).site 1 = none ∧ (∀ j : Fin 8, j < 1 → ((withSite .drafted).site j).isSome = true)
    ∧ ([{ createBody with label := 0 }, { createBody with nominalVoltage := 49 }, { createBody with nominalVoltage := 801 }
      , { createBody with frequency := 51 }, { createBody with limitsGiven := 2 }, { createBody with label := 65536 }
      , { createBody with wiring := 3 }, { createBody with options := 12 }, { createBody with options := 8, slipDepth := 99 }
      , { createBody with options := 8, slipDepth := 9801 }
      , { createBody with limitsGiven := 1, limits := { defaultLimits with sag := 4999 } }] : List CreateSiteBody).all
        (fun b => (judgeCreate b).isNone) = true
    ∧ ((withSite .drafted).site 0).map (·.label) = some createBody.label
    ∧ (∀ k, ∃ x, fullTable.site k = some x ∧ x.label ≠ createBody.label) := by
  refine ⟨by decide +kernel, by decide +kernel, by decide +kernel, by decide +kernel, by decide +kernel,
    no_label _ _ (by decide +kernel), by decide +kernel, by decide +kernel, by decide +kernel, by decide +kernel,
    fun k => ?_⟩
  refine ⟨labelled (8 + k.val) (site .drafted), ?_, ?_⟩
  · revert k; decide +kernel
  · show 8 + k.val ≠ 7
    omega

theorem witness_LimitsAreChecked : limitsValid ⟨5000, 100, 100, 10, 1, 0, 8, 1, 0, 0⟩ = true
    ∧ limitsValid ⟨9800, 200, 2000, 500, 600, 300, 50, 60, 15, 15⟩ = true
    ∧ limitsValid { defaultLimits with sag := 9800, hysteresis := 201 } = false
    ∧ limitsValid { defaultLimits with sag := 4999 } = false ∧ limitsValid { defaultLimits with intervalLength := 4 } = false
    ∧ createBody.limitsGiven = 0 ∧ ({ createBody with limitsGiven := 1 }).limitsGiven = 1 := by decide +kernel

/-- The site's map as `mapBody` replaces it. -/
def replaced (x : Site) : ChannelMap := PerInput.of fun i =>
  { role := (Role.ofNumber (mapBody.entries.get i).role).getD .unused, scale := (mapBody.entries.get i).scale
    invert := (mapBody.entries.get i).invert, verified := false
    presence := if x.state = .paused then (x.map.get i).presence else .unknown }

/-- V1 and V2 both hold L1. -/
def doubled : PerInput MapEntryBody := mapBody.entries.set .v2 ⟨0, false, 1⟩

theorem witness_maps_that_are_refused : entryOk .v1 ⟨0, false, 1001⟩ = false ∧ entryOk .i1 ⟨0, false, 3001⟩ = false
    ∧ entryOk .v1 ⟨6, false, 1⟩ = false ∧ entryOk .v1 ⟨5, false, 1000⟩ = true ∧ entryOk .i4 ⟨3, false, 3000⟩ = true
    ∧ entryOk .v1 ⟨0, false, 0⟩ = false ∧ mapFits (site .ready).wiring doubled = false
    ∧ (∀ i, (doubled.get i).role ≤ 5) ∧ ∀ i, (mapBody.entries.get i).role ≤ 5 := by
  refine ⟨by decide +kernel, by decide +kernel, by decide +kernel, by decide +kernel, by decide +kernel,
    by decide +kernel, by decide +kernel, fun i => ?_, fun i => ?_⟩ <;> cases i <;> decide +kernel

theorem pausedSite : Holds paused 7 0 (((paused.sites)[0]).getD (site .drafted)) := by decide +kernel

theorem witness_SetMapReplacesTheMap :
    ([SiteState.drafted, .ready, .paused, .checking, .surveying, .closed].all fun st =>
      decide (Holds (withSite st) mapBody.label 0 (site st))) = true
    ∧ (∀ i, entryOk i (mapBody.entries.get i) = true) ∧ mapFits (site .paused).wiring mapBody.entries = true
    ∧ ∀ i, ((replaced (site .paused)).get i).scale = (mapBody.entries.get i).scale
      ∧ ((replaced (site .paused)).get i).invert = (mapBody.entries.get i).invert
      ∧ Role.ofNumber (mapBody.entries.get i).role = some ((replaced (site .paused)).get i).role
      ∧ ((replaced (site .paused)).get i).verified = false
      ∧ ((replaced (site .paused)).get i).presence = ((site .paused).map.get i).presence := by
  refine ⟨by decide +kernel, fun i => ?_, by decide +kernel, fun i => ?_⟩ <;> cases i <;> decide +kernel

theorem witness_SetLimitsAppliesOrWaits :
    ([SiteState.drafted, .ready, .paused, .checking, .surveying, .closed].all fun st =>
      decide (Holds (withSite st) 7 0 (site st))) = true
    ∧ limitsValid defaultLimits = true ∧ Holds (holding { site .drafted with version := 65535 }) 7 0
      { site .drafted with version := 65535 } := by decide +kernel

/-- Another site is live. -/
def otherLive (st : SiteState) : State := twoSites (site st) (labelled 8 (site .paused))

theorem witness_StartSurveyBeginsTheSurvey :
    ([SiteState.drafted, .ready].all fun st => decide (Holds (withSite st) 7 0 (site st)
      ∧ (withSite st).liveSlot = none ∧ Holds (otherLive st) 7 0 (site st) ∧ (otherLive st).liveSlot = some 1)) = true
    ∧ ([SiteState.paused, .checking, .surveying, .closed].all fun st =>
      decide (Holds (withSite st) 7 0 (site st) ∧ st ≠ .ready ∧ st ≠ .drafted)) = true := by decide +kernel

/-- A survey with one block in its interval. -/
def closingInterval : State := { surveying with interval := surveying.interval.map fun iv => { iv with total := 1 } }

theorem witness_PauseAndResumeMoveTheSurvey :
    Holds surveying 7 0 ((surveying.sites[0]).getD (site .drafted)) ∧ (surveying.site 0).map (·.state) = some .surveying
    ∧ Holds paused 7 0 ((paused.sites[0]).getD (site .drafted)) ∧ (paused.site 0).map (·.state) = some .paused
    ∧ Holds (withSite .closed) 7 0 (site .closed) ∧ surveying.readyRecord 7 = none
    ∧ (closedEvent.readyRecord 7).map (·.site) = some 7 := by decide +kernel

theorem witness_CloseSiteClosesTheSite :
    ([SiteState.drafted, .ready, .paused, .checking, .surveying, .closed].all fun st =>
      decide (Holds (withSite st) 7 0 (site st))) = true
    ∧ (checking.check.map (·.slot) = some 0 ∧ (checking.site 0).map (·.state) = some .checking
      ∧ (checking.site 0).map (·.returnState) = some (some .drafted))
    ∧ (dipping.sag.openEvent.isSome = true ∧ (dipping.site 0).map (·.state) = some .surveying)
    ∧ ((closingInterval.interval.map (·.slot)) = some 0 ∧ (closingInterval.site 0).map (·.state) = some .surveying
      ∧ (closingInterval.interval.map (·.total)) = some 1 ∧ closingInterval.store.total < 1000) := by decide +kernel

theorem no_record (s : State) (label : Nat)
    (h : Stream.all.all (fun st => (s.store.queues.get st).all fun q => decide (q.site ≠ label)) = true) :
    ∀ st q, q ∈ s.store.queues.get st → q.site ≠ label := by
  intro st q hq
  have h1 := List.all_eq_true.mp h st (by cases st <;> decide)
  have h2 := List.all_eq_true.mp h1 q hq
  simpa using h2

theorem witness_DiscardSiteEmptiesTheSlot :
    (∀ st, st = .drafted ∨ st = .closed → Holds (withSite st) 7 0 (site st) ∧ (site st).pins = 0)
    ∧ (∀ st q, q ∈ (withSite .closed).store.queues.get st → q.site ≠ 7)
    ∧ (Holds (withSite .ready) 7 0 (site .ready) ∧ (site .ready).state ≠ .drafted ∧ (site .ready).state ≠ .closed)
    ∧ (Holds (holding { site .closed with pins := 1 }) 7 0 { site .closed with pins := 1 })
    ∧ (Holds (filled 96) 7 0 (site .drafted) ∧ ∃ q, q ∈ (filled 96).store.queues.get .captures ∧ q.site = 7) := by
  refine ⟨?_, no_record _ _ (by decide +kernel), by decide +kernel, by decide +kernel, by decide +kernel, _,
    List.mem_singleton.mpr rfl, rfl⟩
  intro st h
  rcases h with h | h <;> subst h <;> decide +kernel

theorem witness_ReadOrdersChangeNothing : Holds (withSite .ready) 7 0 (site .ready) ∧ (192 ≤ 192 ∧ 191 < 192)
    ∧ (392 ≤ 392 ∧ 391 < 392) ∧ (site .ready).label < 65536
    ∧ ((withSite .ready).site 0 = some (site .ready) ∧ (withSite .ready).site 1 = none)
    ∧ (queued1.print.jobs[0]?.isSome = true ∧ queued1.print.jobs.length ≤ 8) := by decide +kernel

theorem witness_SiteOrdersMeetTheCommonRefusals :
    ((.pauseSurvey 0 : Instr), (.pauseSurvey 0 : Order)) ∈ [((.startSurvey 0 true levels : Instr),
      (.startSurvey 0 true : Order)), (.pauseSurvey 0, .pauseSurvey 0)]
    ∧ 65535 < 65536 ∧ (∀ k x, (withSite .ready).site k = some x → x.label ≠ 1)
    ∧ (∀ k x, (withSite .ready).site k = some x → x.label ≠ 65535)
    ∧ (∀ k x, running.site k = some x → x.label ≠ mapBody.label)
    ∧ (∀ i, entryOk i (mapBody.entries.get i) = true) ∧ limitsValid defaultLimits = true :=
  ⟨List.mem_cons_of_mem _ (List.mem_singleton.mpr rfl), by decide, no_label _ _ (by decide +kernel),
    no_label _ _ (by decide +kernel), no_label _ _ (by decide +kernel), fun i => by cases i <;> decide +kernel,
    by decide +kernel⟩

/-! ### Checks, the clock, snapshots and notes -/

theorem witness_StartCheckBeginsTheCheck :
    ([SiteState.drafted, .ready].all fun st => decide (Holds (withSite st) 7 0 (site st)
      ∧ (withSite st).liveSlot = none ∧ Holds (otherLive st) 7 0 (site st) ∧ (otherLive st).liveSlot = some 1)) = true
    ∧ (Holds (withSite .paused) 7 0 (site .paused) ∧ (withSite .paused).liveSlot = some 0)
    ∧ (Holds (otherLive .paused) 7 0 (site .paused)
      ∧ (twoSites (labelled 8 (site .paused)) (site .paused)).liveSlot = some 0
      ∧ Holds (twoSites (labelled 8 (site .paused)) (site .paused)) 7 1 (site .paused))
    ∧ ([SiteState.checking, .surveying, .closed].all fun st => decide (Holds (withSite st) 7 0 (site st))) = true := by
  decide +kernel

/-- The site of a state in slot 0. -/
def slot0 (s : State) : Site := (s.sites[0]).getD (site .drafted)

/-- The check record of a state. -/
def record (s : State) : CheckRecord := s.check.getD (CheckRecord.fresh 0 (site .drafted).map
  ⟨none, none, none, none⟩ levels Stamp.zero)

/-- A site is checked and the state holds its record. -/
abbrev Checks (s : State) : Prop := s.check = some (record s) ∧ s.site (record s).slot = some (slot0 s)

/-- A check runs in slot 0 while another, Drafted site stands in slot 1. -/
def besideCheck : State := { checking with sites := checking.sites.set 1 (some (labelled 8 (site .drafted))) }

/-- The fully Locked block of the worked example of chapter 03: ABC, with I2 on L3 and reversed, and I3 on L2. -/
def angleBlock : BlockResult :=
  let r (role : Role) (angle : Nat) : Option InputResult := some ⟨role, true, 23000, 23000, some [], some angle⟩
  { number := 1, endTime := Time.zero, cycles := 10, lockedCycles := 10, frequency := some 50000, reference := some .v1
    mapChanged := false, roles := PerInput.same .unused
    results := ⟨r .l1 0, r .l2 1200, r .l3 2400, none, r .l1 200, r .l2 800, r .l3 1400, none⟩ }

/-- A block that is not fully Locked and gives no angle. -/
def unlockedBlock : BlockResult := { angleBlock with lockedCycles := 9, results := PerInput.same none }

theorem witness_ChecksEndEarly : (Checks checking ∧ Holds checking 7 0 (slot0 checking)
      ∧ (slot0 checking).state = .checking)
    ∧ (Checks besideCheck ∧ Holds besideCheck 8 1 (labelled 8 (site .drafted)))
    ∧ (Checks lockWaited10 ∧ (record lockWaited10).lockWaitDue = true)
    ∧ (Checks movedLeads ∧ (record movedLeads).leadsMoved = true)
    ∧ (record { movedLeads with check := movedLeads.check.map fun c =>
        { c with inputs := { c.inputs with v2 := { c.inputs.v2 with moved := 9 } } } }).leadsMoved = false
    ∧ (let c := { record lockWaited10 with run := 4 }
      c.phase = .rotation ∧ c.run < 5 ∧ c.phaseStart.up ≤ 0 ∧ (unlockedBlock.lockedCycles ≠ unlockedBlock.cycles)
        ∧ (c.takeBlock (site .checking) unlockedBlock Stamp.zero ⟨Time.zero, 200⟩).lockWaitStart.up = 200
        ∧ ({ c with run := 0 }.takeBlock (site .checking) unlockedBlock Stamp.zero ⟨Time.zero, 10000⟩).lockWaitDue = true
        ∧ ({ c with run := 0 }.takeBlock (site .checking) unlockedBlock Stamp.zero ⟨Time.zero, 9999⟩).lockWaitDue
          = false)
    ∧ (angleBlock.lockedCycles = angleBlock.cycles ∧ isLVoltage (site .checking).map .v1 = true
      ∧ unlockedBlock.angle .v1 = none ∧ { angleBlock with reference := none }.reference = none) := by decide +kernel

def judged (s : State) : PerInput InputCheck := PerInput.of fun i => ((record s).inputs.get i).judgePresence i

/-- Nothing is measured in a Presence phase that has ended. -/
def absentOver : State := inPhase fun c => { c with presenceEnd := some ⟨Time.zero, 1000⟩ }

/-- The same check on a Single site. -/
def singleOver : State := { presenceOver with
  sites := presenceOver.sites.map (Option.map fun x => { x with wiring := .single }) }

/-- Two clamps are associated with V1. -/
def conflicting : State := { associated with check := associated.check.map fun c =>
  { c with inputs := { c.inputs with i2 := c.inputs.i1 } } }

/-- The same from Paused. -/
def associatedPaused : State := { associated with
  sites := associated.sites.map (Option.map fun x => { x with returnState := some .paused }) }

theorem witness_ChecksGoThroughTheirPhases :
    (Checks presenceOver ∧ (record presenceOver).phase = .presence
      ∧ (record presenceOver).presenceEnd = some ⟨Time.zero, 1000⟩ ∧ (slot0 presenceOver).wiring ≠ .single
      ∧ ∀ i, i.isVoltage = true → ((judged presenceOver).get i).roleAtStart.isL = true →
        ((judged presenceOver).get i).presence ≠ .absent)
    ∧ (Checks singleOver ∧ (slot0 singleOver).wiring = .single)
    ∧ (Checks absentOver ∧ ((judged absentOver).get .v1).roleAtStart.isL = true
      ∧ ((judged absentOver).get .v1).presence = .absent)
    ∧ (Checks rotated ∧ (record rotated).phase = .rotation ∧ 5 ≤ (record rotated).run
      ∧ (record rotated).runPattern = some .acb)
    ∧ (Checks conflicting ∧ (record conflicting).phase = .association ∧ 5 ≤ (record conflicting).run
      ∧ clampConflict (associations (record conflicting) true) = true)
    ∧ (Checks associated ∧ (record associated).phase = .association ∧ 5 ≤ (record associated).run
      ∧ clampConflict (associations (record associated) true) = false)
    ∧ (Checks associatedPaused ∧ (slot0 associatedPaused).returnState = some .paused
      ∧ clampConflict (associations (record associatedPaused) true) = false) := by
  refine ⟨⟨by decide +kernel, by decide +kernel, by decide +kernel, by decide +kernel, fun i => ?_⟩, by decide +kernel,
    by decide +kernel, by decide +kernel, by decide +kernel, by decide +kernel, by decide +kernel⟩
  cases i <;> decide +kernel

theorem witness_angles_and_candidates :
    (let c := { record rotated with run := 0, runPattern := none };
      c.phase = .rotation ∧ c.phaseStart.up ≤ 0 ∧ c.run < 5
        ∧ (c.takeBlock (site .checking) angleBlock Stamp.zero Stamp.zero).runPattern = some .abc
        ∧ ({ c with runPattern := some .acb }.takeBlock (site .checking) angleBlock Stamp.zero Stamp.zero).rotation
          = .indeterminate)
    ∧ (∀ i, isLVoltage (site .checking).map i = true → (angleBlock.angle i).isSome = true)
    ∧ (∀ i, isLVoltage (site .checking).map i = true ↔ i = .v1 ∨ i = .v2 ∨ i = .v3)
    ∧ (let c := { record associated with run := 0 }
      c.phase = .association ∧ angleBlock.reference.isSome = true
        ∧ ((c.takeBlock (site .checking) angleBlock Stamp.zero Stamp.zero).inputs.get .i1).outcomes.getLast?
          = some (.candidate .v1 .normal))
    ∧ [Input.i1, .i2, .i3].map (clampOutcome (site .checking) .abc angleBlock)
      = [.candidate .v1 .normal, .candidate .v3 .reversed, .candidate .v2 .normal]
    ∧ candidatesOf (site .checking) .abc angleBlock 800 = [⟨.v2, .normal, 400⟩, ⟨.v3, .reversed, 200⟩]
    ∧ (clampOutcome { site .checking with map := (site .checking).map.set .i1 ⟨.l1, 23001, false, .unknown, false⟩ } .abc
        angleBlock .i1 = .lowCurrent)
    ∧ (outcomeOf [⟨.v1, .normal, 200⟩, ⟨.v2, .normal, 300⟩] = .candidate .v1 .normal
      ∧ outcomeOf [⟨.v1, .normal, 200⟩, ⟨.v2, .normal, 299⟩] = .twoCandidates)
    ∧ (associationOf [.candidate .v1 .normal, .noCandidate, .twoCandidates] = .noCandidate
      ∧ associationOf [.twoCandidates, .noCandidate, .lowCurrent] = .lowCurrent
      ∧ associationOf [.candidate .v1 .normal, .candidate .v1 .reversed] = .unstable) := by
  refine ⟨by decide +kernel, fun i => ?_, fun i => ?_, by decide +kernel, by decide +kernel, by decide +kernel,
    by decide +kernel, by decide +kernel, by decide +kernel⟩ <;> cases i <;> decide +kernel

/-- The site of the worked example, with Auto-Correct, and the clamps' associations there. -/
def example21 : Site := { site .checking with options := ⟨true, false, .off, 0, false⟩ }

def associations21 : PerInput (Option Association) := ⟨none, none, none, none, some (.associated .v1 .normal),
  some (.associated .v3 .reversed), some (.associated .v2 .normal), none⟩

/-- The verdict of the worked example is Corrected, and Findings without Auto-Correct; a clamp I1 of Low Current
whose role I2 takes is displaced to the role left free. -/
theorem witness_findings_and_corrections :
    (let o := conclude (record associated) example21 associations21;
      verdictOf example21 o = .corrected ∧ o.map.i2.role = .l3 ∧ o.map.i2.invert = true ∧ o.map.i3.role = .l2
      ∧ (o.findings.get .i2).otherPhase = true ∧ (o.findings.get .i2).reversed = true)
    ∧ (verdictOf (site .checking) (conclude (record associated) (site .checking) associations21) = .findings
      ∧ (conclude (record associated) (site .checking) associations21).map = (site .checking).map)
    ∧ (let a := { associations21 with i1 := some .lowCurrent, i2 := some (.associated .v1 .normal), i3 := none }
      let o := conclude (record associated) example21 a
      o.map.i1.role = .l2 ∧ o.map.i2.role = .l1 ∧ o.displaced.i1 = true ∧ verdictOf example21 o = .findings)
    ∧ (conclude { record associated with rotation := .acb } example21 (PerInput.same none)).map.v2.role = .l3 := by
  decide +kernel

theorem witness_SetClockSetsTheClock : (4294967295 ≤ 4294967295 ∧ 999 ≤ 999 ∧ 999 < 1000)
    ∧ (∀ k x, (withSite .ready).site k = some x → x.state.isLive = false)
    ∧ (∃ x, surveying.site 0 = some x ∧ x.state.isLive = true)
    ∧ (filled 0).device.state.exhausted = false ∧ (filled (524288 - 48)).store.total + 48 ≤ 524288
    ∧ 524288 < (filled (524289 - 48)).store.total + 48 ∧ (site .drafted).state.isLive = false := by
  refine ⟨by decide, fun k x h => ?_, ⟨slot0 surveying, by decide +kernel, by decide +kernel⟩, by decide +kernel,
    by decide +kernel, by decide +kernel, by decide +kernel⟩
  have : ∀ k : Fin 8, ((withSite .ready).site k).map (·.state.isLive) ≠ some true := by decide +kernel
  have := this k
  rw [h] at this
  simpa using this

/-- Every tracker collects. -/
def fullTrackers : State := { surveying with sag := { surveying.sag with
  trackers := Vector.replicate 4 (some ⟨.snapshot, 7, 0, 1, Time.zero, 1, Stamp.zero, 0⟩) } }

/-- Tracker 0 collects, the others are Free. -/
def oneTracker : State := { surveying with sag := { surveying.sag with
  trackers := surveying.sag.trackers.set 0 (some ⟨.snapshot, 7, 0, 1, Time.zero, 1, Stamp.zero, 0⟩) } }

theorem witness_SnapshotsAndNotesAreTaken :
    (Holds surveying 7 0 (slot0 surveying) ∧ (slot0 surveying).state = .surveying
      ∧ surveying.sag.trackers[(0 : Fin 4)] = none)
    ∧ (Holds oneTracker 7 0 (slot0 oneTracker) ∧ oneTracker.sag.trackers[(1 : Fin 4)] = none
      ∧ ∀ j : Fin 4, j < 1 → oneTracker.sag.trackers[j] ≠ none)
    ∧ (Holds paused 7 0 (slot0 paused) ∧ (slot0 paused).state = .paused)
    ∧ (Holds fullTrackers 7 0 (slot0 fullTrackers) ∧ ∀ f : Fin 4, fullTrackers.sag.trackers[f] ≠ none)
    ∧ (Holds checking 7 0 (slot0 checking) ∧ (slot0 checking).returnState ≠ some .paused
      ∧ Holds (withSite .closed) 7 0 (site .closed))
    ∧ (note.textLength ≤ 480 ∧ note.textLength ≤ note.text.length ∧ (surveying.siteOf note.label).isSome = true)
    ∧ (dipping.siteOf 7 = some (slot0 dipping) ∧ 1 < (slot0 dipping).sag.nextEvent)
    ∧ (480 ≤ (List.replicate 480 (32 : Byte)).length ∧ 480 < 481 ∧ note.text.length < 3)
    ∧ (spent.exhausted = true ∧ (holding { site .drafted with journal := spent }).siteOf 7
        = some { site .drafted with journal := spent }) := by decide +kernel

/-- The anchor of a note by an open event, a last closed one and the clock (R108). -/
def anchorBy (o : Nat) (c : Option LastClosed) (now : Time) : Anchor :=
  State.autoAnchor { holding { site .ready with
    openEvent := o, sag := { (site .ready).sag with lastClosed := c } } with clock := now } 7

theorem witness_auto_anchors :
    (anchorBy 3 none ⟨9, 0, false⟩ = .openEvent 3 ∧ anchorBy 0 none ⟨9, 0, false⟩ = .none
      ∧ anchorBy 0 (some ⟨2, ⟨10, 0, false⟩⟩) ⟨70, 0, false⟩ = .recentEvent 2
      ∧ anchorBy 0 (some ⟨2, ⟨10, 0, false⟩⟩) ⟨70, 1, false⟩ = .none
      ∧ anchorBy 0 (some ⟨2, ⟨10, 0, false⟩⟩) ⟨9, 0, false⟩ = .recentEvent 2)
    ∧ (withSite .closed).siteOf 7 = some (site .closed) ∧ running.siteOf 7 = none := by decide +kernel

theorem witness_notes_of_no_site : ∀ k x, running.site k = some x → x.label ≠ note.label :=
  no_label _ _ (by decide +kernel)

/-! ### The record store -/

theorem witness_StoreOrdersAreTaken :
    (pad4 1 + 4 ≤ 8 ∧ 7 < pad4 1 + 4 ∧ pad4 64 + 4 ≤ 68 ∧ 67 < pad4 64 + 4 ∧ 64 < 65) ∧ 87 < 88
    ∧ ((∀ st : Stream, (⟨⟨60, 0, 60, 60⟩, 255, 100⟩ : StoreLevels).hold.get st ≤ 60)
      ∧ 60 < (⟨⟨60, 0, 61, 60⟩, 255, 100⟩ : StoreLevels).hold.get .journal ∧ 255 < 256 ∧ 100 < 101)
    ∧ (running.lp.pageSound (ref 8200) true = false ∧ running.lp.pageSound (ref 65536) true = false)
    ∧ (ref 8192 ≠ WRef.null ∧ running.lp.pageSound (ref 8192) true = true ∧ ref 57344 ≠ WRef.null
      ∧ running.lp.pageSound (ref 57344) true = true ∧ running.lp.bus (ref 57344) = 122880)
    ∧ (let at_ (f : RecordStore → RecordStore) : RecordStore := f RecordStore.reset
      let p : Page := ⟨ref 57344, 122880⟩
      let held (r : RecordStore) := holdsPage r.pool p || holdsPage r.waiting p || r.inFlight p
      held (at_ fun r => { r with pool := [p] }) = true ∧ held (at_ fun r => { r with waiting := [p] }) = true
      ∧ held delivering.store = false
      ∧ (at_ fun r => { r with tails := r.tails.set .events (some p) }).isTail p = true
      ∧ (at_ fun r => { r with pins := [⟨p, 1⟩] }).pinned p = true
      ∧ (at_ fun r => { r with pins := [⟨p, 1⟩] }).waiting.length < 64
      ∧ 256 ≤ (at_ fun r => { r with pool := List.replicate 256 ⟨ref 0, 65536⟩ }).pool.length
      ∧ holdsPage (at_ fun r => { r with pool := List.replicate 256 ⟨ref 0, 65536⟩ }).pool p = false) := by
  refine ⟨by decide +kernel, by decide, ⟨fun st => by cases st <;> decide, by decide +kernel⟩, by decide +kernel,
    by decide +kernel, by decide +kernel⟩

/-- Two pages of one order: the second naming of a page is Duplicate (R125). -/
theorem test_pages_are_judged_in_order :
    (running.judgePages [ref 8192, ref 8192, ref 8200, ref 0]).2 = [.accepted, .duplicate, .badReference, .badReference]
    ∧ (running.judgePages [ref 8192, ref 16384]).1.store.pool.map (·.bus) = [73728, 81920] := by decide +kernel

theorem witness_DeliveriesStart : pooled.canDeliver .journal = true ∧ pooled.store.pool = [⟨ref 8192, 73728⟩]
    ∧ pooled.store.levels.pagesLow ≤ 8
    ∧ (({ pooled with store := { pooled.store with queues := surveying.store.queues } }.elapse 2000).headWaited .journal
        = true)
    ∧ (({ pooled with store := { pooled.store with queues := surveying.store.queues } }.elapse 1999).headWaited .journal
        = false)
    ∧ (pooled.canDeliver .events = false ∧ (running.elapse 5).headWaited .journal = false) := by decide +kernel

def headerWriting : State := after (.pageWriteDone 1 .journal) delivering

theorem witness_DeliveriesRunToPublication :
    delivering.store.deliveries.journal.map (·.stage) = some .records
    ∧ headerWriting.store.deliveries.journal.map (·.stage) = some .header ∧ headerWriting.store.tails.get .journal = none
    ∧ ({ headerWriting with store := { headerWriting.store with
        tails := headerWriting.store.tails.set .journal (some ⟨ref 12288, 77824⟩) } }).store.tails.get .journal
      = some ⟨ref 12288, 77824⟩
    ∧ linking.store.deliveries.journal.map (·.stage) = some .link := by decide +kernel

/-! ### The Print Engine -/

/-- The first job of the print queue. -/
def job (s : State) : Job := (s.print.jobs.head?).getD (Job.fresh 0 .order 1 [] [] [] 0 Time.zero)

/-- The print queue with a number of jobs. -/
def jobs (n : Nat) (s : State) : State := { s with print := { s.print with
  jobs := (List.range n).map fun k => Job.fresh (k + 1) .order 1 [.rule] [] [] 0 Time.zero } }

def raws (b : QueuePrintBody) : List RawItem := ((splitItems b.itemCount b.items).bind parseItems).getD []

def pagesOf (b : QueuePrintBody) : List Page := distinctPages ((raws b).flatMap (RawItem.page running.lp))

def grant (s : State) (b : QueuePrintBody) : Option ResultCode :=
  match s.store.requestPins (pagesOf b) with
  | .ok _ => none
  | .error c => some c

/-- The page of `noteJob`. -/
def notePage : Page := ⟨ref 16384, 81920⟩

/-- A Note item whose page reference is not aligned. -/
def strayNote : List Byte := [5, 16, 0, 0, 0, 0, 64, 0] ++ refBytes (ref 4)

theorem witness_PrintOrdersAreTaken :
    (([ruleJob, { ruleJob with copies := 9 }, noteJob, ⟨1, 32, (List.replicate 32 [8, 4, 0, 0]).flatten⟩] :
      List QueuePrintBody).all fun b => (splitItems b.itemCount b.items).isSome
        && ((splitItems b.itemCount b.items).bind parseItems).isSome && (raws b).all (fun i => i.label == 0)
        && (raws b).all (fun i => i.refOk running.lp)) = true
    ∧ ((jobs 7 running).print.jobs.length < 8 ∧ 8 ≤ (jobs 8 running).print.jobs.length)
    ∧ (grant running noteJob = none
      ∧ grant { running with store := { running.store with pool := [notePage] } } noteJob = some .freePage
      ∧ grant { running with store := { running.store with pins := List.replicate 64 ⟨⟨ref 0, 65536⟩, 1⟩ } } noteJob
        = some .pinTableFull)
    ∧ (splitItems 1 [8, 5, 0, 0] = none ∧ splitItems 1 [8, 4, 0, 0] = some [[8, 4, 0, 0]] ∧ 9 < 10 ∧ 32 < 33
      ∧ parseItems [[9, 4, 0, 0]] = none)
    ∧ (splitItems 1 [1, 8, 0, 0, 7, 0, 0, 0] = some [[1, 8, 0, 0, 7, 0, 0, 0]]
      ∧ parseItems [[1, 8, 0, 0, 7, 0, 0, 0]] = some [.sited 7 (.siteHeader 7 false)] ∧ running.findSlot 7 = none
      ∧ (withSite .ready).findSlot 7 = some 0
      ∧ 7 ∈ distinctSites ([RawItem.sited 7 (.siteHeader 7 false)].map RawItem.label))
    ∧ (splitItems 1 strayNote = some [strayNote] ∧ parseItems [strayNote] = some [.paged ⟨0, 64, ref 4⟩ none 5]
      ∧ (RawItem.paged ⟨0, 64, ref 4⟩ none 5).refOk running.lp = false)
    ∧ (∀ j, j ∈ running.print.jobs → j.number ≠ 1)
    ∧ (printing.print.jobs.find? (fun k => k.number == 1) = some (job printing) ∧ (job printing).state = .printing
      ∧ printing.print.frame.isSome = true)
    ∧ (queued1.print.jobs.find? (fun k => k.number == 1) = some (job queued1) ∧ (job queued1).state ≠ .printing) := by
  decide +kernel

/-- The pins of a request for two pages beside entries of one page with two pins. -/
def pinsAfter (entries : Nat) : Option (List PinEntry) :=
  match { RecordStore.reset with pins := List.replicate entries ⟨⟨ref 0, 65536⟩, 2⟩ }.requestPins
    [⟨ref 0, 65536⟩, notePage] with
  | .ok m => some m.pins
  | .error _ => none

theorem witness_pin_requests : pinsAfter 1 = some [⟨⟨ref 0, 65536⟩, 3⟩, ⟨notePage, 1⟩]
    ∧ (pinsAfter 63).isSome = true ∧ pinsAfter 64 = none
    ∧ ([(⟨ref 0, 65536⟩ : Page), notePage].map Page.bus).Nodup := by decide +kernel

/-- Items at the ends of their ranges (R139). -/
theorem witness_item_ranges :
    ([[0, 4, 0, 0], [0, 124, 120, 0] ++ zeros 120, [2, 8, 1, 0, 1, 0, 0, 0], [2, 8, 32, 0, 255, 255, 0, 0],
      [4, 16, 0, 0, 1, 0, 64, 0] ++ zeros 8, [6, 16, 7, 0, 1, 0, 240, 31] ++ zeros 8, [7, 4, 20, 0], [8, 4, 9, 9]] :
        List (List Byte)).all (fun e => (parseItem e).isSome) = true
    ∧ ([[0, 128, 121, 0] ++ zeros 124, [1, 8, 0, 0, 0, 0, 0, 0], [2, 8, 33, 0, 1, 0, 0, 0], [3, 0, 0, 0],
      [4, 16, 0, 0, 0, 0, 64, 0] ++ zeros 8, [5, 16, 0, 0, 0, 0, 60, 0] ++ zeros 8, [5, 16, 0, 0, 0, 0, 66, 0] ++ zeros 8,
      [6, 16, 8, 0, 1, 0, 64, 0] ++ zeros 8, [7, 4, 21, 0], [8, 5, 0, 0, 0]] : List (List Byte)).all
        (fun e => (parseItem e).isNone) = true
    ∧ ([8176, 8180].map fun o => (RawItem.paged ⟨1, o, ref 8192⟩ none 4).refOk running.lp) = [true, false] := by
  decide +kernel

/-- A job on the site in slot 0, with a page. -/
def siteJob : Job := Job.fresh 1 .slip 1 [.rule] [7] [notePage] 1 Time.zero

theorem witness_JobsEndWhole : (withSite .ready).site 0 = some (site .ready) ∧ siteJob.sites = [(site .ready).label]
    ∧ (withSite .ready).findSlot (site .ready).label = some 0 ∧ (withSite .ready).device.state.exhausted = false
    ∧ (filled (524288 - 48)).store.total + 48 ≤ 524288
    ∧ (let r := { RecordStore.reset with waiting := [notePage] }
      r.pinned notePage = false ∧ r.pool.length < 256 ∧ r.releaseWaiting.pool = [notePage]
        ∧ { r with pins := [⟨notePage, 1⟩] }.pinned notePage = true) := by decide +kernel

theorem witness_SetPrinterSetsTheTimeout : (2 ≤ 2 ∧ 2 ≤ 60) ∧ (2 ≤ 60 ∧ 60 ≤ 60) ∧ 1 < 2 ∧ 60 < 61 := by decide

theorem witness_ThePrinterLineFollowsItsTable :
    let p : PrintEngine := running.print
    (PrintEngine.reset.judged = false ∧ { p with present := false }.present = false)
    ∧ (p.judged = true ∧ p.present = true ∧ p.paperOut = false ∧ p.paperHold = none ∧ p.headHot = false
      ∧ p.heatHold = none ∧ p.stall = none ∧ p.frame = none ∧ p.busy = false)
    ∧ (printing.print.frame.isSome = true ∧ stalled.print.stall.isSome = true ∧ paperBack.print.paperHold.isSome = true)
    ∧ ({ p with busy := true }.judge = .stalled ∧ { p with busy := true, line := .heldPaper }.judge = .heldPaper
      ∧ { p with busy := true, line := .heldHeat }.judge = .heldHeat) := by decide +kernel

def frame (s : State) : Frame := s.print.frame.getD ⟨[], 0, false⟩

/-- Busy is high on the first byte of the rule's frame. -/
def risen : State := after (.busyRise 1) printing

/-- Busy is high on its last byte. -/
def lastByte : State := { risen with print := { risen.print with
  frame := risen.print.frame.map fun f => { f with bytes := [10] } } }

theorem witness_BusyMovesTheFrame :
    (printing.print.frame = some (frame printing) ∧ printing.print.judged = true ∧ printing.print.busy = false)
    ∧ (risen.print.frame = some (frame risen) ∧ risen.print.busy = true
      ∧ (frame risen).bytes.head? = some 16 ∧ 2 ≤ (frame risen).bytes.length)
    ∧ (lastByte.print.frame = some (frame lastByte) ∧ lastByte.print.busy = true ∧ lastByte.print.judged = true
      ∧ (frame lastByte).bytes = [10] ∧ (frame lastByte).abandoned = false
      ∧ lastByte.print.current = some (job lastByte))
    ∧ (running.print.frame = none ∧ running.print.busy = false ∧ { running.print with busy := true }.judge = .stalled)
    ∧ (let s : State := after (.busyRise 1) running
      s.print.frame = none ∧ s.print.busy = true ∧ { s.print with busy := false }.judge = .ready
        ∧ { s.print with busy := false, paperOut := true }.judge ≠ .ready)
    ∧ (let s := after (.stop 0) lastByte
      s.print.frame = some (frame s) ∧ (frame s).bytes = [10] ∧ (frame s).abandoned = true ∧ s.print.busy = true
        ∧ s.print.judged = true ∧ s.print.jobs = [])
    ∧ (job printing).advance = none ∧ (job printing).cancelPending = false ∧ (job printing).copies ≤ (job printing).copy
    ∧ ({ job printing with copies := 9 }.copy < { job printing with copies := 9 }.copies)
    ∧ ({ job printing with items := [.rule, .rule] }.advance).isSome = true := by decide +kernel

theorem witness_SignalsStopThePrinter :
    (printing.print.paperOut = false ∧ printing.print.headHot = false ∧ printing.print.present = true
      ∧ printing.print.frame = some (frame printing) ∧ (frame printing).abandoned = false
      ∧ printing.print.current = some (job printing) ∧ (job printing).cancelPending = false
      ∧ printing.print.judged = true ∧ printing.print.paperHold = none
      ∧ ∀ k, k ∈ printing.print.jobs → k.number = (job printing).number → k = job printing)
    ∧ (after (.paperOutChange 0 true) printing).print.paperOut = true
    ∧ (after (.headHotChange 0 true) printing).print.headHot = true ∧ State.reset.print.present = false
    ∧ (paperBack.print.paperHold = some 2 ∧ 2 + 1000 ≤ paperBack.up + 1000)
    ∧ (after (.headHotChange 1 false) (after (.headHotChange 1 true) printing)).print.heatHold = some 2 := by
  decide +kernel

theorem witness_StallsAreDeclaredAndCleared :
    (printing.print.frame = some (frame printing) ∧ (frame printing).abandoned = false
      ∧ (frame printing).timer + printing.print.timeout * 1000 ≤ printing.up + 10000
      ∧ printing.print.paperOut = false ∧ printing.print.headHot = false ∧ printing.print.present = true
      ∧ printing.print.judged = true ∧ printing.print.paperHold = none ∧ printing.print.heatHold = none
      ∧ printing.print.current = some (job printing) ∧ (job printing).state = .printing)
    ∧ stalled.print.stall = some ⟨true, 10000⟩ ∧ 10000 + 1000 ≤ stalled.up + 1000 := by decide +kernel

/-- The Note job is queued. -/
def noteQueued : State := walking .idle (after (.queuePrint noteJob 4) (offering (.queuePrint noteJob 4) running))

theorem witness_JobsStartOnAReadyLine :
    (queued1.print.line = .ready ∧ queued1.print.jobs = [job queued1] ∧ (job queued1).state = .queued
      ∧ (job queued1).items[(job queued1).item - 1]? = some .rule ∧ (job queued1).content = none
      ∧ (job queued1).line = 1 ∧ queued1.print.read = none ∧ queued1.print.frame = none ∧ Item.rule.source = none
      ∧ queued1.itemLines .rule = [ruleLine])
    ∧ (noteQueued.print.line = .ready ∧ noteQueued.print.jobs = [job noteQueued] ∧ (job noteQueued).state = .queued
      ∧ (job noteQueued).items[0]? = some (.note 0 notePage 64)
      ∧ (Item.note 0 notePage 64).source.isSome = true ∧ noteQueued.linkOpen = true
      ∧ { noteQueued with lp := away.lp }.linkOpen = false) := by decide +kernel

/-- A record of 32 bytes in the journal: a Note of the device whose rest is read next. -/
def noteHeader : List Byte :=
  (Record.journal ⟨0, 1, Time.zero, false, false, 0, .none, 255, .note (ascii "OK")⟩).bytes.take 16

def readingRest : State := after (.recordReadDone 1 noteHeader) readingRecord

theorem witness_RecordReadsGiveTheirLines :
    readingRecord.print.read.map (·.stage) = some .header ∧ readingRecord.print.current = some (job readingRecord)
    ∧ (job readingRecord).items[(job readingRecord).item - 1]? = some (.note 0 notePage 64)
    ∧ (noteHeader.length = 16 ∧ headerFound (.note 0 notePage 64) noteHeader = true ∧ field noteHeader 0 2 ≠ 16)
    ∧ headerFound (.note 0 notePage 64) (zeros 16) = false
    ∧ headerFound (.note 0 notePage 64) ([16, 0] ++ noteHeader.drop 2) = true
    ∧ (readingRest.print.read.map (·.stage) = some (.rest noteHeader) ∧ readingRest.print.current = some (job readingRest)
      ∧ (zeros (field noteHeader 0 2 - 16)).length = field noteHeader 0 2 - 16) := by decide +kernel

/-! ### The Van Line Unit -/

def newSettings : VanLine → EdgeSense × LineAction
  | .ignition => (.rising, .journal)
  | .mark => (.falling, .journal)
  | .door => (.both, .journal)
  | .aux => (.none, .none)

theorem witness_SetVanLinesReplacesTheSettings :
    (∀ l, parseSense (settings.get l).sense = some (newSettings l).1
      ∧ parseAction (settings.get l).action = some (newSettings l).2)
    ∧ (newSettings .mark).2 ≠ .pauseLiveSite ∧ (12 ≤ 12 ∧ 11 < 12)
    ∧ (parseSense 3 = none ∧ parseAction 3 = none ∧ parseAction 1 = some .pauseLiveSite) := by
  refine ⟨fun l => by cases l <;> decide +kernel, by decide, by decide, by decide +kernel⟩

/-- A change of the ignition pends since 5 ms after `lined`. -/
def pendingChange : State := after (.vanLineChange 5 .ignition .high) lined

theorem witness_VanLinesAreDebounced :
    (lined.van.lines.ignition.settling = none ∧ Level.high ≠ lined.van.lines.ignition.raw)
    ∧ (running.van.lines.ignition.settling = some 0 ∧ Level.high ≠ running.van.lines.ignition.raw
      ∧ 0 + 20 ≤ running.up + 20)
    ∧ (pendingChange.van.lines.ignition.settling = none
      ∧ pendingChange.van.lines.ignition.pendingChange = some ⟨⟨0, 25, true⟩, 25⟩ ∧ 25 + 20 ≤ pendingChange.up + 20
      ∧ pendingChange.lp.part = .running
      ∧ edgeMatches pendingChange.van.lines.ignition.sense (edgeTo pendingChange.van.lines.ignition.raw) = true)
    ∧ edgeMatches .falling (edgeTo .high) = false ∧ running.liveSlot = none
    ∧ (resting.lp.part = .resting ∧ resting.van.rest.map (·.exit) = some none
      ∧ (after (.back 0) resting).van.rest.map (·.exit.isSome) = some true)
    ∧ (Live surveying 0 (slot0 surveying) ∧ (slot0 surveying).state = .surveying)
    ∧ (Live paused 0 (slot0 paused) ∧ (slot0 paused).state ≠ .surveying) := by decide +kernel

theorem witness_DeparturesAndTheWakeDelay :
    (running.liveSlot = none ∧ running.print.jobs = []) ∧ surveying.liveSlot ≠ none ∧ queued1.print.jobs ≠ []
    ∧ ((departing .away).lp.departure = some ⟨.away, Stamp.zero⟩ ∧ (departing .rest).lp.departure = some ⟨.rest, Stamp.zero⟩
      ∧ (departing .away).lp.walker = .stopped ∧ (departing .away).lp.link = .attended
      ∧ (departing .away).print.read = none ∧ ∀ st, (departing .away).store.deliveries.get st = none)
    ∧ ((delivering.store.deliveries.get .journal).isSome = true ∧ readingRecord.print.read.isSome = true)
    ∧ ((after (.back 0) resting).lp.part = .resting
      ∧ (after (.back 0) resting).van.rest = some ⟨Stamp.zero, some ⟨.back, Stamp.zero, false⟩⟩
      ∧ 0 + 50 ≤ (after (.back 0) resting).up + 50 ∧ (after (.back 0) resting).up + 49 < 0 + 50
      ∧ (after (.back 0) resting).lp.link = .away ∧ (after (.back 0) resting).lp.awaySince = some Stamp.zero)
    ∧ (after (.back 0) (after (.stop 0) resting)).lp.link = .idle := by
  refine ⟨by decide +kernel, by decide +kernel, by decide +kernel, ⟨by decide +kernel, by decide +kernel,
    by decide +kernel, by decide +kernel, by decide +kernel, fun st => by cases st <;> decide +kernel⟩,
    by decide +kernel, by decide +kernel, by decide +kernel⟩

/-! ### The Front End -/

/-- The survey's cycle clock has been Locked since the cycle's start, with crossings at 19.99 and 20.5 ms, and
the cycle is whole. -/
def lockedCycle : State := { wholeCycle with fe := { wholeCycle.fe with
  clock := .locked, good := 5, cycleLocked := true, crossings := [⟨19990000, some 50025⟩, ⟨20500000, some 50000⟩] } }

/-- The same cycle with another frequency at its boundary. -/
def stamped (q : Nat) : FrontEnd := { lockedCycle.fe with crossings := [⟨19990000, some q⟩] }

theorem witness_TheCycleClockFollowsItsTable :
    (Live wholeCycle 0 (slot0 wholeCycle) ∧ wholeCycle.fe.clock = .seeking ∧ wholeCycle.fe.halvesInCycle = 2
      ∧ wholeCycle.fe.cyclesInBlock < blockCycles (slot0 wholeCycle).frequency
      ∧ wholeCycle.fe.cycleEnd (slot0 wholeCycle) = (20000000, true) ∧ wholeCycle.fe.ring.length ≤ 16
      ∧ 20000000 / 1000000 ≤ wholeCycle.up + 20 ∧ wholeCycle.up + 19 < 20000000 / 1000000
      ∧ wholeCycle.fe.waves.get .v1 = [])
    ∧ (Live lockedCycle 0 (slot0 lockedCycle) ∧ lockedCycle.fe.clock = .locked ∧ lockedCycle.fe.cycleLocked = true
      ∧ lockedCycle.fe.cycleEnd (slot0 lockedCycle) = (19990000, true)
      ∧ lockedCycle.fe.goodBy (slot0 lockedCycle) 19990000 = true)
    ∧ ((stamped 44999).cycleEnd (slot0 lockedCycle) = (20000000, false)
      ∧ { lockedCycle.fe with crossings := [] }.cycleEnd (slot0 lockedCycle) = (20000000, false))
    ∧ ([44999, 55001].all fun q => !((stamped q).goodBy (slot0 lockedCycle) 19990000)) = true
    ∧ ([45000, 55000].all fun q => (stamped q).goodBy (slot0 lockedCycle) 19990000) = true
    ∧ ([54000, 66000].all fun q => (stamped q).goodBy { slot0 lockedCycle with frequency := 60 } 19990000) = true
    ∧ { lockedCycle.fe with cycleSquares := PerInput.same 0 }.goodBy (slot0 lockedCycle) 19990000 = false
    ∧ (lockedCycle.fe.measuredBy 19999999 = some 50025 ∧ lockedCycle.fe.measuredBy 20500000 = some 50000)
    ∧ (surveying.fe.clock ≠ .stopped ∧ surveying.fe.reference.isSome = true ∧ surveying.fe.lastCrossing = none
      ∧ FrontEnd.reset.clock = .stopped ∧ wholeCycle.fe.lastCrossing = some 1000000
      ∧ 1000000 < (wholeCycle.up + 1) * 1000000 + 1 ∧ (wholeCycle.up + 1) * 1000000 + 0 ≤ 1000000)
    ∧ ((after (.cycleEnd 20) wholeCycle).fe.good = 5 ∧ (after (.cycleEnd 20) wholeCycle).fe.clock = .seeking)
    ∧ (slot0 wholeCycle).frequency = 50 := by decide +kernel

/-- Values below the interruption threshold. -/
def dark : PerInput (List Int) := PerInput.same (List.replicate 128 0)

/-- 4,700 counts are 235.00 V. -/
def bright : PerInput (List Int) := PerInput.same (List.replicate 128 4700)

def setOf (s : State) (samples : PerInput (List Int)) : ValueSet :=
  s.fe.valueSet (slot0 s) (fun i => (s.sag.lostAhead.get i).isSome) samples ⟨s.clock.advance 10, s.up + 10⟩

def valuesOf (s : State) (samples : PerInput (List Int)) : PerInput (Option Nat) := (setOf s samples).percents

def movedOf (s : State) (samples : PerInput (List Int)) : PerInput (Option Detector) :=
  PerInput.of (fun i => (s.sag.detectors.get i).map (Detector.move (s.detectionSet (slot0 s)) ((valuesOf s samples).get i)))

def lowOf (s : State) (samples : PerInput (List Int)) : List Input :=
  Input.voltages.filter (fun i => s.sag.detectors.get i == some .normal && (movedOf s samples).get i == some .low)

/-- The next half-cycle of an event in progress, in the second half of its cycle. -/
def eventOf (s : State) : OpenEvent :=
  s.sag.openEvent.getD ⟨0, Stamp.zero, 0, defaultLimits, 0, [], .sag, .skipped, false⟩

/-- An event whose close waits for the set. -/
def lossWaiting : State := { dipping with sag := { dipping.sag with
  openEvent := some { eventOf dipping with lossWaits := true } } }

/-- V3 has not joined the event yet. -/
def joining : State := { dipping with sag := { dipping.sag with
  openEvent := some { eventOf dipping with members := (eventOf dipping).members.take 2 }
  detectors := dipping.sag.detectors.set .v3 (some .normal) } }

/-- V1 is dark while the others are bright. -/
def oneDark : PerInput (List Int) := bright.set .v1 (List.replicate 128 0)

theorem witness_HalfCyclesMoveDetectorsAndLeadWatch :
    (Live normal 0 (slot0 normal) ∧ (slot0 normal).state = .surveying ∧ normal.fe.clock ≠ .stopped
      ∧ normal.fe.halvesInCycle < 2 ∧ normal.fe.cyclesInBlock < blockCycles (slot0 normal).frequency)
    ∧ (normal.sag.openEvent = none ∧ lowOf normal bright = [] ∧ lowOf normal samples = [.v1, .v2, .v3])
    ∧ allInterrupted (slot0 normal).active (valuesOf normal dark) = true
    ∧ allInterrupted (slot0 normal).active (valuesOf normal samples) = false
    ∧ ((setOf normal bright).values.get .v1 = some ⟨.l1, 23500, 10217⟩ ∧ (setOf normal bright).values.get .v4 = none)
    ∧ (Live dipping 0 (slot0 dipping) ∧ (slot0 dipping).state = .surveying ∧ dipping.fe.halvesInCycle < 2
      ∧ dipping.sag.openEvent = some (eventOf dipping) ∧ (eventOf dipping).lossWaits = false)
    ∧ (eventOf dipping).members.any (fun m => (movedOf dipping dark).get m.input == some .low) = true
    ∧ (Live joining 0 (slot0 joining) ∧ joining.sag.openEvent = some (eventOf joining)
      ∧ lowOf joining dark = [.v3])
    ∧ ((eventOf dipping).members.any (fun m => (movedOf dipping bright).get m.input == some .low) = false
      ∧ lowOf dipping bright = [])
    ∧ (Live lossWaiting 0 (slot0 lossWaiting) ∧ lossWaiting.sag.openEvent = some (eventOf lossWaiting)
      ∧ (eventOf lossWaiting).lossWaits = true ∧ lowOf lossWaiting bright = []
      ∧ (eventOf lossWaiting).members.any (fun m => (movedOf lossWaiting bright).get m.input == some .low) = false)
    ∧ (Live paused 0 (slot0 paused) ∧ (slot0 paused).state ≠ .surveying ∧ paused.fe.clock ≠ .stopped
      ∧ paused.fe.halvesInCycle < 2) ∧ 499 < 500 ∧ 500 ≤ 500
    ∧ (let m := (slot0 normal).map
      let measures := presenceMeasures m 230 oneDark
      measures.get .v1 = some 0 ∧ isLVoltage m .v1 = true ∧ measures.get .i1 = none ∧ isLVoltage m .v4 = false
      ∧ supportsLoss m 9000 measures .v1 = true ∧ supportsLoss m 9000 (presenceMeasures m 230 dark) .v1 = false)
    ∧ (let w : LeadState := ⟨.doubtful, some Stamp.zero, none, none, none, 0⟩
      (w.judge 3 ⟨Time.zero, 30000⟩).due = some 3 ∧ (w.judge 3 ⟨Time.zero, 29999⟩).due = none
      ∧ ({ w with run := none }.judge 3 ⟨Time.zero, 30000⟩).due = none) := by decide +kernel

/-- A whole block of a site that is checked in Rotation: every voltage input has the same 230 V cosine as
fundamental, which gives no pattern, and the block ends the check. -/
def lockedBlock : State := { rotated with fe := { rotated.fe with
  cyclesInBlock := 10, lockedCycles := 10, clock := .locked, frequencies := List.replicate 10 50000
  waves := PerInput.of fun i => if i.isVoltage then (cosWave 1).map fun c => c * 325270 / 2 ^ 48 else []
  reference := some .v1 } }

/-- A block of the check that began before its phase does not count. -/
def earlyBlock : State := { lockedBlock with check := lockedBlock.check.map fun c => { c with phaseStart := ⟨Time.zero, 1⟩ } }

/-- Its run is not complete yet. -/
def running4 (s : State) : State := { s with check := s.check.map fun c => { c with run := 0, runPattern := none } }

def blockOf (s : State) : BlockResult := s.fe.blockResult (slot0 s)

theorem witness_BlocksEndAndPulseTheClamps :
    (Live wholeBlock 0 (slot0 wholeBlock) ∧ wholeBlock.fe.clock ≠ .stopped
      ∧ wholeBlock.fe.cyclesInBlock = blockCycles (slot0 wholeBlock).frequency ∧ wholeBlock.check = none)
    ∧ (Live (running4 lockedBlock) 0 (slot0 (running4 lockedBlock)) ∧ Checks (running4 lockedBlock)
      ∧ (running4 lockedBlock).fe.cyclesInBlock = 10
      ∧ ((record (running4 lockedBlock)).takeBlock (slot0 (running4 lockedBlock)) (blockOf (running4 lockedBlock))
        lockedBlock.fe.blockStart lockedBlock.fe.cycleStart).rotation = .indeterminate)
    ∧ (Checks (running4 earlyBlock) ∧ ((record (running4 earlyBlock)).takeBlock (slot0 earlyBlock)
        (blockOf earlyBlock) earlyBlock.fe.blockStart earlyBlock.fe.cycleStart).rotation ≠ .indeterminate)
    ∧ (lockedBlock.fe.lockedCycles = lockedBlock.fe.cyclesInBlock ∧ lockedBlock.fe.frequencies ≠ [])
    ∧ wholeBlock.fe.lockedCycles ≠ wholeBlock.fe.cyclesInBlock
    ∧ (lockedBlock.fe.noFundamental (slot0 lockedBlock) .v1 = false
      ∧ lockedBlock.fe.noFundamental (slot0 lockedBlock) .i1 = true ∧ lockedBlock.fe.reference = some .v1
      ∧ lockedBlock.fe.fundamentalRms .v1 = 23000 ∧ ((blockOf lockedBlock).results.get .v2).map (·.angle) = some (some 0)
      ∧ { lockedBlock.fe with reference := none }.reference = none)
    ∧ ([199, 200, 900, 901].map (classify none)) = [.opened, .fitted, .fitted, .short]
    ∧ ([249, 250, 900, 901].map (classify (some .opened))) = [.opened, .fitted, .fitted, .short]
    ∧ ([199, 200, 849, 850].map (classify (some .short))) = [.opened, .fitted, .fitted, .short] := by decide +kernel

/-- A clamp in lead watch, with an open time and a confirm time. -/
def clamp (st : LeadStatus) : LeadState := ⟨st, some ⟨Time.zero, 100⟩, none, some ⟨Time.zero, 50⟩, none, 0⟩

theorem witness_clamps : ([LeadStatus.present, .doubtful, .lost, .returning].map fun st =>
      (((clamp st).sense .opened 7 ⟨Time.zero, 300⟩).status, ((clamp st).sense .short 7 ⟨Time.zero, 300⟩).status))
        = [(.doubtful, .present), (.doubtful, .present), (.lost, .returning), (.lost, .returning)]
    ∧ ((clamp .present).sense .opened 7 ⟨Time.zero, 300⟩).run = some ⟨Time.zero, 300⟩
    ∧ ([10099, 10100].map fun up => ((clamp .doubtful).judge 1 ⟨Time.zero, up⟩).due) = [none, some 1]
    ∧ (((clamp .present).sense .opened 7 ⟨Time.zero, 300⟩).judge 0 ⟨Time.zero, 300⟩).due = some 0
    ∧ Input.v1.isVoltage = true ∧ Input.i1.isVoltage = false ∧ wholeBlock.fe.sense.get none .v1 = none := by decide +kernel

/-- The interval of a survey. -/
def intervalOf (s : State) : Interval := s.interval.getD (Interval.opened 0 (site .ready) Time.zero)

/-- A block that ends at a survey time. -/
def blockAt (t : Time) : BlockResult := { blockOf wholeBlock with endTime := t }

/-- One block is held in the interval. -/
def oneHeld : State := surveying.takeBlock (blockAt ⟨0, 200, true⟩)

/-- An interval that opened at 1 h, before a wrap of the clock. -/
def lateInterval : State := { surveying with interval := surveying.interval.map fun iv =>
  { iv with start := ⟨3600, 0, true⟩, endMs := 4200000 } }

theorem witness_BlocksJoinAndCloseIntervals :
    running.interval = none
    ∧ (surveying.interval = some (intervalOf surveying) ∧ surveying.site (intervalOf surveying).slot = some (slot0 surveying)
      ∧ (intervalOf surveying).start.total ≤ (blockAt ⟨599, 999, true⟩).endTime.total
      ∧ (blockAt ⟨599, 999, true⟩).endTime.total < (intervalOf surveying).endMs
      ∧ (intervalOf surveying).endMs ≤ (blockAt ⟨600, 0, true⟩).endTime.total)
    ∧ (lateInterval.interval = some (intervalOf lateInterval)
      ∧ (blockAt ⟨0, 0, true⟩).endTime.total < (intervalOf lateInterval).start.total)
    ∧ (oneHeld.interval = some (intervalOf oneHeld)
      ∧ ((intervalOf oneHeld).judgeHeld (slot0 oneHeld).map).total ≠ 0 ∧ (slot0 oneHeld).pendingSet = none
      ∧ ((intervalOf surveying).judgeHeld (slot0 surveying).map).total = 0
      ∧ oneHeld.store.nonJournalOccupancy + (Record.interval (((intervalOf oneHeld).judgeHeld (slot0 oneHeld).map).toRecord
        (slot0 oneHeld).nextInterval .boundary (intervalOf oneHeld).endMs false)).length ≤ 491520
      ∧ oneHeld.store.total + (Record.interval (((intervalOf oneHeld).judgeHeld (slot0 oneHeld).map).toRecord
        (slot0 oneHeld).nextInterval .boundary (intervalOf oneHeld).endMs false)).length ≤ 524288) := by decide +kernel

/-- Block 1's reports: V1's detector in one state, and in another in the last half-cycle. -/
def reportsAs (d last : Detector) : List DetectorReport := (List.range 20).map fun j =>
  ⟨j + 1, (PerInput.same none).set .v1 (some (if j = 19 then last else d))⟩

/-- Block 1 of V1 with a fundamental whose second harmonic is 3 %. -/
def block1 : BlockResult := { angleBlock with
  number := 1, cycles := 10, lockedCycles := 9, frequency := none, mapChanged := false
  roles := PerInput.same .l2
  results := (PerInput.same none).set .v1 (some ⟨.l1, true, 23000, 23000, some (10000 :: 300 :: List.replicate 48 0), none⟩) }

def judgedAs (d last : Detector) : Interval := { intervalOf surveying with reports := reportsAs d last }.judge
  (slot0 surveying).map block1

theorem witness_blocks_are_judged :
    (reportsAs .normal .normal).any (fun r => r.half == 2 * block1.cycles * block1.number) = true
    ∧ ((judgedAs .normal .low).marked = 1 ∧ (judgedAs .normal .normal).marked = 0
      ∧ (judgedAs .normal (.settling 0 false)).unlocked = 1)
    ∧ (((judgedAs .normal .low).channels.v1.counted, (judgedAs .normal .low).channels.v1.harmonic) = (1, 0)
      ∧ ((judgedAs .normal .normal).channels.v1.counted, (judgedAs .normal .normal).channels.v1.thdSum) = (1, 300)
      ∧ (judgedAs .normal (.settling 0 false)).channels.v1.counted = 0
      ∧ (judgedAs .normal .normal).channels.v1.appeared = true
      ∧ (judgedAs .normal .normal).channels.v2.lost = true)
    ∧ (((judgedAs .normal .normal).toRecord 1 .boundary 600000 false).channels.map (·.input) = [.v1]
      ∧ ((judgedAs .normal .normal).channels.v1.subRecord .v1).rms = some (23000, 23000, 23000)
      ∧ ((judgedAs .normal .low).channels.v1.subRecord .v1).noHarmonics = some .allMarked)
    ∧ ((intervalOf oneHeld).held.length = 1
      ∧ ((intervalOf oneHeld).report (slot0 oneHeld).map ⟨lastHalf (blockAt ⟨0, 200, true⟩), PerInput.same none⟩).total
        = 1) := by decide +kernel

/-! ### Leads, events and captures -/

def watchOf (s : State) : LeadState := s.watch.v1.getD ⟨.present, none, none, none, none, 0⟩

/-- A survey whose leads have no holdoff: a low half-cycle that others support is a loss at once. -/
def noHoldoff : State := { surveying with sites := surveying.sites.map (Option.map fun x =>
  { x with active := { x.active with leadHoldoff := 0 } }) }

/-- V1 is Doubtful while a check runs in Presence, and in Rotation. -/
def doubtfulCheck (f : CheckRecord → CheckRecord) : State := { inPhase f with
  fe := { checking.fe with lastHalfEnd := ⟨⟨30, 0, true⟩, 30000⟩ }
  watch := checking.watch.set .v1 (some ⟨.doubtful, some Stamp.zero, some 3, none, none, 100⟩) }

theorem witness_LeadsAreDeclaredLostAndRestored :
    (Live doubtful 0 (slot0 doubtful) ∧ doubtful.watch.get .v1 = some (watchOf doubtful)
      ∧ (watchOf doubtful).status = .doubtful ∧ (watchOf doubtful).run = some Stamp.zero
      ∧ (watchOf doubtful).due = some 3 ∧ doubtful.check = none ∧ isLVoltage (slot0 doubtful).map .v1 = true)
    ∧ (let s := { doubtful with watch := doubtful.watch.set .v1 (some { watchOf doubtful with due := none }) }
      s.watch.get .v1 = some (watchOf s) ∧ (watchOf s).due = none)
    ∧ (Live (doubtfulCheck id) 0 (slot0 checking) ∧ (record (doubtfulCheck id)).phase = .presence
      ∧ (doubtfulCheck id).check = some (record (doubtfulCheck id)))
    ∧ (let s := doubtfulCheck fun c => { c with phase := .rotation }
      s.check = some (record s) ∧ (record s).phase ≠ .presence ∧ ((record s).inputs.get .v1).roleAtStart.isL = true)
    ∧ (surveying.watch.get .v1 = some (watchOf surveying) ∧ (watchOf surveying).status ≠ .doubtful)
    ∧ surveying.watch.get .v4 = none
    ∧ (Live returning 0 (slot0 returning) ∧ returning.watch.get .v1 = some (watchOf returning)
      ∧ (watchOf returning).status = .returning ∧ (watchOf returning).confirm = some Stamp.zero
      ∧ 0 + 2000 ≤ returning.fe.lastHalfEnd.up ∧ returning.sag.detectors.get .v1 = some .absent)
    ∧ (Live noHoldoff 0 (slot0 noHoldoff) ∧ noHoldoff.watch.get .v1 = some (watchOf noHoldoff)
      ∧ (let measures := presenceMeasures (noHoldoff.fe.mapInForce.getD (slot0 noHoldoff).map)
          (slot0 noHoldoff).nominalVoltage oneDark
        measures.get .v1 = some 0 ∧ supportsLoss (slot0 noHoldoff).map (slot0 noHoldoff).active.sag measures .v1 = true)
      ∧ noHoldoff.fe.clock ≠ .stopped ∧ noHoldoff.fe.halvesInCycle < 2 ∧ noHoldoff.fe.cyclesInBlock < 10
      ∧ isLVoltage (slot0 noHoldoff).map .v1 = true ∧ (watchOf noHoldoff).status = .present ∧ noHoldoff.check = none
      ∧ ((watchOf noHoldoff).run.getD noHoldoff.fe.lastHalfEnd).up
        + (slot0 noHoldoff).active.leadHoldoff * 10000 ≤ noHoldoff.up + 10) := by decide +kernel

/-- An event whose one member is V1. -/
def loneMember : State := { dipping with sag := { dipping.sag with
  openEvent := some { eventOf dipping with members := (eventOf dipping).members.take 1 } } }

theorem witness_losses_and_the_reference :
    (dipping.sag.detectors.get .v1 = some .low ∧ dipping.sag.openEvent = some (eventOf dipping)
      ∧ (eventOf dipping).members.any (fun m => m.input == .v1) = true
      ∧ (eventOf dipping).members.any (fun m => ((dipping.sag.detectors.set .v1 (some .absent)).get m.input) == some .low)
        = true)
    ∧ (loneMember.sag.detectors.get .v1 = some .low ∧ loneMember.sag.openEvent = some (eventOf loneMember)
      ∧ (eventOf loneMember).members.any
        (fun m => ((loneMember.sag.detectors.set .v1 (some .absent)).get m.input) == some .low) = false
      ∧ (loneMember.tellLoss 0 .v1 false).sag.openEvent = none)
    ∧ (surveying.fe.clock ≠ .stopped ∧ surveying.fe.nextReference.getD surveying.fe.reference = some .v1
      ∧ chooseReference (slot0 surveying).map = some .v1
      ∧ chooseReference ((slot0 surveying).map.set .v1 ⟨.l1, 1, false, .absent, false⟩) = some .v2
      ∧ chooseReference (PerInput.same ⟨.l1, 1, false, .absent, false⟩) = none
      ∧ chooseReference ((PerInput.same ⟨.unused, 1, false, .unknown, false⟩).set .v3 ⟨.l3, 1, false, .unknown, false⟩)
        = some .v3) := by decide +kernel

theorem witness_EventsSettleLastAndClose :
    settled.sag.detectors.get .v1 = some (.settling 100 true)
    ∧ (surveying.sag.detectors.get .v1 = some (.settling 0 false) ∧ surveying.sag.detectors.get .v4 = none)
    ∧ (Live longDip 0 (slot0 longDip) ∧ longDip.sag.openEvent = some (eventOf longDip)
      ∧ (eventOf longDip).start.up + (eventOf longDip).limits.longLimit * 1000 ≤ longDip.fe.lastHalfEnd.up)
    ∧ (dipping.fe.lastHalfEnd.up < (eventOf dipping).start.up + (eventOf dipping).limits.longLimit * 1000)
    ∧ surveying.sag.openEvent = none ∧ longDip.interval.isSome = true := by decide +kernel

/-- The tracker of `captured`. -/
def trackerOf (s : State) : Tracker := (s.sag.trackers[0]).getD ⟨.snapshot, 0, 0, 0, Time.zero, 0, Stamp.zero, 0⟩

def waitingRecord (s : State) : EventRecord := (((slot0 s).sag.admission).head?).getD eventRecord

/-- A closed event whose onset capture still collects. -/
def collecting : State := after .eventLong longDip

def worst32 (r : Nat) : List WorstEntry := (List.range 32).map fun k => ⟨k + 1, Time.zero, 1, 10, r + k, .sag⟩

/-- Two trackers are complete: the one claimed first is offered first (R78); among equals the entry with the
highest number leaves a full list (R82). -/
theorem test_ties :
    (let t (order : Nat) : Option Tracker := some ⟨.snapshot, 7, 0, 1, Time.zero, 0, Stamp.zero, order⟩
      let m := { surveying.sag with trackers := ((surveying.sag.trackers.set 0 (t 5)).set 2 (t 3)).set 3 (t 9) }
      m.firstComplete.map (·.1) = some 2)
    ∧ (enterWorst ((List.range 32).map fun k => ⟨k + 1, Time.zero, 1, 10, 500, .sag⟩) ⟨40, Time.zero, 1, 10, 499, .sag⟩).map
      (·.number) = (List.range 31).map (· + 1) ++ [40] := by decide +kernel

theorem witness_CapturesCompleteAndEventsAreHandedOn :
    (captured.sag.firstComplete = some (0, trackerOf captured) ∧ captured.siteOf (trackerOf captured).site = some (slot0 captured)
      ∧ captured.store.nonJournalOccupancy + 2080 * 12 ≤ 491520
      ∧ captured.store.total + 2080 * 12 + 65536 ≤ 524288)
    ∧ 491520 < (filled 491520).store.nonJournalOccupancy + 2080 * 12
    ∧ (∀ f : Fin 4, ∀ t, surveying.sag.trackers[f] = some t → t.remaining ≠ 0)
    ∧ (collecting.siteOf 7 = some (slot0 collecting) ∧ (slot0 collecting).sag.admission = [waitingRecord collecting]
      ∧ (waitingRecord collecting).onset = .collecting ∧ (waitingRecord collecting).site = 7)
    ∧ (closedEvent.siteOf 7 = some (slot0 closedEvent) ∧ (slot0 closedEvent).label = 7
      ∧ (slot0 closedEvent).sag.admission = [waitingRecord closedEvent] ∧ (waitingRecord closedEvent).site = 7
      ∧ (waitingRecord closedEvent).onset ≠ .collecting ∧ (waitingRecord closedEvent).recovery ≠ .collecting
      ∧ closedEvent.store.nonJournalOccupancy + (Record.event (waitingRecord closedEvent)).length ≤ 491520
      ∧ closedEvent.store.total + (Record.event (waitingRecord closedEvent)).length ≤ 524288
      ∧ (slot0 closedEvent).sag.worst.length < 32 ∧ (slot0 closedEvent).options.slipRule = .off
      ∧ closedEvent.print.jobs.length < 8)
    ∧ ((trackerOf captured).kind = .onset ∧ captured.sag.openEvent.map (·.number) = some (trackerOf captured).event
      ∧ (collecting.sag.firstComplete.isNone = true))
    ∧ (let s := { surveying with sag := { surveying.sag with
          trackers := surveying.sag.trackers.set 0 (some ⟨.snapshot, 7, 0, 1, Time.zero, 0, Stamp.zero, 0⟩) } }
      s.sag.firstComplete = some (0, trackerOf s) ∧ (trackerOf s).kind = .snapshot ∧ s.siteOf 7 = some (slot0 s))
    ∧ (let s := { closedEvent with store := (filled 491520).store }
      oldestEligible s.store.queues.captures = none ∧ s.siteOf 7 = some (slot0 s)
        ∧ (slot0 s).sag.admission = [waitingRecord s]
        ∧ 491520 < s.store.nonJournalOccupancy + (Record.event (waitingRecord s)).length)
    ∧ (let s := jobs 8 { closedEvent with sites := closedEvent.sites.map (Option.map fun x =>
          { x with options := { x.options with slipRule := .depth, slipDepth := 10000 } }) }
      callsSlip (slot0 s).options (waitingRecord s) = true ∧ 8 ≤ s.print.jobs.length ∧ s.siteOf 7 = some (slot0 s))
    ∧ callsSlip { (slot0 closedEvent).options with slipRule := .depth, slipDepth := 8000 } eventRecord = false
    ∧ callsSlip { (slot0 closedEvent).options with slipRule := .depth, slipDepth := 8001 } eventRecord = true
    ∧ (32 ≤ (worst32 100).length ∧ (worst32 100).all (fun w => decide (w.residual ≤ 131)) = true
      ∧ (worst32 100).all (fun w => decide (99 < w.residual)) = true ∧ (worst32 100).Nodup) := by
  refine ⟨by decide +kernel, by decide +kernel, fun f t h => ?_, by decide +kernel, by decide +kernel, by decide +kernel,
    by decide +kernel, by decide +kernel, by decide +kernel, by decide +kernel, by decide +kernel, by decide +kernel⟩
  have : ∀ f : Fin 4, surveying.sag.trackers[f] = none := by decide +kernel
  rw [this f] at h
  cases h

end Sys2Proof.Tests
end

/-! # The survey clock is set (R36)

The queues of the record store under a journal entry, then Set Clock and the statement about it. -/

namespace Sys2Proof.Machine

/-! ## The record store under the parts of an entry (R104, R105) -/

@[simp] theorem State.wakeRequest_store (s : State) (w : WakeSource) : (s.wakeRequest w).store = s.store := by
  unfold State.wakeRequest
  split <;> rfl

@[simp] theorem State.storeHighTest_store (s : State) (before : Nat) :
    (s.storeHighTest before).store = s.store := by
  unfold State.storeHighTest
  split <;> simp

@[simp] theorem State.setJournal_store (s : State) (site : Nat) (j : JournalState) :
    (s.setJournal site j).store = s.store := by
  unfold State.setJournal
  split
  · rfl
  · exact State.modLabel_store s site _

@[simp] theorem State.countEntry_store (s : State) (site : Nat) : (s.countEntry site).store = s.store := by
  unfold State.countEntry
  split
  · rfl
  · exact State.modLabel_store s site _

@[simp] theorem State.countLostEntry_store (s : State) (site : Nat) :
    (s.countLostEntry site).store = s.store := by
  unfold State.countLostEntry
  split
  · rfl
  · exact State.modLabel_store s site _

/-- Records join the tail of their stream's queue, and the store high test moves none (R122, R123). -/
@[simp] theorem State.addRecords_queues (s : State) (st : Stream) (rs : List Record) :
    (s.addRecords st rs).store.queues
      = s.store.queues.set st (s.store.queues.get st ++ rs.map (queued s)) := by
  unfold State.addRecords
  rw [State.storeHighTest_store]

/-- What the queue holds of a record rests on the clock alone. -/
theorem queued_congr {s t : State} (h : t.clock = s.clock) (r : Record) : queued t r = queued s r := by
  unfold queued
  rw [h]

/-! ## The queues after an entry -/

/-- An entry is admitted exactly when a number is left and the store has room for it (R104, R117). -/
theorem State.admitsEntry_iff (s : State) (j : JournalState) (b : EntryBody) :
    s.admitsEntry j b = true ↔ j.exhausted = false ∧ s.store.total + entryLength b ≤ 524288 := by
  unfold State.admitsEntry
  rw [Bool.and_eq_true, decide_eq_true_iff, Bool.not_eq_true', and_comm]
  rfl

/-- An admitted entry joins the tail of the journal queue (R104). -/
theorem State.enter_queues_of_admits {s : State} {r : EntryRequest} {j : JournalState}
    (hj : s.journalOf r.site = some j) (ha : s.admitsEntry j r.body = true) :
    (s.enter r).1.store.queues
      = s.store.queues.set .journal (s.store.queues.journal ++ [queued s (.journal (s.entryFor j r))]) := by
  have hq : queued (s.setJournal r.site j.taken) (.journal (s.entryFor j r))
      = queued s (.journal (s.entryFor j r)) :=
    queued_congr (State.setJournal_quiet s r.site j.taken).steady.time.2.2 _
  unfold State.enter
  simp [hj, ha, hq, PerStream.get]

/-- An entry that is not admitted moves no record (R105). -/
theorem State.enter_queues_of_refused {s : State} {r : EntryRequest} {j : JournalState}
    (hj : s.journalOf r.site = some j) (ha : s.admitsEntry j r.body = false) :
    (s.enter r).1.store.queues = s.store.queues := by
  unfold State.enter
  simp [hj, ha]

/-- Every record held before an entry is held after it, whether or not the entry is admitted. -/
theorem State.enter_keeps_queued (s : State) (r : EntryRequest) (st : Stream) (q : Queued)
    (hq : q ∈ s.store.queues.get st) : q ∈ (s.enter r).1.store.queues.get st := by
  cases hj : s.journalOf r.site with
  | none =>
    unfold State.enter
    rw [hj]
    exact hq
  | some j =>
    cases ha : s.admitsEntry j r.body with
    | false => rwa [State.enter_queues_of_refused hj ha]
    | true =>
      rw [State.enter_queues_of_admits hj ha, PerStream.get_set]
      split
      · next h => subst h; exact List.mem_append_left _ hq
      · exact hq

/-! ## A machine entry of the device -/

/-- The request of a machine entry of the device with the anchor None (R103). -/
def deviceRequest (b : EntryBody) : EntryRequest := ⟨0, .none, 0, false, b⟩

theorem State.put_device (s : State) (b : EntryBody) : s.put 0 b = (s.enter (deviceRequest b)).1 := rfl

theorem State.journalOf_device (s : State) (b : EntryBody) :
    s.journalOf (deviceRequest b).site = some s.device.state := rfl

theorem State.put_device_lostTotal {s : State} {b : EntryBody}
    (ha : s.admitsEntry s.device.state b = false) :
    (s.put 0 b).device.lostTotal = satAdd s.device.lostTotal 1 := by
  rw [State.put_device]
  unfold State.enter
  rw [State.journalOf_device]
  simp [deviceRequest, ha, State.setJournal, State.countLostEntry]

/-! ## Set Clock (R36) -/

/-- The state in which the Journal is handed the Clock Set entry (R36, step 2). -/
def State.withClock (s : State) (t : Time) : State := { s with clock := t }

@[simp] theorem State.withClock_clock (s : State) (t : Time) : (s.withClock t).clock = t := rfl
@[simp] theorem State.withClock_store (s : State) (t : Time) : (s.withClock t).store = s.store := rfl
@[simp] theorem State.withClock_device (s : State) (t : Time) : (s.withClock t).device = s.device := rfl

/-- The state after an accepted Set Clock (R36). -/
def State.clockSetTo (s : State) (t : Time) : State := (s.withClock t).put 0 (.clockSet s.clock t)

/-- A Clock Set entry has no variable part. -/
theorem entryLength_clockSet (old new : Time) : entryLength (.clockSet old new) = 48 := by
  simp [entryLength, EntryBody.variablePart, pad4]

theorem State.admits_clockSet_iff (s : State) (t : Time) :
    (s.withClock t).admitsEntry s.device.state (.clockSet s.clock t) = true
      ↔ s.device.state.exhausted = false ∧ s.store.total + 48 ≤ 524288 := by
  rw [State.admitsEntry_iff, entryLength_clockSet, State.withClock_store]

theorem State.clockSetTo_clock (s : State) (t : Time) : (s.clockSetTo t).clock = t :=
  (State.put_quiet (s.withClock t) 0 _).steady.time.2.2

/-- Records already held stay as they are (R36). -/
theorem State.clockSetTo_keeps_queued (s : State) (t : Time) (st : Stream) (q : Queued)
    (hq : q ∈ s.store.queues.get st) : q ∈ (s.clockSetTo t).store.queues.get st :=
  State.enter_keeps_queued (s.withClock t) _ st q hq

/-- The Clock Set entry stands under the new time. -/
theorem State.clockSetTo_admitted {s : State} (t : Time) (he : s.device.state.exhausted = false)
    (hr : s.store.total + 48 ≤ 524288) :
    ∃ q, (s.clockSetTo t).store.queues.journal = s.store.queues.journal ++ [q]
      ∧ q.record = .journal ⟨0, s.device.state.next, t, false, s.device.state.saturated,
          s.device.state.lostRun, .none, 0, .clockSet s.clock t⟩ := by
  have ha := (State.admits_clockSet_iff s t).mpr ⟨he, hr⟩
  have hq := State.enter_queues_of_admits (State.journalOf_device (s.withClock t) _) ha
  exact ⟨_, congrArg PerStream.journal hq, rfl⟩

/-- The Clock Set entry is counted lost (R36, R105). -/
theorem State.clockSetTo_lost {s : State} (t : Time)
    (h : s.device.state.exhausted = true ∨ 524288 < s.store.total + 48) :
    (s.clockSetTo t).store.queues = s.store.queues
      ∧ (s.clockSetTo t).device.lostTotal = min (s.device.lostTotal + 1) 4294967295 := by
  have ha : (s.withClock t).admitsEntry s.device.state (.clockSet s.clock t) = false := by
    rw [← Bool.not_eq_true, State.admits_clockSet_iff]
    rintro ⟨he, hr⟩
    rcases h with h | h
    · rw [he] at h
      cases h
    · omega
  exact ⟨State.enter_queues_of_refused (State.journalOf_device (s.withClock t) _) ha,
    State.put_device_lostTotal ha⟩

theorem State.setClock_badValue {s : State} {sec ms : Nat} (h : 999 < ms) :
    s.setClock sec ms = refuse s .badValue := if_pos (Or.inl h)

theorem State.setClock_of_legal {s : State} {sec ms : Nat} (hsec : sec ≤ 4294967295) (hms : ms ≤ 999) :
    s.setClock sec ms = if s.liveSlot.isSome then refuse s .siteLive
      else accept (s.clockSetTo ⟨sec, ms, false⟩) (timeBlock s.clock) := if_neg (by omega)

theorem State.setClock_siteLive {s : State} {sec ms : Nat} {k : Fin 8} {x : Site} (hsec : sec ≤ 4294967295)
    (hms : ms ≤ 999) (hx : s.site k = some x) (hl : x.state.isLive = true) :
    s.setClock sec ms = refuse s .siteLive := by
  have hlive : s.liveSlot ≠ none := fun h => by
    simp [State.liveSlot_none.mp h k x hx] at hl
  rw [State.setClock_of_legal hsec hms, if_pos (Option.isSome_iff_ne_none.mpr hlive)]

theorem State.setClock_accepted {s : State} {sec ms : Nat} (hsec : sec ≤ 4294967295) (hms : ms ≤ 999)
    (hl : ∀ k x, s.site k = some x → x.state.isLive = false) :
    s.setClock sec ms = accept (s.clockSetTo ⟨sec, ms, false⟩) (timeBlock s.clock) := by
  rw [State.setClock_of_legal hsec hms, State.liveSlot_none.mpr hl]
  rfl

/-- SET_CLOCK takes its order with whatever the Front End gives for it. -/
theorem takes_setClock {s u : State} {sec ms : Nat} {code : ResultCode} {area : List Byte}
    (h : s.setClock sec ms = ⟨u, code, area⟩) : Takes (.setClock sec ms) (.setClock sec ms) s u code area :=
  takes_of_answer (g := (·.setClock sec ms)) rfl h

/-- Settles O37: the three answers of Set Clock, and for the accepted one what its Clock Set entry does to the
clock, the queues and the lost count. -/
theorem setClockSetsTheClock : Obligations.SetClockSetsTheClock := by
  unfold Obligations.SetClockSetsTheClock
  intro s sec ms
  refine ⟨fun hsec hms hl => ?accepted, fun hms => takes_setClock (State.setClock_badValue hms),
    fun k x hsec hms hx hlive => takes_setClock (State.setClock_siteLive hsec hms hx hlive)⟩
  case accepted =>
    exact ⟨s.clockSetTo ⟨sec, ms, false⟩, rfl, State.clockSetTo_clock s _, State.clockSetTo_keeps_queued s _,
      State.clockSetTo_admitted _, State.clockSetTo_lost _, takes_setClock (State.setClock_accepted hsec hms hl)⟩

end Sys2Proof.Machine

/-! # The printer timeout is set (R158)

The two answers of Set Printer, and the statement about it. -/

namespace Sys2Proof.Machine

/-- The result area of an accepted Set Printer: the timeout before the change, the printer line state and the
two reserved bytes (R158, 11.4). -/
def PrintEngine.timeoutBlock (p : PrintEngine) : List Byte := byte p.timeout ++ byte p.line.number ++ zeros 2

theorem PrintEngine.timeoutBlock_eq (p : PrintEngine) :
    p.timeoutBlock = [BitVec.ofNat 8 p.timeout] ++ [BitVec.ofNat 8 p.line.number] ++ [0, 0] := rfl

theorem State.setPrinter_badValue {s : State} {n : Nat} (h : n < 2 ∨ 60 < n) :
    s.setPrinter n = refuse s .badValue := if_pos h

theorem State.setPrinter_accepted {s : State} {n : Nat} (hlow : 2 ≤ n) (hhigh : n ≤ 60) :
    s.setPrinter n = accept (s.modPrint fun p => { p with timeout := n }) s.print.timeoutBlock :=
  if_neg (by omega)

/-- SET_PRINTER takes its order with whatever the Print Engine gives for it. -/
theorem takes_setPrinter {s u : State} {n : Nat} {code : ResultCode} {area : List Byte}
    (h : s.setPrinter n = ⟨u, code, area⟩) : Takes (.setPrinter n) (.setPrinter n) s u code area :=
  takes_of_answer (g := (·.setPrinter n)) rfl h

/-- Settles O44: within 2 to 60 s the timeout changes and nothing else does; outside it the order is refused. -/
theorem setPrinterSetsTheTimeout : Obligations.SetPrinterSetsTheTimeout := by
  unfold Obligations.SetPrinterSetsTheTimeout
  intro s n
  refine ⟨fun hlow hhigh => ?accepted, fun hout => takes_setPrinter (State.setPrinter_badValue hout)⟩
  case accepted =>
    rw [← PrintEngine.timeoutBlock_eq]
    exact takes_setPrinter (State.setPrinter_accepted hlow hhigh)

end Sys2Proof.Machine

/-! # What the shared operations keep (R115, R124, R127, R136, R38)

Every operation that several commands share keeps the store within its caps, the tables within their bounds, and
the check on its slot. -/

namespace Sys2Proof.Machine

/-- The record store keeps its caps, the tables keep their bounds, and a check that runs is one that ran before, on
the same slot. -/
structure Kept (s t : State) : Prop where
  caps : StoreWithinCaps s → StoreWithinCaps t
  tables : TablesWithinBounds s → TablesWithinBounds t
  check : ∀ c, t.check = some c → ∃ d, s.check = some d ∧ d.slot = c.slot

theorem Kept.refl (s : State) : Kept s s := ⟨id, id, fun c h => ⟨c, h, rfl⟩⟩

theorem Kept.trans {s t u : State} (a : Kept s t) (b : Kept t u) : Kept s u where
  caps := b.caps ∘ a.caps
  tables := b.tables ∘ a.tables
  check c h := by
    obtain ⟨d, hd, e⟩ := b.check c h
    obtain ⟨d', hd', e'⟩ := a.check d hd
    exact ⟨d', hd', e'.trans e⟩

/-- A check that is the same, or gone. -/
theorem check_kept {s t : State} (h : t.check = s.check) (c : CheckRecord) (hc : t.check = some c) :
    ∃ d, s.check = some d ∧ d.slot = c.slot := ⟨c, h ▸ hc, rfl⟩

/-- A state with the same store and check, and no more jobs. -/
theorem Kept.of {s t : State} (h1 : t.store = s.store) (h2 : t.print.jobs.length ≤ s.print.jobs.length)
    (h3 : t.check = s.check) : Kept s t where
  caps := by unfold StoreWithinCaps; rw [h1]; exact id
  tables := by
    unfold TablesWithinBounds
    rw [h1]
    exact fun ⟨a, b, c, d⟩ => ⟨a, b, c, h2.trans d⟩
  check := check_kept h3

theorem Kept.after {s t u : State} (h : Kept u t) (h1 : u.store = s.store)
    (h2 : u.print.jobs.length ≤ s.print.jobs.length) (h3 : u.check = s.check) : Kept s t :=
  (Kept.of h1 h2 h3).trans h

theorem Kept.before {s t u : State} (h : Kept s t) (h1 : u.store = t.store)
    (h2 : u.print.jobs.length ≤ t.print.jobs.length) (h3 : u.check = t.check) : Kept s u :=
  h.trans (Kept.of h1 h2 h3)

theorem Kept.ite {s a b : State} {c : Prop} [Decidable c] (ha : Kept s a) (hb : Kept s b) :
    Kept s (if c then a else b) := by split <;> assumption

/-- The check has moved on, on its slot, or ended. -/
theorem Kept.ofCheck {s t : State} (h1 : t.store = s.store) (h2 : t.print = s.print)
    (h3 : ∀ c, t.check = some c → ∃ d, s.check = some d ∧ d.slot = c.slot) : Kept s t where
  caps := by unfold StoreWithinCaps; rw [h1]; exact id
  tables := by unfold TablesWithinBounds; rw [h1, h2]; exact id
  check := h3

/-- A check that ends leaves none. -/
theorem State.dropCheck_kept (s : State) : Kept s { s with check := none } :=
  Kept.ofCheck rfl rfl fun _ h => by cases h

/-- A store whose occupancy has not grown, under the same print queue and check. -/
theorem Kept.ofStore {s t : State} (h1 : t.store.nonJournalOccupancy ≤ s.store.nonJournalOccupancy)
    (h2 : t.store.journalOccupancy ≤ s.store.journalOccupancy)
    (h3 : TablesWithinBounds s → TablesWithinBounds t) (h4 : t.check = s.check) : Kept s t where
  caps := by
    unfold StoreWithinCaps RecordStore.total
    omega
  tables := h3
  check := check_kept h4

/-! ## The queues -/

theorem queueBytes_append (a b : List Queued) : queueBytes (a ++ b) = queueBytes a + queueBytes b := by
  simp [queueBytes]

theorem queueBytes_filter_le (p : Queued → Bool) (q : List Queued) : queueBytes (q.filter p) ≤ queueBytes q :=
  (List.filter_sublist.map _).sum_le_sum fun _ _ => Nat.zero_le _

theorem queueBytes_drop_le (n : Nat) (q : List Queued) : queueBytes (q.drop n) ≤ queueBytes q :=
  ((List.drop_sublist n q).map _).sum_le_sum fun _ _ => Nat.zero_le _

/-- A change of the queued records that leaves each one's length leaves the bytes. -/
theorem queueBytes_map {f : Queued → Queued} (h : ∀ x, (f x).length = x.length) (q : List Queued) :
    queueBytes (q.map f) = queueBytes q := by
  simp [queueBytes, Function.comp_def, h]

theorem queueBytes_markTaken (n : Nat) (q : List Queued) : queueBytes (markTaken n q) = queueBytes q := by
  unfold markTaken
  rw [queueBytes_append, queueBytes_map (f := fun x => { x with inDelivery := true }) fun _ => rfl,
    ← queueBytes_append, List.take_append_drop]

/-- The bytes of records as they stand in a queue. -/
theorem queueBytes_queued (s : State) (rs : List Record) :
    queueBytes (rs.map (queued s)) = (rs.map Record.length).sum := by
  simp [queueBytes, queued, Function.comp_def]

/-- The occupancy when one stream's queue is replaced (R115). -/
theorem occupancy_set (r : RecordStore) (st : Stream) (q : List Queued) :
    let t : RecordStore := { r with queues := r.queues.set st q }
    (if st = .journal then t.nonJournalOccupancy = r.nonJournalOccupancy
        ∧ t.journalOccupancy = queueBytes q
      else t.nonJournalOccupancy + queueBytes (r.queues.get st) = r.nonJournalOccupancy + queueBytes q
        ∧ t.journalOccupancy = r.journalOccupancy) := by
  cases st <;> simp [RecordStore.nonJournalOccupancy, RecordStore.journalOccupancy, PerStream.set,
    PerStream.get] <;> omega

/-- A queue that has not grown leaves the occupancy at most what it was. -/
theorem occupancy_set_le (r : RecordStore) (st : Stream) {q : List Queued}
    (h : queueBytes q ≤ queueBytes (r.queues.get st)) :
    let t : RecordStore := { r with queues := r.queues.set st q }
    t.nonJournalOccupancy ≤ r.nonJournalOccupancy ∧ t.journalOccupancy ≤ r.journalOccupancy := by
  have e := occupancy_set r st q
  by_cases hj : st = .journal
  · subst hj
    simp only [if_true] at e
    exact ⟨e.1.le, e.2.trans_le h⟩
  · simp only [if_neg hj] at e
    exact ⟨by omega, e.2.le⟩

/-! ## The pool, the waiting list and the pins -/

theorem moveReleased_length (f : Page → Bool) (ps : List Page) : ∀ pool : List Page,
    (moveReleased f ps pool).1.length ≤ ps.length
      ∧ (pool.length ≤ 256 → (moveReleased f ps pool).2.length ≤ 256) := by
  induction ps with
  | nil => exact fun pool => ⟨le_rfl, id⟩
  | cons p ps ih =>
    intro pool
    unfold moveReleased
    split
    · exact ⟨Nat.succ_le_succ (ih pool).1, (ih pool).2⟩
    · next h =>
      have hroom : pool.length < 256 := by
        simp only [Config.poolMax, Bool.or_eq_true, not_or] at h
        exact Nat.lt_of_not_le fun hp => h.2 (decide_eq_true hp)
      exact ⟨(ih _).1.trans (Nat.le_succ _), fun _ => (ih _).2 (by simpa using hroom)⟩

/-- Released pages that move keep the bounds (R126). -/
theorem releaseWaiting_bounds (r : RecordStore) : r.releaseWaiting.waiting.length ≤ r.waiting.length
    ∧ (r.pool.length ≤ 256 → r.releaseWaiting.pool.length ≤ 256) :=
  moveReleased_length r.pinned r.waiting r.pool

theorem addPin_length_le (pins : List PinEntry) (p : Page) : (addPin pins p).length ≤ pins.length + 1 := by
  unfold addPin
  split <;> simp

theorem dropPin_length_le (pins : List PinEntry) (p : Page) : (dropPin pins p).length ≤ pins.length := by
  unfold dropPin
  exact (List.length_filter_le _ _).trans (by simp)

theorem dropPins_length_le (ps : List Page) : ∀ pins : List PinEntry,
    (ps.foldl dropPin pins).length ≤ pins.length := by
  induction ps with
  | nil => exact fun _ => le_rfl
  | cons p ps ih => exact fun pins => (ih _).trans (dropPin_length_le pins p)

/-- Some entry stands for a page. -/
def pinsName (pins : List PinEntry) (p : Page) : Bool := pins.any fun e => e.page.bus == p.bus

theorem pinsName_addPin (pins : List PinEntry) (p q : Page) (h : pinsName pins q = true) :
    pinsName (addPin pins p) q = true := by
  obtain ⟨e, he, hb⟩ := List.any_eq_true.mp h
  unfold pinsName addPin
  split
  · refine List.any_eq_true.mpr ⟨_, List.mem_map.mpr ⟨e, he, rfl⟩, ?_⟩
    split <;> exact hb
  · exact List.any_eq_true.mpr ⟨e, List.mem_append_left _ he, hb⟩

/-- The pin table grows by no more than the pages that it did not name (R127). -/
theorem addPins_length_le (ps : List Page) : ∀ pins : List PinEntry,
    (ps.foldl addPin pins).length ≤ pins.length + (ps.filter fun p => !pinsName pins p).length := by
  induction ps with
  | nil => exact fun _ => Nat.le_add_right _ _
  | cons p ps ih =>
    intro pins
    have hmono : (ps.filter fun q => !pinsName (addPin pins p) q).length
        ≤ (ps.filter fun q => !pinsName pins q).length := by
      refine (List.monotone_filter_right ps fun q hq => ?_).length_le
      cases h : pinsName pins q with
      | false => rfl
      | true => rw [pinsName_addPin pins p q h] at hq; exact hq
    have hstep : (addPin pins p).length ≤ pins.length + if pinsName pins p then 0 else 1 := by
      unfold addPin pinsName
      split <;> simp
    have h := ih (addPin pins p)
    rw [List.foldl_cons, List.filter_cons]
    cases hp : pinsName pins p <;> simp [hp] at hstep ⊢ <;> omega

/-- A granted pin request keeps the pin table within its bound and changes nothing else (R127). -/
theorem requestPins_ok {r m : RecordStore} {ps : List Page} (h : r.requestPins ps = .ok m) :
    m = { r with pins := ps.foldl addPin r.pins } ∧ m.pins.length ≤ 64 := by
  unfold RecordStore.requestPins at h
  split at h
  · cases h
  · split at h
    · cases h
    · next hroom =>
      cases h
      have hgrow := addPins_length_le ps r.pins
      simp only [Config.pinTableMax, not_lt] at hroom
      exact ⟨rfl, hgrow.trans hroom⟩

/-! ## The site table -/

theorem State.setSlot_kept (s : State) (k : Fin 8) (x : Option Site) : Kept s (s.setSlot k x) :=
  Kept.of rfl le_rfl rfl

theorem State.modSite_kept (s : State) (k : Fin 8) (f : Site → Site) : Kept s (s.modSite k f) := by
  unfold State.modSite
  split
  · exact State.setSlot_kept s k _
  · exact Kept.refl s

theorem State.modLabel_kept (s : State) (n : Nat) (f : Site → Site) : Kept s (s.modLabel n f) := by
  unfold State.modLabel
  split
  · exact State.modSite_kept s _ f
  · exact Kept.refl s

/-! ## WAKE, attention, the journal -/

theorem State.wakeRequest_kept (s : State) (w : WakeSource) : Kept s (s.wakeRequest w) := by
  unfold State.wakeRequest
  exact Kept.ite (Kept.of rfl le_rfl rfl) (Kept.refl s)

theorem State.raise_kept (s : State) (b : AttentionBit) : Kept s (s.raise b) := Kept.of rfl le_rfl rfl

theorem State.storeHighTest_kept (s : State) (n : Nat) : Kept s (s.storeHighTest n) := by
  unfold State.storeHighTest
  exact Kept.ite ((State.raise_kept s _).trans (State.wakeRequest_kept _ _)) (Kept.refl s)

/-- Records for which the store has room join a queue (R118, R119). -/
theorem State.addRecords_kept (s : State) (st : Stream) (rs : List Record)
    (hroom : s.store.total + (rs.map Record.length).sum ≤ 524288)
    (hcap : st = .journal ∨ s.store.nonJournalOccupancy + (rs.map Record.length).sum ≤ 491520) :
    Kept s (s.addRecords st rs) := by
  refine Kept.trans ?_ (State.storeHighTest_kept _ _)
  refine ⟨fun h => ?_, id, check_kept rfl⟩
  have e := occupancy_set s.store st (s.store.queues.get st ++ rs.map (queued s))
  rw [queueBytes_append, queueBytes_queued] at e
  unfold StoreWithinCaps RecordStore.total at *
  by_cases hj : st = .journal
  · subst hj
    simp only [if_true] at e
    have hq : queueBytes (s.store.queues.get .journal) = s.store.journalOccupancy := rfl
    dsimp only at e ⊢
    omega
  · simp only [if_neg hj] at e
    have hcap' := hcap.resolve_left hj
    dsimp only at e ⊢
    omega

theorem State.countLost_kept (s : State) (st : Stream) (n : Nat) : Kept s (s.countLost st n) :=
  Kept.ofStore le_rfl le_rfl id rfl

theorem State.setJournal_kept (s : State) (n : Nat) (j : JournalState) : Kept s (s.setJournal n j) := by
  unfold State.setJournal
  exact Kept.ite (Kept.of rfl le_rfl rfl) (State.modLabel_kept s n _)

theorem State.countEntry_kept (s : State) (n : Nat) : Kept s (s.countEntry n) := by
  unfold State.countEntry
  exact Kept.ite (Kept.refl s) (State.modLabel_kept s n _)

theorem State.countLostEntry_kept (s : State) (n : Nat) : Kept s (s.countLostEntry n) := by
  unfold State.countLostEntry
  exact Kept.ite (Kept.of rfl le_rfl rfl) (State.modLabel_kept s n _)

/-- The Journal's taking of an entry (R104, R105). -/
theorem State.enter_kept (s : State) (r : EntryRequest) : Kept s (s.enter r).1 := by
  unfold State.enter
  split
  · exact Kept.refl s
  · next j hj =>
    split
    · next ha =>
      refine ((State.setJournal_kept s _ _).trans (State.addRecords_kept _ _ _ ?_ (Or.inl rfl))).trans
        (State.countEntry_kept _ _)
      have hroom := ((State.admitsEntry_iff s j r.body).mp ha).2
      rw [State.setJournal_store]
      simpa [Record.length, State.entryFor] using hroom
    · exact ((State.setJournal_kept s _ _).trans (State.countLostEntry_kept _ _)).trans
        (State.countLost_kept _ _ _)

theorem State.putAnchored_kept (s : State) (n : Nat) (a : Anchor) (b : EntryBody) :
    Kept s (s.putAnchored n a b) := State.enter_kept s _

theorem State.put_kept (s : State) (n : Nat) (b : EntryBody) : Kept s (s.put n b) :=
  State.enter_kept s _

/-! ## The record store -/

theorem State.discardCapture_kept (s : State) (c : CapturePiece × Queued) (st : Stream) (n : Nat) :
    Kept s (s.discardCapture c st n) := by
  unfold State.discardCapture
  dsimp only
  refine Kept.trans ?_ (State.putAnchored_kept _ _ _ _)
  refine Kept.trans ?_ (State.modLabel_kept _ _ _)
  refine Kept.trans ?_ (State.countLost_kept _ _ _)
  have hle := queueBytes_filter_le (fun q => !sameCapture c.1 q) s.store.queues.captures
  exact Kept.ofStore (Nat.add_le_add_left hle _) le_rfl id rfl

theorem State.makeRoom_kept (fuel : Nat) (s : State) (st : Stream) (site length : Nat) :
    Kept s (State.makeRoom fuel s st site length) := by
  induction fuel generalizing s with
  | zero => exact Kept.refl s
  | succ n ih =>
    unfold State.makeRoom
    refine Kept.ite (Kept.refl s) ?_
    split
    · exact Kept.refl s
    · exact (State.discardCapture_kept s _ st site).trans (ih _)

theorem RecordStore.fits_iff (r : RecordStore) (n : Nat) :
    r.fits n = true ↔ r.nonJournalOccupancy + n ≤ 491520 ∧ r.total + n ≤ 524288 := decide_eq_true_iff

theorem State.admitRecord_kept (s : State) (st : Stream) (r : Record) : Kept s (s.admitRecord st r).1 := by
  unfold State.admitRecord
  dsimp only
  refine Kept.trans (State.makeRoom_kept (s.store.queues.captures.length + 1) s st r.site r.length) ?_
  split
  · next hf =>
    obtain ⟨hcap, hroom⟩ := (RecordStore.fits_iff _ _).mp hf
    exact State.addRecords_kept _ _ _ (by simpa using hroom) (Or.inr (by simpa using hcap))
  · exact (State.countLost_kept _ _ _).trans (State.modLabel_kept _ _ _)

theorem State.offerCapture_kept (s : State) (site : Nat) (p : Nat → List CapturePiece) :
    Kept s (s.offerCapture site p).1 := by
  unfold State.offerCapture
  split
  · exact Kept.refl s
  · next x hx =>
    dsimp only
    split
    · next ha =>
      refine (State.modLabel_kept s site _).trans (State.addRecords_kept _ _ _ ?_ (Or.inr ?_)) <;>
      · have h := of_decide_eq_true ha
        have hlen : ((p x.sag.nextCapture).map fun _ => 2080).sum = 2080 * (p x.sag.nextCapture).length := by
          simp [Nat.mul_comm]
        simp only [Config.nonJournalCap, Config.storeBytes, Config.captureGuard] at h
        simp only [State.modLabel_store, List.map_map, Function.comp_def, Record.length, hlen]
        omega
    · exact (State.countLost_kept s _ _).trans (State.modLabel_kept _ _ _)

theorem State.judgePage_kept (s : State) (r : WRef) : Kept s (s.judgePage r).1 := by
  unfold State.judgePage
  dsimp only
  split_ifs
  iterate 3 exact Kept.refl s
  · next h =>
    refine Kept.ofStore le_rfl le_rfl (fun ⟨a, b, c, d⟩ => ⟨a, ?_, c, d⟩) rfl
    have := h.2
    simp only [Config.waitingMax] at this
    simp
    omega
  · exact Kept.refl s
  · next h =>
    refine Kept.ofStore le_rfl le_rfl (fun ⟨a, b, c, d⟩ => ⟨?_, b, c, d⟩) rfl
    simp only [Config.poolMax, not_or, not_le] at h
    simp
    omega

theorem State.judgePages_kept (rs : List WRef) (s : State) : Kept s (s.judgePages rs).1 := by
  induction rs generalizing s with
  | nil => exact Kept.refl s
  | cons r rs ih => exact (State.judgePage_kept s r).trans (ih _)

theorem State.pagesLowTest_kept (s : State) (n : Nat) : Kept s (s.pagesLowTest n) := by
  unfold State.pagesLowTest
  exact Kept.ite (State.raise_kept s _) (Kept.refl s)

theorem State.startDelivery_kept (s : State) (st : Stream) : Kept s (s.startDelivery st) := by
  unfold State.startDelivery
  refine Kept.ite ?_ (Kept.refl s)
  split
  · exact Kept.refl s
  · next p ps hp =>
    refine Kept.trans ?_ (State.pagesLowTest_kept _ _)
    have hocc := occupancy_set_le s.store st
      (queueBytes_markTaken (fitCount Config.pageBody (s.store.queues.get st)) (s.store.queues.get st)).le
    refine Kept.ofStore hocc.1 hocc.2 (fun ⟨a, b, c, d⟩ => ?_) rfl
    rw [hp, List.length_cons] at a
    have hps : ps.length ≤ 256 := by omega
    exact ⟨(moveReleased_length _ _ _).2 hps, (moveReleased_length _ _ _).1.trans b, c, d⟩

theorem State.nextStage_kept (s : State) (st : Stream) (d : Delivery) : Kept s (s.nextStage st d) := by
  unfold State.nextStage
  split
  · exact Kept.ofStore le_rfl le_rfl id rfl
  · exact Kept.ofStore le_rfl le_rfl id rfl
  · exact Kept.refl s

theorem State.publish_kept (s : State) (st : Stream) (d : Delivery) : Kept s (s.publish st d) := by
  have hocc := occupancy_set_le s.store st (queueBytes_drop_le d.count (s.store.queues.get st))
  exact Kept.ofStore hocc.1 hocc.2 id rfl

theorem RecordStore.abandonDeliveries_occupancy (r : RecordStore) :
    r.abandonDeliveries.nonJournalOccupancy = r.nonJournalOccupancy
      ∧ r.abandonDeliveries.journalOccupancy = r.journalOccupancy := by
  unfold RecordStore.nonJournalOccupancy RecordStore.journalOccupancy
  simp [RecordStore.abandonDeliveries, PerStream.map, queueBytes, Function.comp_def]

theorem RecordStore.flush_occupancy (r : RecordStore) (mask : Nat) :
    (r.flush mask).nonJournalOccupancy = r.nonJournalOccupancy
      ∧ (r.flush mask).journalOccupancy = r.journalOccupancy := by
  have h : ∀ (b : Bool) (q : List Queued), queueBytes (if b then makeDue q else q) = queueBytes q := by
    intro b q
    cases b
    · rfl
    · exact queueBytes_map (f := fun x => { x with due := true }) (fun _ => rfl) q
  constructor <;> simp [RecordStore.nonJournalOccupancy, RecordStore.journalOccupancy, RecordStore.flush, h]

/-! ## The Front End and limits -/

theorem State.rechoose_kept (s : State) (m : ChannelMap) (c : ReferenceCause) : Kept s (s.rechoose m c) := by
  unfold State.rechoose
  split
  · exact Kept.after (State.put_kept _ _ _) rfl le_rfl rfl
  · exact Kept.refl s

theorem State.noteMapChange_kept (s : State) (a b : ChannelMap) : Kept s (s.noteMapChange a b) := by
  unfold State.noteMapChange
  exact Kept.ite (Kept.of rfl le_rfl rfl) (Kept.refl s)

theorem State.applyLimits_kept (s : State) (k : Fin 8) (l : Limits) : Kept s (s.applyLimits k l) := by
  unfold State.applyLimits
  split
  · exact Kept.refl s
  · refine Kept.trans ?_ (State.put_kept _ _ _)
    exact State.modSite_kept s k _

theorem State.applyPending_kept (s : State) (k : Fin 8) : Kept s (s.applyPending k) := by
  unfold State.applyPending
  split
  · exact State.applyLimits_kept s k _
  · exact Kept.refl s

/-! ## The Sag Monitor -/

theorem State.claim_kept (s : State) (c : CaptureKind) (site event : Nat) : Kept s (s.claim c site event).1 := by
  unfold State.claim
  split
  · exact Kept.refl s
  · exact Kept.of rfl le_rfl rfl

theorem State.closeEvent_kept (s : State) (k : Fin 8) (c : EndCause) (fin : Stamp) (n : Nat)
    (o : CaptureOutcome) : Kept s (s.closeEvent k c fin n o) := by
  unfold State.closeEvent
  split
  · refine Kept.trans ?_ (State.raise_kept _ _)
    refine Kept.trans ?_ (State.modSite_kept _ k _)
    exact Kept.of rfl le_rfl rfl
  · exact Kept.refl s

theorem State.closeEventByOrder_kept (s : State) (k : Fin 8) (c : EndCause) :
    Kept s (s.closeEventByOrder k c) := by
  unfold State.closeEventByOrder
  split
  · exact State.closeEvent_kept s k c _ _ _
  · exact Kept.refl s

theorem State.openEventNow_kept (s : State) (k : Fin 8) (x : Site) (v : PerInput (Option Nat))
    (l : List Input) : Kept s (s.openEventNow k x v l) := by
  unfold State.openEventNow
  dsimp only
  refine Kept.trans ?_ (State.raise_kept _ _)
  refine Kept.trans ?_ (State.modSite_kept _ k _)
  exact (State.claim_kept s .onset x.label x.sag.nextEvent).before rfl le_rfl rfl

theorem State.classTest_kept (s : State) (x : Site) (v : PerInput (Option Nat)) : Kept s (s.classTest x v) := by
  unfold State.classTest
  split
  · exact Kept.refl s
  · refine Kept.ite (Kept.ite ?_ (Kept.of rfl le_rfl rfl)) (Kept.refl s)
    exact Kept.after (State.wakeRequest_kept _ _) rfl le_rfl rfl

theorem State.recoveryTest_kept (s : State) (k : Fin 8) (x : Site) (ms : List Member) :
    Kept s (s.recoveryTest k x ms) := by
  unfold State.recoveryTest
  split
  · exact Kept.refl s
  · refine Kept.ite (Kept.of rfl le_rfl rfl) (Kept.ite (State.closeEvent_kept s k _ _ _ _) ?_)
    exact Kept.after ((State.claim_kept _ _ _ _).trans (State.closeEvent_kept _ k _ _ _ _))
      rfl le_rfl rfl

theorem State.eventTakes_kept (s : State) (k : Fin 8) (x : Site) (v : PerInput (Option Nat))
    (l : List Input) : Kept s (s.eventTakes k x v l) := by
  unfold State.eventTakes
  split
  · exact Kept.of rfl le_rfl rfl
  · exact Kept.ite (Kept.refl s) (State.openEventNow_kept s k x v l)

theorem State.takeValueSet_kept (s : State) (k : Fin 8) (x : Site) (v : PerInput (Option Nat)) :
    Kept s (s.takeValueSet k x v) := by
  unfold State.takeValueSet
  dsimp only
  refine Kept.trans ?_ (State.recoveryTest_kept _ k x _)
  refine Kept.trans ?_ (State.classTest_kept _ x v)
  refine Kept.trans ?_ (State.eventTakes_kept _ k x v _)
  exact Kept.of rfl le_rfl rfl

theorem State.eventLoses_kept (s : State) (k : Fin 8) (i : Input) (a : Bool) : Kept s (s.eventLoses k i a) := by
  unfold State.eventLoses
  split
  · exact Kept.refl s
  · refine Kept.ite ?_ (Kept.refl s)
    refine Kept.ite (Kept.of rfl le_rfl rfl) (Kept.ite (Kept.of rfl le_rfl rfl) ?_)
    exact Kept.after (State.closeEvent_kept _ k _ _ _ _) rfl le_rfl rfl

theorem State.sagLoses_kept (s : State) (k : Fin 8) (i : Input) (a : Bool) : Kept s (s.sagLoses k i a) := by
  unfold State.sagLoses
  split
  · exact Kept.refl s
  · exact Kept.after (State.eventLoses_kept _ k i a) rfl le_rfl rfl

theorem State.sagReturns_kept (s : State) (i : Input) : Kept s (s.sagReturns i) := by
  unfold State.sagReturns
  split <;> exact Kept.of rfl le_rfl rfl

theorem State.setOutcome_kept (s : State) (site : Nat) (c : CaptureKind) (n : Nat) (o : CaptureOutcome) :
    Kept s (s.setOutcome site c n o) := by
  unfold State.setOutcome
  dsimp only
  refine Kept.trans ?_ (State.modLabel_kept _ _ _)
  split
  · exact Kept.ite (Kept.of rfl le_rfl rfl) (Kept.refl s)
  · exact Kept.refl s

theorem State.finishCapture_kept (s : State) (k : Fin 4) (t : Tracker) (o : CaptureOutcome) :
    Kept s (s.finishCapture k t o) := by
  unfold State.finishCapture
  split
  · exact State.setOutcome_kept s _ _ _ _
  · exact State.setOutcome_kept s _ _ _ _
  · exact State.put_kept s _ _

theorem State.abandonTracker_kept (s : State) (site : Nat) (k : Fin 4) : Kept s (s.abandonTracker site k) := by
  unfold State.abandonTracker
  split
  · exact Kept.refl s
  · refine Kept.ite ?_ (Kept.refl s)
    exact Kept.after (State.finishCapture_kept _ _ _ _) rfl le_rfl rfl

theorem State.abandonTrackers_kept (s : State) (site : Nat) : Kept s (s.abandonTrackers site) := by
  unfold State.abandonTrackers trackerNumbers
  simp only [List.foldl]
  exact (((State.abandonTracker_kept s site _).trans (State.abandonTracker_kept _ site _)).trans
    (State.abandonTracker_kept _ site _)).trans (State.abandonTracker_kept _ site _)

/-! ## The Interval Aggregator -/

theorem State.openInterval_kept (s : State) (k : Fin 8) (t : Time) : Kept s (s.openInterval k t) := by
  unfold State.openInterval
  split <;> exact Kept.of rfl le_rfl rfl

theorem State.admitInterval_kept (s : State) (iv : Interval) (x : Site) (c : IntervalEnd) (n : Nat)
    (e : Bool) : Kept s (s.admitInterval iv x c n e) := by
  unfold State.admitInterval
  dsimp only
  have h : Kept s _ := (State.modSite_kept s iv.slot fun y => { y with nextInterval := x.nextInterval + 1 }).trans
    (State.admitRecord_kept _ .intervals (.interval (iv.toRecord x.nextInterval c n e)))
  exact Kept.ite (h.trans (State.modSite_kept _ _ _)) h

theorem State.closeInterval_kept (s : State) (c : IntervalEnd) (n : Nat) (e : Bool) :
    Kept s (s.closeInterval c n e) := by
  unfold State.closeInterval
  split
  · exact Kept.of rfl le_rfl rfl
  · dsimp only
    refine Kept.ite (Kept.of rfl le_rfl rfl) ?_
    exact Kept.after (State.admitInterval_kept _ _ _ _ _ _) rfl le_rfl rfl

theorem State.closeIntervalByOrder_kept (s : State) (c : IntervalEnd) : Kept s (s.closeIntervalByOrder c) := by
  unfold State.closeIntervalByOrder
  split
  · exact Kept.refl s
  · exact State.closeInterval_kept s _ _ _

theorem State.intervalTakes_kept (s : State) (b : BlockResult) : Kept s (s.intervalTakes b) := by
  unfold State.intervalTakes
  split <;> exact Kept.of rfl le_rfl rfl

theorem State.boundary_kept (s : State) (iv : Interval) (b : BlockResult) (c : IntervalEnd) (n : Nat)
    (e : Bool) (t : Time) : Kept s (s.boundary iv b c n e t) := by
  unfold State.boundary
  dsimp only
  refine Kept.trans (((State.closeInterval_kept s c n e).trans (State.applyPending_kept _ iv.slot)).trans
    (State.openInterval_kept _ iv.slot t)) ?_
  refine Kept.after (State.intervalTakes_kept _ b) rfl le_rfl rfl

theorem State.takeBlock_kept (s : State) (b : BlockResult) : Kept s (s.takeBlock b) := by
  unfold State.takeBlock
  split
  · exact Kept.refl s
  · exact Kept.ite (State.boundary_kept s _ b _ _ _ _)
      (Kept.ite (State.intervalTakes_kept s b) (State.boundary_kept s _ b _ _ _ _))

/-! ## The kit check and lead watch -/

theorem State.afterCheck_kept (s : State) (k : Fin 8) (x : Site) (r : ReturnState) (v : CheckVerdict)
    (o : Conclusion) (rep : CheckReport) : Kept s (s.afterCheck k x r v o rep) := by
  have hput (t : State) : Kept t ((t.put x.label (.checkReport rep)).raise .check) :=
    (State.put_kept t _ _).trans (State.raise_kept _ _)
  unfold State.afterCheck
  dsimp only
  split
  · exact hput s
  · refine Kept.trans ?_ (State.applyPending_kept _ k)
    refine Kept.trans ?_ (hput _)
    exact Kept.of rfl le_rfl rfl
  · have h : Kept s (s.noteMapChange x.map o.map) := State.noteMapChange_kept s x.map o.map
    refine Kept.ite (Kept.trans ?_ (State.rechoose_kept _ _ _)) ?_ <;>
      refine Kept.trans ?_ (hput _) <;> exact h.before rfl le_rfl rfl

theorem State.endCheck_kept (s : State) (c : CheckRecord) (v : CheckVerdict) (b : Bool) (o : Conclusion) :
    Kept s (s.endCheck c v b o) := by
  unfold State.endCheck
  split
  · exact State.dropCheck_kept s
  · dsimp only
    refine Kept.trans ?_ (State.afterCheck_kept _ _ _ _ _ _ _)
    exact (State.dropCheck_kept s).trans (State.modSite_kept _ c.slot _)

theorem State.breakCheck_kept (s : State) (c : CheckRecord) (v : CheckVerdict) :
    Kept s (s.breakCheck c v) := by
  unfold State.breakCheck
  split
  · exact State.dropCheck_kept s
  · exact State.endCheck_kept s c v _ _

theorem State.breakOnLead_kept (s : State) (i : Input) : Kept s (s.breakOnLead i) := by
  unfold State.breakOnLead
  split
  · exact Kept.ite (State.breakCheck_kept s _ _) (Kept.refl s)
  · exact Kept.refl s

theorem CheckRecord.takeBlock_slot (c : CheckRecord) (x : Site) (b : BlockResult) (began fin : Stamp) :
    (c.takeBlock x b began fin).slot = c.slot := by
  unfold CheckRecord.takeBlock CheckRecord.takeCounted CheckRecord.takeRotation
  dsimp only
  repeat' split
  all_goals rfl

theorem CheckRecord.takePresence_slot (c : CheckRecord) (m : PerInput (Option Nat)) (fin : Stamp) :
    (c.takePresence m fin).slot = c.slot := by
  unfold CheckRecord.takePresence
  split <;> rfl

theorem State.checkHalf_kept (s : State) (x : Site) (m : PerInput (Option Nat)) : Kept s (s.checkHalf x m) := by
  refine Kept.ofCheck rfl rfl fun d hd => ?_
  obtain ⟨c, hc, rfl⟩ := Option.map_eq_some_iff.mp hd
  refine ⟨c, hc, ?_⟩
  split
  · exact (CheckRecord.takePresence_slot c _ _).symm
  all_goals rfl

theorem State.checkBlock_kept (s : State) (x : Site) (b : BlockResult) (began fin : Stamp) :
    Kept s (s.checkBlock x b began fin) := by
  unfold State.checkBlock
  split
  · exact Kept.refl s
  · next c hc =>
    dsimp only
    refine Kept.ite (State.breakCheck_kept s _ _) (Kept.ofCheck rfl rfl ?_)
    rintro _ ⟨⟩
    exact ⟨c, hc, (CheckRecord.takeBlock_slot c x b began fin).symm⟩

theorem State.lineLost_kept (s : State) (k : Fin 8) (x : Site) (i : Input) (a : Bool) :
    Kept s (s.lineLost k x i a) := by
  unfold State.lineLost
  refine Kept.ite (Kept.trans ?_ (State.rechoose_kept _ _ _)) (Kept.refl s)
  unfold State.tellLoss
  dsimp only
  exact Kept.ite ((State.sagLoses_kept s k i a).trans (Kept.of rfl le_rfl rfl))
    (State.sagLoses_kept s k i a)

theorem State.declareLost_kept (s : State) (k : Fin 8) (x : Site) (i : Input) (l : Loss)
    (a : Bool) : Kept s (s.declareLost k x i l a) := by
  unfold State.declareLost
  dsimp only
  refine Kept.trans (?_) (State.breakOnLead_kept _ i)
  refine ((Kept.trans ?_ (State.put_kept _ _ _)).trans (State.lineLost_kept _ k x i a)).trans
    (State.raise_kept _ _)
  unfold State.markLost
  exact Kept.after (State.modSite_kept _ k _) rfl le_rfl rfl

theorem State.lineRestored_kept (s : State) (k : Fin 8) (x : Site) (i : Input) :
    Kept s (s.lineRestored k x i) := by
  unfold State.lineRestored
  exact Kept.ite ((State.sagReturns_kept s i).trans (State.rechoose_kept _ _ _)) (Kept.refl s)

theorem State.declarePresent_kept (s : State) (k : Fin 8) (x : Site) (i : Input) (w : LeadState)
    (c : Stamp) : Kept s (s.declarePresent k x i w c) := by
  unfold State.declarePresent
  dsimp only
  refine Kept.trans (?_) (State.breakOnLead_kept _ i)
  refine ((Kept.trans ?_ (State.put_kept _ _ _)).trans (State.lineRestored_kept _ k x i)).trans
    (State.raise_kept _ _)
  exact Kept.after (State.modSite_kept _ k _) rfl le_rfl rfl

/-! ## Half-cycles, cycles and blocks -/

theorem State.sagHalf_kept (s : State) (k : Fin 8) (x : Site) (v : ValueSet) :
    Kept s (s.sagHalf k x v) := by
  unfold State.sagHalf
  dsimp only
  refine Kept.trans ?_ (t := if x.state = .surveying then (s.takeValueSet k x v.percents).report x else s)
    (Kept.of rfl le_rfl rfl)
  exact Kept.ite ((State.takeValueSet_kept s k x v.percents).trans (Kept.of rfl le_rfl rfl)) (Kept.refl s)

theorem State.endHalf_kept (s : State) (k : Fin 8) (x : Site) (m : PerInput (List Int)) :
    Kept s (s.endHalf k x m) := by
  unfold State.endHalf
  dsimp only
  refine Kept.trans ?_ (State.checkHalf_kept _ x _)
  refine Kept.before (Kept.trans ?_ (State.sagHalf_kept _ k x _)) rfl le_rfl rfl
  exact Kept.of rfl le_rfl rfl

theorem State.beginBlock_kept (s : State) (l : PerClamp Nat) : Kept s (s.beginBlock l) := by
  unfold State.beginBlock
  split
  · exact Kept.ite (Kept.of rfl le_rfl rfl) (Kept.refl s)
  · exact Kept.refl s

theorem State.endBlock_kept (s : State) (x : Site) (b : BlockResult) (l : PerClamp Nat) :
    Kept s (s.endBlock x b l) := by
  unfold State.endBlock
  exact ((State.takeBlock_kept s b).trans (State.checkBlock_kept _ x b _ _)).trans
    (State.beginBlock_kept _ l)

/-! ## The print queue (R136, R138) -/

theorem PrintEngine.modJob_jobs (p : PrintEngine) (n : Nat) (f : Job → Job) :
    (p.modJob n f).jobs.length ≤ p.jobs.length := by simp [PrintEngine.modJob]

theorem PrintEngine.setLine_jobs (p : PrintEngine) : p.setLine.jobs.length ≤ p.jobs.length := by
  simp [PrintEngine.setLine]

theorem PrintEngine.send_jobs (p : PrintEngine) (j : Job) (l : PrintLine) (now : Nat) :
    (p.send j l now).jobs.length ≤ p.jobs.length := by
  unfold PrintEngine.send
  split
  · unfold PrintEngine.beginFrame
    split
    · exact le_rfl
    · exact PrintEngine.setLine_jobs _
  · exact PrintEngine.modJob_jobs p _ _
  · exact PrintEngine.modJob_jobs p _ _
  · exact PrintEngine.modJob_jobs p _ _
  · exact le_rfl
  · exact le_rfl

theorem joinQueue_length (jobs : List Job) (j : Job) : (joinQueue jobs j).length = jobs.length + 1 := by
  unfold joinQueue
  split
  · simp
  · next h =>
    have e := congrArg List.length
      (List.takeWhile_append_dropWhile (p := fun k : Job => k.active || decide (k.owner = .slip)) (l := jobs))
    simp only [List.length_append] at e
    simp only [List.length_append, List.length_singleton]
    omega

/-- A change of the Print Engine that adds no job. -/
theorem State.modPrint_kept (s : State) {f : PrintEngine → PrintEngine}
    (h : (f s.print).jobs.length ≤ s.print.jobs.length) : Kept s (s.modPrint f) := Kept.of rfl h rfl

theorem modLabels_kept (f : Site → Site) (ns : List Nat) (s : State) :
    Kept s (ns.foldl (fun t n => t.modLabel n f) s) := by
  induction ns generalizing s with
  | nil => exact Kept.refl s
  | cons n ns ih => exact (State.modLabel_kept s n f).trans (ih _)

theorem modLabels_print (f : Site → Site) (ns : List Nat) (s : State) :
    (ns.foldl (fun t n => t.modLabel n f) s).print = s.print := by
  induction ns generalizing s with
  | nil => rfl
  | cons n ns ih => exact (ih _).trans (State.modLabel_aside s n f).print

/-- A job is created while the queue has room (R136). -/
theorem State.createJob_kept (s : State) (o : JobOwner) (c : Nat) (is : List Item) (ns : List Nat)
    (ps : List Page) (e : Nat) (h : s.print.jobs.length < 8) : Kept s (s.createJob o c is ns ps e) := by
  refine (modLabels_kept Site.takePin ns s).trans ⟨id, fun ⟨a, b, d, _⟩ => ⟨a, b, d, ?_⟩, check_kept rfl⟩
  have hlen := joinQueue_length s.print.jobs (Job.fresh s.print.nextJob o c is ns ps e s.clock)
  exact hlen.trans_le h

theorem State.requestSlip_kept (s t : State) (n : Nat) (r : EventRecord) (h : s.requestSlip n r = some t) :
    Kept s t := by
  unfold State.requestSlip at h
  split at h
  · next hroom => cases h; exact State.createJob_kept s _ _ _ _ _ _ hroom
  · cases h

/-! ## The work on a job -/

theorem State.drive_kept (s : State) : Kept s s.drive := by
  unfold State.drive
  split
  · exact Kept.refl s
  · split
    · exact Kept.refl s
    · exact Kept.ite (State.modPrint_kept s (PrintEngine.send_jobs _ _ _ _)) (Kept.refl s)

theorem State.reach_kept (s : State) (j : Job) (i : Item) : Kept s (s.reach j i) := by
  unfold State.reach
  split
  · exact Kept.ite (Kept.of rfl le_rfl rfl) (State.modPrint_kept s (PrintEngine.modJob_jobs _ _ _))
  · exact State.modPrint_kept s (PrintEngine.modJob_jobs _ _ _)

theorem State.reachItem_kept (s : State) : Kept s s.reachItem := by
  unfold State.reachItem
  split
  · exact Kept.refl s
  · split
    · exact Kept.refl s
    · exact Kept.ite (State.reach_kept s _ _) (Kept.refl s)

theorem State.work_kept (s : State) : Kept s s.work :=
  (State.reachItem_kept s).trans (State.drive_kept _)

theorem State.settle_kept (s : State) : Kept s s.settle := by
  unfold State.settle
  dsimp only
  refine Kept.trans ?_ (State.work_kept _)
  have hline : Kept s (s.modPrint PrintEngine.setLine) := State.modPrint_kept s (PrintEngine.setLine_jobs _)
  refine Kept.ite (hline.trans (State.modPrint_kept _ ?_)) hline
  rw [List.length_map]

theorem State.linkReturns_kept (s : State) : Kept s s.linkReturns := by
  unfold State.linkReturns
  refine Kept.ite ((State.modPrint_kept s ?_).trans (State.work_kept _)) (Kept.refl s)
  rw [List.length_map]

theorem State.judgeLine_kept (s : State) : Kept s s.judgeLine :=
  (State.modPrint_kept s le_rfl).trans (State.settle_kept _)

/-! ## The end of a job, a frame and a read -/

theorem State.releasePins_kept (s : State) (ps : List Page) :
    Kept s { s with store := s.store.releasePins ps } := by
  refine Kept.ofStore le_rfl le_rfl (fun ⟨a, b, c, d⟩ => ?_) rfl
  obtain ⟨hw, hp⟩ := releaseWaiting_bounds { s.store with pins := ps.foldl dropPin s.store.pins }
  exact ⟨hp a, hw.trans b, (dropPins_length_le ps _).trans c, d⟩

theorem State.endJob_kept (s : State) (j : Job) (o : JobOutcome) (c : Nat) : Kept s (s.endJob j o c) := by
  unfold State.endJob
  dsimp only
  refine Kept.trans ?_ (State.modPrint_kept _ (List.length_filter_le _ _))
  refine Kept.trans ?_ (State.raise_kept _ _)
  refine Kept.trans ?_ (State.put_kept _ _ _)
  exact (State.releasePins_kept s j.pages).trans (modLabels_kept Site.dropPin j.sites _)

theorem State.breakJob_kept (s : State) (j : Job) (o : JobOutcome) : Kept s (s.breakJob j o) :=
  State.endJob_kept s j o _

theorem State.completeLine_kept (s : State) (j : Job) : Kept s (s.completeLine j) := by
  unfold State.completeLine
  dsimp only
  split
  · exact Kept.ite (State.breakJob_kept s _ _) (State.modPrint_kept s (PrintEngine.modJob_jobs _ _ _))
  · exact Kept.ite (State.endJob_kept s _ _ _)
      (Kept.ite (State.modPrint_kept s (PrintEngine.modJob_jobs _ _ _)) (State.endJob_kept s _ _ _))

theorem State.endFrame_kept (s : State) (f : Frame) : Kept s (s.endFrame f) := by
  have hline : Kept s (s.modPrint fun p => PrintEngine.setLine { p with frame := none }) :=
    State.modPrint_kept s (PrintEngine.setLine_jobs _)
  unfold State.endFrame
  dsimp only
  split
  · exact Kept.ite (hline.trans (State.work_kept _))
      ((hline.trans (State.completeLine_kept _ _)).trans (State.work_kept _))
  · exact hline

theorem State.endByte_kept (s : State) (f : Frame) : Kept s (s.endByte f) := by
  unfold State.endByte
  split
  · exact State.modPrint_kept s le_rfl
  · exact State.endFrame_kept s f

theorem State.abandonFrame_kept (s : State) (f : Frame) : Kept s (s.abandonFrame f) := by
  have hdrop : Kept s (s.modPrint fun p => p.dropFrame) := State.modPrint_kept s le_rfl
  unfold State.abandonFrame
  dsimp only
  split
  · exact Kept.ite hdrop (Kept.ite (hdrop.trans (State.breakJob_kept _ _ _))
      (hdrop.trans (State.modPrint_kept _ (PrintEngine.modJob_jobs _ _ _))))
  · exact hdrop

theorem State.signalMoves_kept (s : State) (b : Bool) : Kept s (s.signalMoves b) := by
  unfold State.signalMoves
  split
  · exact Kept.ite ((State.abandonFrame_kept s _).trans (State.settle_kept _)) (State.settle_kept s)
  · exact State.settle_kept s

theorem State.declareStall_kept (s : State) (f : Frame) : Kept s (s.declareStall f) := by
  have hline : Kept s (s.modPrint fun p =>
      PrintEngine.setLine { p.dropFrame with stall := some ⟨!p.busy, s.up⟩ }) :=
    State.modPrint_kept s (PrintEngine.setLine_jobs _)
  unfold State.declareStall
  dsimp only
  split
  · exact Kept.ite hline (hline.trans (State.breakJob_kept _ _ _))
  · exact hline

theorem State.endRead_kept (s : State) (j : Job) (ls : List PrintLine) : Kept s (s.endRead j ls) := by
  have hread : Kept s (s.modPrint fun p => { p with read := none }) := State.modPrint_kept s le_rfl
  unfold State.endRead
  dsimp only
  exact Kept.ite (hread.trans (State.breakJob_kept _ _ _))
    ((hread.trans (State.modPrint_kept _ (PrintEngine.modJob_jobs _ _ _))).trans (State.work_kept _))

theorem State.readDone_kept (s : State) (r : RecordRead) (j : Job) (i : Item) (b : List Byte) :
    Kept s (s.readDone r j i b) := by
  unfold State.readDone
  split
  · exact Kept.ite (State.endRead_kept s _ _)
      (Kept.ite (State.endRead_kept s _ _) (Kept.of rfl le_rfl rfl))
  · exact State.endRead_kept s _ _

theorem State.failRead_kept (s : State) : Kept s s.failRead := by
  unfold State.failRead
  split
  · exact (State.modPrint_kept s le_rfl).trans (State.breakJob_kept _ _ _)
  · exact Kept.refl s

theorem breakJobs_kept (o : JobOutcome) (js : List Job) (s : State) :
    Kept s (js.foldl (fun t j => t.breakJob j o) s) := by
  induction js generalizing s with
  | nil => exact Kept.refl s
  | cons j js ih => exact (State.breakJob_kept s j o).trans (ih _)

theorem State.stopPrinting_kept (s : State) : Kept s s.stopPrinting :=
  (State.modPrint_kept s le_rfl).trans (breakJobs_kept _ _ _)

/-! ## Events handed on -/

theorem State.skipSlip_kept (s : State) (x : Site) (r : EventRecord) : Kept s (s.skipSlip x r) :=
  (State.modLabel_kept s _ _).trans (State.putAnchored_kept _ _ _ _)

theorem State.testSlip_kept (s : State) (r : EventRecord) : Kept s (s.testSlip r) := by
  unfold State.testSlip
  split
  · exact Kept.refl s
  · refine Kept.ite ?_ (Kept.refl s)
    split
    · next h => exact State.requestSlip_kept s _ _ _ h
    · exact State.skipSlip_kept s _ _

theorem State.handOn_kept (s : State) (r : EventRecord) : Kept s (s.handOn r) := by
  unfold State.handOn
  dsimp only
  have h : Kept s ((s.modLabel r.site Site.popAdmission).admitRecord .events (.event r)).1 :=
    (State.modLabel_kept s _ _).trans (State.admitRecord_kept _ _ _)
  exact Kept.ite ((h.trans (State.modLabel_kept _ _ _)).trans (State.testSlip_kept _ r)) h

theorem State.handOnAll_kept (n : Nat) (s : State) (label : Nat) : Kept s (State.handOnAll n s label) := by
  induction n generalizing s with
  | zero => exact Kept.refl s
  | succ n ih =>
    unfold State.handOnAll
    split
    · exact Kept.refl s
    · exact (State.handOn_kept s _).trans (ih _)

/-! ## The site orders' parts -/

theorem State.liveMapChanges_kept (s : State) (x : Site) (m : ChannelMap) :
    Kept s (s.liveMapChanges x m) := by
  unfold State.liveMapChanges
  refine Kept.ite ?_ (Kept.refl s)
  refine Kept.trans ?_ (State.rechoose_kept _ _ _)
  exact (State.noteMapChange_kept s x.map m).trans (Kept.of rfl le_rfl rfl)

theorem State.firstPulse_kept (s : State) (x : Site) (l : PerClamp Nat) : Kept s (s.firstPulse x l) :=
  Kept.of rfl le_rfl rfl

theorem State.beginSurvey_kept (s : State) (k : Fin 8) (x : Site) (l : PerClamp Nat) :
    Kept s (s.beginSurvey k x l) := by
  unfold State.beginSurvey
  dsimp only
  refine Kept.trans ?_ (State.firstPulse_kept _ _ _)
  refine Kept.trans ?_ (State.put_kept _ _ _)
  refine Kept.trans ?_ (State.openInterval_kept _ k _)
  exact (State.modSite_kept s k _).trans (Kept.of rfl le_rfl rfl)

theorem State.handOnWaiting_kept (s : State) (n : Nat) : Kept s (s.handOnWaiting n) :=
  State.handOnAll_kept _ s n

theorem State.pause_kept (s : State) (k : Fin 8) (n : Nat) (c : Option VanLine) :
    Kept s (s.pause k n c) := by
  unfold State.pause
  dsimp only
  refine Kept.trans ?_ (State.put_kept _ _ _)
  refine Kept.trans ?_ (State.closeIntervalByOrder_kept _ _)
  refine Kept.trans (t := ((s.modSite k fun y => { y with state := .paused }).closeEventByOrder k
    .paused).handOnWaiting n) ?_ (Kept.of rfl le_rfl rfl)
  exact ((State.modSite_kept s k _).trans (State.closeEventByOrder_kept _ k _)).trans
    (State.handOnWaiting_kept _ n)

theorem State.resume_kept (s : State) (k : Fin 8) (x : Site) : Kept s (s.resume k x) := by
  unfold State.resume
  dsimp only
  refine Kept.trans ?_ (State.openInterval_kept _ k _)
  refine Kept.trans (t := ((s.modSite k fun y => { y with state := .surveying }).put x.label
    .resumed).applyPending k) ?_ (Kept.of rfl le_rfl rfl)
  exact ((State.modSite_kept s k _).trans (State.put_kept _ _ _)).trans (State.applyPending_kept _ k)

theorem State.abortCheck_kept (s : State) : Kept s s.abortCheck := by
  unfold State.abortCheck
  split
  · exact State.breakCheck_kept s _ _
  · exact Kept.refl s

theorem State.closeWork_kept (s : State) (k : Fin 8) (x : Site) : Kept s (s.closeWork k x) := by
  have hwait (t : State) : Kept t ((t.abandonTrackers x.label).handOnWaiting x.label) :=
    (State.abandonTrackers_kept t _).trans (State.handOnWaiting_kept _ _)
  unfold State.closeWork
  split
  case h_1 => exact (hwait s).trans (State.abortCheck_kept _)
  case h_2 =>
    exact (((State.abandonTrackers_kept s _).trans (State.closeEventByOrder_kept _ k _)).trans
      (State.handOnWaiting_kept _ _)).trans (State.closeIntervalByOrder_kept _ _)
  case h_3 => exact hwait s
  all_goals exact Kept.refl s

theorem State.leaveLive_kept (s : State) (w : SiteState) : Kept s (s.leaveLive w) := by
  unfold State.leaveLive
  exact Kept.ite (Kept.of rfl le_rfl rfl) (Kept.refl s)

/-! ## Van lines -/

theorem State.modVan_kept (s : State) (f : VanLines → VanLines) : Kept s (s.modVan f) := Kept.of rfl le_rfl rfl

theorem State.markEntry_kept (s : State) (e : Edge) (t : Time) : Kept s (s.markEntry e t) :=
  (State.putAnchored_kept s _ _ _).trans (State.modVan_kept _ _)

theorem State.lineEntry_kept (s : State) (l : VanLine) (e : Edge) (a : Level) (o : Option LineOutcome)
    (t : Time) : Kept s (s.lineEntry l e a o t) := State.put_kept s _ _

theorem State.pauseLive_kept (s : State) (l : VanLine) (e : Edge) (a : Level) (t : Time) :
    Kept s (s.pauseLive l e a t) := by
  unfold State.pauseLive
  split
  · exact Kept.ite ((State.pause_kept s _ _ _).trans (State.lineEntry_kept _ _ _ _ _ _))
      (State.lineEntry_kept s _ _ _ _ _)
  · exact State.lineEntry_kept s _ _ _ _ _

theorem State.restExit_kept (s : State) (w : WakeSource) : Kept s (s.restExit w) := by
  unfold State.restExit
  split
  · split
    · exact State.modVan_kept s _
    · exact Kept.refl s
  · exact Kept.refl s

theorem State.wakeAction_kept (s : State) (l : VanLine) : Kept s (s.wakeAction l) := by
  unfold State.wakeAction
  exact Kept.ite (Kept.refl s) ((State.wakeRequest_kept s _).trans (State.restExit_kept _ _))

theorem State.lineAction_kept (s : State) (line : VanLine) (a : LineAction) (e : Edge) (l : Level)
    (t : Time) : Kept s (s.lineAction line a e l t) := by
  unfold State.lineAction
  split
  · exact Kept.refl s
  · exact State.wakeAction_kept s _
  · exact State.markEntry_kept s _ _
  · exact State.lineEntry_kept s _ _ _ _ _
  · exact Kept.refl s
  · exact State.pauseLive_kept s _ _ _ _

theorem State.edge_kept (s : State) (line : VanLine) (l : LineState) (a : Level) (t : Time) :
    Kept s (s.edge line l a t) := by
  unfold State.edge
  exact Kept.ite ((State.lineAction_kept s _ _ _ _ _).trans (State.raise_kept _ _)) (Kept.refl s)

theorem State.modLine_kept (s : State) (l : VanLine) (f : LineState → LineState) :
    Kept s (s.modLine l f) := State.modVan_kept s _

end Sys2Proof.Machine

/-! # What every command keeps

`Sound` names what a command may not break: the queue, the clock, the agreement of part and link, the caps, the
bounds and the site table. Each command answers a next state that is sound after the state before it, and the five
invariants follow. -/

namespace Sys2Proof.Machine

/-- The queue is as it was, and each of the five invariants holds after if it held before. -/
structure Sound (s t : State) : Prop where
  queue : t.pending = s.pending
  clock : ClockLegal s → ClockLegal t
  link : LinkFitsPart s → LinkFitsPart t
  caps : StoreWithinCaps s → StoreWithinCaps t
  tables : TablesWithinBounds s → TablesWithinBounds t
  sites : SiteTableSound s → SiteTableSound t

theorem Sound.refl (s : State) : Sound s s := ⟨rfl, id, id, id, id, id⟩

theorem Sound.trans {s t u : State} (a : Sound s t) (b : Sound t u) : Sound s u :=
  ⟨b.queue.trans a.queue, b.clock ∘ a.clock, b.link ∘ a.link, b.caps ∘ a.caps, b.tables ∘ a.tables,
    b.sites ∘ a.sites⟩

theorem Sound.ite {s a b : State} {c : Prop} [Decidable c] (ha : Sound s a) (hb : Sound s b) :
    Sound s (if c then a else b) := by split <;> assumption

/-! ## The parts of a sound change -/

/-- What the Link Port holds beside attention is the same. -/
theorem SameLink.field {α : Type} {s t : State} (g : LinkPort → α) (hg : ∀ p, g { p with attention := 0 } = g p)
    (h : SameLink s t) : g t.lp = g s.lp := by
  rw [← hg t.lp, ← hg s.lp]
  exact congrArg g h

theorem linkFits_of_sameLink {s t : State} (h : SameLink s t) (hs : LinkFitsPart s) : LinkFitsPart t := by
  have hpart : t.lp.part = s.lp.part := SameLink.field (·.part) (fun _ => rfl) h
  have hlink : t.lp.link = s.lp.link := SameLink.field (·.link) (fun _ => rfl) h
  have hdep : t.lp.departure = s.lp.departure := SameLink.field (·.departure) (fun _ => rfl) h
  have hread : t.lp.anchorRead = s.lp.anchorRead := SameLink.field (·.anchorRead) (fun _ => rfl) h
  have hwalk : t.lp.walker = s.lp.walker := SameLink.field (·.walker) (fun _ => rfl) h
  unfold LinkFitsPart
  rw [hpart, hlink, hdep, hread, hwalk]
  exact hs

theorem SameSites.back {s t : State} (h : SameSites s t) {k : Fin 8} {y : Site} (hy : t.site k = some y) :
    ∃ x, s.site k = some x ∧ x.core = y.core := by
  have e := h k
  rw [hy] at e
  exact Option.map_eq_some_iff.mp e.symm

theorem SameSites.forth {s t : State} (h : SameSites s t) {k : Fin 8} {x : Site} (hx : s.site k = some x) :
    ∃ y, t.site k = some y ∧ y.core = x.core := by
  have e := h k
  rw [hx] at e
  exact Option.map_eq_some_iff.mp e

theorem Site.label_of_core {x y : Site} (h : x.core = y.core) : x.label = y.label := congrArg SiteCore.label h

theorem Site.state_of_core {x y : Site} (h : x.core = y.core) : x.state = y.state := congrArg SiteCore.state h

/-- The site table speaks of cores alone, and the check of its slot. -/
theorem siteTableSound_of_sameSites {s t : State} (h : SameSites s t) (hk : Kept s t) (hs : SiteTableSound s) :
    SiteTableSound t := by
  obtain ⟨hslots, hcheck⟩ := hs
  refine ⟨fun j k x y hx hy hxy => ?_, fun c hc => ?_⟩
  · obtain ⟨x', hx', ex⟩ := h.back hx
    obtain ⟨y', hy', ey⟩ := h.back hy
    refine hslots j k x' y' hx' hy' ?_
    rwa [Site.label_of_core ex, Site.label_of_core ey, Site.state_of_core ex, Site.state_of_core ey]
  · obtain ⟨d, hd, e⟩ := hk.check c hc
    obtain ⟨x, hx, hst⟩ := hcheck d hd
    obtain ⟨y, hy, ey⟩ := h.forth (e ▸ hx)
    exact ⟨y, hy, (Site.state_of_core ey).trans hst⟩

/-- A steady change that keeps the store and the tables, and whose site table is sound. -/
theorem Sound.of_steady {s t : State} (h : Steady s t) (k : Kept s t) (hs : SiteTableSound s → SiteTableSound t) :
    Sound s t where
  queue := h.time.1
  clock := by unfold ClockLegal; rw [h.time.2.2]; exact id
  link := linkFits_of_sameLink h.link
  caps := k.caps
  tables := k.tables
  sites := hs

/-- A quiet change that keeps the store and the tables. -/
theorem Sound.of_quiet {s t : State} (h : Quiet s t) (k : Kept s t) : Sound s t :=
  Sound.of_steady h.steady k (siteTableSound_of_sameSites h.sites k)

/-- The same queue, time and site table, with the link and the rest kept. -/
theorem Sound.of_link {s t : State} (h1 : t.pending = s.pending) (h2 : t.clock = s.clock) (h3 : t.sites = s.sites)
    (k : Kept s t) (hl : LinkFitsPart s → LinkFitsPart t) : Sound s t where
  queue := h1
  clock := by unfold ClockLegal; rw [h2]; exact id
  link := hl
  caps := k.caps
  tables := k.tables
  sites := siteTableSound_of_sameSites (fun j => by simp only [State.site, h3]) k

/-- A link command's change of the Link Port alone. -/
theorem State.modLink_sound (s : State) {f : LinkPort → LinkPort}
    (h : LinkFitsPart s → LinkFitsPart (s.modLink f)) : Sound s (s.modLink f) :=
  Sound.of_link rfl rfl rfl (Kept.of rfl le_rfl rfl) h

/-- The survey clock is legal whatever time passes (R34). -/
theorem Time.advance_legal (t : Time) (dt : Nat) : (t.advance dt).sec ≤ 4294967295 ∧ (t.advance dt).ms ≤ 999 := by
  simp only [Time.advance]
  omega

theorem State.elapse_sound (s : State) (dt : Nat) : Sound s (s.elapse dt) where
  queue := rfl
  clock _ := s.clock.advance_legal dt
  link := id
  caps := id
  tables := id
  sites := id

/-! ## The site table (R1, R5, R38) -/

/-- Two slots that hold one label, or two live sites, are one slot. -/
theorem SiteTableSound.slot_eq {s : State} (h : SiteTableSound s) {j k : Fin 8} {x y : Site}
    (hx : s.site j = some x) (hy : s.site k = some y) (hxy : x.label = y.label ∨
      (x.state.isLive = true ∧ y.state.isLive = true)) : j = k := h.1 j k x y hx hy hxy

/-- A slot gets a site whose label no other slot holds, live only if no other site is. -/
theorem SiteTableSound.place {s t : State} {k : Fin 8} {y : Site} (h : SiteTableSound s)
    (hk : t.site k = some y) (ho : ∀ j, j ≠ k → t.site j = s.site j)
    (hlabel : ∀ j x, j ≠ k → s.site j = some x → x.label ≠ y.label)
    (hlive : y.state.isLive = true → ∀ j x, j ≠ k → s.site j = some x → x.state.isLive = false)
    (hcheck : ∀ c, t.check = some c → ∃ x, t.site c.slot = some x ∧ x.state = .checking) : SiteTableSound t := by
  have other : ∀ j x, j ≠ k → t.site j = some x → x.label = y.label ∨ (x.state.isLive = true ∧
      y.state.isLive = true) → False := by
    intro j x hj hx hxy
    rw [ho j hj] at hx
    rcases hxy with e | ⟨lx, ly⟩
    · exact hlabel j x hj hx e
    · simp [hlive ly j x hj hx] at lx
  refine ⟨fun i j x z hx hz hxz => ?_, hcheck⟩
  by_cases hi : i = k <;> by_cases hj : j = k
  · rw [hi, hj]
  · subst hi
    rw [hk] at hx
    cases hx
    exact (other j z hj hz (hxz.imp Eq.symm And.symm)).elim
  · subst hj
    rw [hk] at hz
    cases hz
    exact (other i x hi hx hxz).elim
  · rw [ho i hi] at hx
    rw [ho j hj] at hz
    exact h.slot_eq hx hz hxz

/-- A site changes its state in its slot. -/
theorem SiteTableSound.modSite {s : State} {k : Fin 8} {x : Site} (f : Site → Site) (h : SiteTableSound s)
    (hx : s.site k = some x) (hlabel : (f x).label = x.label)
    (hlive : (f x).state.isLive = true → x.state.isLive = true ∨
      ∀ j z, j ≠ k → s.site j = some z → z.state.isLive = false)
    (hcheck : x.state = .checking → s.check ≠ none → (f x).state = .checking) :
    SiteTableSound (s.modSite k f) := by
  have hk : (s.modSite k f).site k = some (f x) := by rw [State.site_modSite, if_pos rfl, hx]; rfl
  have ho : ∀ j, j ≠ k → (s.modSite k f).site j = s.site j := fun j hj => by
    rw [State.site_modSite, if_neg (Ne.symm hj)]
  have hchk : (s.modSite k f).check = s.check := (State.modSite_aside s k f).check
  refine h.place hk ho (fun j z hj hz e => hj (h.slot_eq hz hx (Or.inl (e.trans hlabel)))) ?_ ?_
  · intro hl j z hj hz
    rcases hlive hl with hxl | hnone
    · by_contra hz'
      exact hj (h.slot_eq hz hx (Or.inr ⟨by simpa using hz', hxl⟩))
    · exact hnone j z hj hz
  · intro c hc
    rw [hchk] at hc
    obtain ⟨z, hz, hst⟩ := h.2 c hc
    by_cases e : c.slot = k
    · rw [e, hx] at hz
      cases hz
      exact ⟨f x, e ▸ hk, hcheck hst (by simp [hc])⟩
    · exact ⟨z, (ho _ e).trans hz, hst⟩

/-- A check that ends leaves the table sound. -/
theorem SiteTableSound.dropCheck {s : State} (h : SiteTableSound s) : SiteTableSound { s with check := none } :=
  ⟨h.1, fun _ hc => by cases hc⟩

theorem isLive_checking : SiteState.checking.isLive = true := rfl

/-! ## The end of a check (R50) -/

theorem State.endCheck_sound (s : State) (c d : CheckRecord) (v : CheckVerdict) (b : Bool) (o : Conclusion)
    (hd : s.check = some d) (hslot : d.slot = c.slot) : Sound s (s.endCheck c v b o) := by
  refine Sound.of_steady (State.endCheck_steady s c v b o) (State.endCheck_kept s c v b o) fun h => ?_
  obtain ⟨x, hx, hst⟩ := h.2 d hd
  rw [hslot] at hx
  unfold State.endCheck
  rw [hx]
  dsimp only
  have hmod := h.dropCheck.modSite (k := c.slot)
    (fun y => y.endCheck c (x.returnState.getD .drafted) v o) hx rfl
    (fun _ => Or.inl (by rw [hst]; rfl)) (fun _ hne => absurd rfl hne)
  exact siteTableSound_of_sameSites (State.afterCheck_quiet _ _ _ _ _ _ _).sites (State.afterCheck_kept _ _ _ _ _ _ _)
    hmod

theorem State.breakCheck_sound (s : State) (c d : CheckRecord) (v : CheckVerdict) (hd : s.check = some d)
    (hslot : d.slot = c.slot) : Sound s (s.breakCheck c v) := by
  unfold State.breakCheck
  split
  · exact Sound.of_steady (Steady.of rfl rfl rfl rfl) (State.dropCheck_kept s) SiteTableSound.dropCheck
  · exact State.endCheck_sound s c d v _ _ hd hslot

theorem State.breakOnLead_sound (s : State) (i : Input) : Sound s (s.breakOnLead i) := by
  unfold State.breakOnLead
  split
  · next c hc => exact Sound.ite (State.breakCheck_sound s c c _ hc rfl) (Sound.refl s)
  · exact Sound.refl s

theorem State.abortCheck_sound (s : State) : Sound s s.abortCheck := by
  unfold State.abortCheck
  split
  · next c hc => exact State.breakCheck_sound s c c _ hc rfl
  · exact Sound.refl s

/-- Close Site's end of a check leaves none. -/
theorem State.endCheck_check (s : State) (c : CheckRecord) (v : CheckVerdict) (b : Bool) (o : Conclusion) :
    (s.endCheck c v b o).check = none := by
  unfold State.endCheck
  split
  · rfl
  · next x hx =>
    cases h : State.check _ with
    | none => rfl
    | some d =>
      have hk := (State.modSite_kept { s with check := none } c.slot
        (·.endCheck c (x.returnState.getD .drafted) v o)).trans (State.afterCheck_kept _ c.slot x
          (x.returnState.getD .drafted) v o (checkReport c x (x.returnState.getD .drafted) v b o))
      obtain ⟨e, he, _⟩ := hk.check d h
      cases he

theorem State.breakCheck_check (s : State) (c : CheckRecord) (v : CheckVerdict) : (s.breakCheck c v).check = none := by
  unfold State.breakCheck
  split
  · rfl
  · exact State.endCheck_check s c v _ _

theorem State.abortCheck_check (s : State) : s.abortCheck.check = none := by
  unfold State.abortCheck
  split
  · exact State.breakCheck_check s _ _
  · next h => exact h

/-! ## Half-cycles, blocks and leads -/

theorem State.endHalf_sound (s : State) (k : Fin 8) (x : Site) (m : PerInput (List Int)) :
    Sound s (s.endHalf k x m) := Sound.of_quiet (State.endHalf_quiet s k x m) (State.endHalf_kept s k x m)

theorem State.checkBlock_sound (s : State) (x : Site) (b : BlockResult) (began fin : Stamp) :
    Sound s (s.checkBlock x b began fin) := by
  unfold State.checkBlock
  split
  · exact Sound.refl s
  · next c hc =>
    have hslot := (CheckRecord.takeBlock_slot c x b began fin).symm
    dsimp only
    refine Sound.ite (State.breakCheck_sound s _ c _ hc hslot) (Sound.of_quiet (Quiet.of rfl rfl rfl rfl rfl) ?_)
    refine Kept.ofCheck rfl rfl ?_
    rintro _ ⟨⟩
    exact ⟨c, hc, hslot⟩

theorem State.endBlock_sound (s : State) (x : Site) (b : BlockResult) (l : PerClamp Nat) :
    Sound s (s.endBlock x b l) :=
  ((Sound.of_quiet (State.takeBlock_quiet s b) (State.takeBlock_kept s b)).trans
    (State.checkBlock_sound _ x b _ _)).trans
    (Sound.of_quiet (State.beginBlock_quiet _ l) (State.beginBlock_kept _ l))

theorem State.declareLost_sound (s : State) (k : Fin 8) (x : Site) (i : Input) (l : Loss) (a : Bool) :
    Sound s (s.declareLost k x i l a) := by
  have hmark : Sound s (s.markLost k i) :=
    Sound.of_quiet (Quiet.after (State.modSite_quiet _ k fun _ => rfl) rfl rfl rfl rfl rfl)
      (Kept.after (State.modSite_kept _ k _) rfl le_rfl rfl)
  have hput (t : State) (n : Nat) (b : EntryBody) : Sound t (t.put n b) :=
    Sound.of_quiet (State.put_quiet t n b) (State.put_kept t n b)
  have hline (t : State) : Sound t (t.lineLost k x i a) :=
    Sound.of_quiet (State.lineLost_quiet t k x i a) (State.lineLost_kept t k x i a)
  have hraise (t : State) : Sound t (t.raise .lead) :=
    Sound.of_quiet (State.raise_quiet t .lead) (State.raise_kept t .lead)
  exact (((hmark.trans (hput _ _ _)).trans (hline _)).trans (hraise _)).trans (State.breakOnLead_sound _ i)

theorem State.declarePresent_sound (s : State) (k : Fin 8) (x : Site) (i : Input) (w : LeadState) (c : Stamp) :
    Sound s (s.declarePresent k x i w c) := by
  have hmark : Sound s ({ s with watch := s.watch.set i (some w.declarePresent) }.modSite k (·.restoreLead i)) :=
    Sound.of_quiet (Quiet.after (State.modSite_quiet _ k fun _ => rfl) rfl rfl rfl rfl rfl)
      (Kept.after (State.modSite_kept _ k _) rfl le_rfl rfl)
  have hput (t : State) (n : Nat) (b : EntryBody) : Sound t (t.put n b) :=
    Sound.of_quiet (State.put_quiet t n b) (State.put_kept t n b)
  have hline (t : State) : Sound t (t.lineRestored k x i) :=
    Sound.of_quiet (State.lineRestored_quiet t k x i) (State.lineRestored_kept t k x i)
  have hraise (t : State) : Sound t (t.raise .lead) :=
    Sound.of_quiet (State.raise_quiet t .lead) (State.raise_kept t .lead)
  exact (((hmark.trans (hput _ _ _)).trans (hline _)).trans (hraise _)).trans (State.breakOnLead_sound _ i)


/-! ## The site orders (R8 to R17) -/

theorem State.put_sound (s : State) (n : Nat) (b : EntryBody) : Sound s (s.put n b) :=
  Sound.of_quiet (State.put_quiet s n b) (State.put_kept s n b)

theorem State.setSlot_site_ne (s : State) {j k : Fin 8} (x : Option Site) (h : j ≠ k) :
    (s.setSlot k x).site j = s.site j := by rw [State.site_setSlot, if_neg (Ne.symm h)]

theorem State.setSlot_site_same (s : State) (k : Fin 8) (x : Option Site) : (s.setSlot k x).site k = x := by
  rw [State.site_setSlot, if_pos rfl]

theorem State.emptySlot_empty {s : State} {k : Fin 8} (h : s.emptySlot = some k) : s.site k = none := by
  simpa using List.find?_some h

/-- A site found by its label is not the site of another slot. -/
theorem State.otherLive_false {s : State} {k : Fin 8} (h : ¬ s.otherLive k = true) (hs : SiteTableSound s) :
    ∀ j z, j ≠ k → s.site j = some z → z.state.isLive = false := by
  intro j z hj hz
  by_contra hlive
  have hlive : z.state.isLive = true := by simpa using hlive
  unfold State.otherLive at h
  cases e : s.liveSlot with
  | none => simp [State.liveSlot_none.mp e j z hz] at hlive
  | some i =>
    rw [e] at h
    have hik : i = k := by simpa using h
    have hi := List.find?_some e
    split at hi
    · next y hy => exact hj ((hs.slot_eq hz hy (Or.inr ⟨hlive, hi⟩)).trans hik)
    · cases hi

theorem State.createSite_sound (s : State) (b : CreateSiteBody) : Sound s (s.createSite b).state := by
  unfold State.createSite
  split
  · exact Sound.refl s
  · next w o hj =>
    split
    · exact Sound.refl s
    · next hfree =>
      split
      · exact Sound.refl s
      · next k hk =>
        refine Sound.trans (t := s.setSlot k (some (Site.create b w o s.clock))) ?_ (State.put_sound _ _ _)
        refine Sound.of_steady (State.setSlot_steady s k _) (State.setSlot_kept s k _) fun h => ?_
        have hnew : ∀ j x, s.site j = some x → x.label ≠ b.label :=
          State.findSlot_none.mp (by simpa using hfree)
        refine h.place (k := k) (State.setSlot_site_same s k _) (fun j hj => State.setSlot_site_ne s _ hj)
          (fun j x _ hx => hnew j x hx) (fun hl => by cases hl) fun c hc => ?_
        obtain ⟨x, hx, hst⟩ := h.2 c hc
        have hne : c.slot ≠ k := fun e => by rw [e, State.emptySlot_empty hk] at hx; cases hx
        exact ⟨x, (State.setSlot_site_ne s _ hne).trans hx, hst⟩

/-- The common judgement is sound where the order is, on the site it finds. -/
theorem State.judgeSite_sound (s : State) (n : Nat) (b : Bool) (f : Fin 8 → Site → Answer)
    (h : ∀ k x, s.site k = some x → Sound s (f k x).state) : Sound s (s.judgeSite n b f).state :=
  State.judgeSite_cases s n b f (P := fun a => Sound s a.state) (fun _ => Sound.refl s) fun k x _ hx => h k x hx

/-- A change of the site found that leaves its label, and its state but for what the table allows. -/
theorem State.modSite_sound (s : State) {k : Fin 8} {x : Site} (f : Site → Site) (hx : s.site k = some x)
    (hlabel : (f x).label = x.label)
    (hlive : SiteTableSound s → (f x).state.isLive = true → x.state.isLive = true ∨
      ∀ j z, j ≠ k → s.site j = some z → z.state.isLive = false)
    (hcheck : x.state = .checking → s.check ≠ none → (f x).state = .checking) : Sound s (s.modSite k f) :=
  Sound.of_steady (State.modSite_steady s k f) (State.modSite_kept s k f) fun h =>
    h.modSite f hx hlabel (hlive h) hcheck

theorem State.setMap_sound (s : State) (b : SetMapBody) : Sound s (s.setMap b).state := by
  have set (k : Fin 8) (x : Site) (hx : s.site k = some x) (hst : x.state ≠ .checking) (m : ChannelMap) :
      Sound s (((s.modSite k (·.setMap m)).liveMapChanges x m).put x.label (.mapChanged m)) := by
    refine Sound.trans (Sound.trans ?_ (Sound.of_quiet (?_ : Quiet (s.modSite k (·.setMap m)) _)
      (State.liveMapChanges_kept _ x m))) (State.put_sound _ _ _)
    · refine State.modSite_sound s _ hx rfl (fun _ hl => Or.inl ?_) fun h => absurd h hst
      unfold Site.setMap at hl
      dsimp only at hl
      split at hl
      · cases hl
      · exact hl
    · unfold State.liveMapChanges
      refine Quiet.ite ?_ (Quiet.refl _)
      refine Quiet.trans ?_ (State.rechoose_quiet _ _ _)
      exact (State.noteMapChange_quiet _ x.map m).before rfl rfl rfl rfl rfl
  refine State.judgeSite_sound s _ _ _ fun k x hx => ?_
  split
  · exact Sound.refl s
  · dsimp only
    split
    case h_1 | h_2 | h_3 => exact Sound.refl s
    all_goals
      next hst => exact set k x hx (by rw [hst]; decide) _

theorem State.setLimits_sound (s : State) (b : SetLimitsBody) : Sound s (s.setLimits b).state := by
  have apply (k : Fin 8) : Sound s (s.applyLimits k b.limits) :=
    Sound.of_quiet (State.applyLimits_quiet s k _) (State.applyLimits_kept s k _)
  have pend (k : Fin 8) : Sound s (s.modSite k fun y => { y with pendingSet := some b.limits }) :=
    Sound.of_quiet (State.modSite_quiet s k fun _ => rfl) (State.modSite_kept s k _)
  refine State.judgeSite_sound s _ _ _ fun k x hx => ?_
  split
  · exact Sound.refl s
  · exact apply k
  · exact apply k
  · exact pend k
  · exact pend k
  · exact pend k

theorem State.startSurvey_sound (s : State) (n : Nat) (u : Bool) (l : PerClamp Nat) :
    Sound s (s.startSurvey n u l).state := by
  refine State.judgeSite_sound s _ _ _ fun k x hx => ?_
  split
  · exact Sound.refl s
  · next hstart =>
    split
    · exact Sound.refl s
    · next hother =>
      refine Sound.of_steady (State.beginSurvey_steady s k x l) (State.beginSurvey_kept s k x l) fun h => ?_
      have hst : x.state ≠ .checking := fun e => by rw [e] at hstart; simp [startable] at hstart
      have h1 := h.modSite (·.start s.clock) hx rfl (fun _ => Or.inr (State.otherLive_false hother h))
        (fun e => absurd e hst)
      let t := (((s.modSite k (·.start s.clock)).startFrontEnd x.map).startWatch x.map).startDetectors x.map
      have hput : Sound t ((t.openInterval k s.clock).put x.label (.started x.version (decide (x.state = .drafted)))) :=
        Sound.of_quiet ((State.openInterval_quiet t k _).trans (State.put_quiet _ _ _))
          ((State.openInterval_kept t k _).trans (State.put_kept _ _ _))
      exact hput.sites h1

theorem State.pause_sound (s : State) (k : Fin 8) (n : Nat) (c : Option VanLine) {x : Site}
    (hx : s.site k = some x) (hst : x.state = .surveying) : Sound s (s.pause k n c) := by
  refine Sound.of_steady (State.pause_steady s k n c) (State.pause_kept s k n c) fun h => ?_
  have h1 := h.modSite (fun y => { y with state := .paused }) hx rfl (fun _ => Or.inl (by rw [hst]; rfl))
    (fun e => by rw [hst] at e; cases e)
  let t := (((s.modSite k fun y => { y with state := .paused }).closeEventByOrder k .paused).handOnWaiting n)
  have q1 : Sound (s.modSite k fun y => { y with state := .paused }) t :=
    Sound.of_quiet ((State.closeEventByOrder_quiet _ k _).trans (State.handOnWaiting_quiet _ n))
      ((State.closeEventByOrder_kept _ k _).trans (State.handOnWaiting_kept _ n))
  let u := { t with sag := { t.sag with detectors := t.sag.detectors.map (Option.map Detector.hold) } }
  have q2 : Sound t u := Sound.of_quiet (Quiet.of rfl rfl rfl rfl rfl) (Kept.of rfl le_rfl rfl)
  have q3 : Sound u ((u.closeIntervalByOrder .paused).put n (.paused c)) :=
    Sound.of_quiet ((State.closeIntervalByOrder_quiet _ _).trans (State.put_quiet _ _ _))
      ((State.closeIntervalByOrder_kept _ _).trans (State.put_kept _ _ _))
  exact ((q1.trans q2).trans q3).sites h1

theorem State.pauseSurvey_sound (s : State) (n : Nat) : Sound s (s.pauseSurvey n).state := by
  refine State.judgeSite_sound s _ _ _ fun k x hx => ?_
  split
  · exact Sound.refl s
  · next h => exact State.pause_sound s k _ _ hx (not_not.mp h)

theorem State.resume_sound (s : State) {k : Fin 8} {x : Site} (hx : s.site k = some x) (hst : x.state = .paused) :
    Sound s (s.resume k x) := by
  let t := s.modSite k fun y => { y with state := .surveying }
  have h1 : Sound s t := State.modSite_sound s _ hx rfl (fun _ _ => Or.inl (by rw [hst]; rfl))
    (fun e => by rw [hst] at e; cases e)
  have h2 : Sound t ((t.put x.label .resumed).applyPending k) :=
    Sound.of_quiet ((State.put_quiet _ _ _).trans (State.applyPending_quiet _ k))
      ((State.put_kept _ _ _).trans (State.applyPending_kept _ k))
  have h3 (u : State) : Sound u ((u.startDetectors x.map).openInterval k s.clock) :=
    Sound.of_quiet (Quiet.after (State.openInterval_quiet _ k _) rfl rfl rfl rfl rfl)
      (Kept.after (State.openInterval_kept _ k _) rfl le_rfl rfl)
  exact (h1.trans h2).trans (h3 _)

theorem State.resumeSurvey_sound (s : State) (n : Nat) : Sound s (s.resumeSurvey n).state := by
  refine State.judgeSite_sound s _ _ _ fun k x hx => ?_
  split
  · exact Sound.refl s
  · next h => exact State.resume_sound s hx (not_not.mp h)

/-- The waiting work of a site that closes. -/
theorem State.handOnForClose_sound (s : State) (n : Nat) : Sound s ((s.abandonTrackers n).handOnWaiting n) :=
  Sound.of_quiet ((State.abandonTrackers_quiet s n).trans (State.handOnWaiting_quiet _ n))
    ((State.abandonTrackers_kept s n).trans (State.handOnWaiting_kept _ n))

theorem State.closeWork_sound (s : State) (k : Fin 8) (x : Site) : Sound s (s.closeWork k x) := by
  unfold State.closeWork
  split
  · exact (State.handOnForClose_sound s _).trans (State.abortCheck_sound _)
  · exact Sound.of_quiet ((((State.abandonTrackers_quiet s _).trans (State.closeEventByOrder_quiet _ k _)).trans
      (State.handOnWaiting_quiet _ _)).trans (State.closeIntervalByOrder_quiet _ _))
      ((((State.abandonTrackers_kept s _).trans (State.closeEventByOrder_kept _ k _)).trans
      (State.handOnWaiting_kept _ _)).trans (State.closeIntervalByOrder_kept _ _))
  · exact State.handOnForClose_sound s _
  all_goals exact Sound.refl s

/-- A slot that closes: the label stays, and no check is left on it. -/
theorem SiteTableSound.close {s t : State} {k : Fin 8} {now : Time} (h : SiteTableSound t)
    (hck : ∀ c, t.check = some c → c.slot ≠ k) (hs : s = t.modSite k (·.close now)) : SiteTableSound s := by
  subst hs
  cases hx : t.site k with
  | none => unfold State.modSite; rw [hx]; exact h
  | some x =>
    refine h.place (k := k) (y := x.close now) ?_ (fun j hj => by rw [State.site_modSite, if_neg (Ne.symm hj)])
      (fun j z hj hz e => hj (h.slot_eq hz hx (Or.inl e))) (fun hl => by cases hl) fun c hc => ?_
    · rw [State.site_modSite, if_pos rfl, hx]; rfl
    · rw [(State.modSite_aside t k _).check] at hc
      obtain ⟨z, hz, hst⟩ := h.2 c hc
      exact ⟨z, by rw [State.site_modSite, if_neg (Ne.symm (hck c hc))]; exact hz, hst⟩

theorem State.leaveLive_sound (s : State) (w : SiteState) : Sound s (s.leaveLive w) := by
  unfold State.leaveLive
  exact Sound.ite (Sound.of_quiet (Quiet.of rfl rfl rfl rfl rfl) (Kept.of rfl le_rfl rfl)) (Sound.refl s)

theorem State.closeSite_sound (s : State) (n : Nat) : Sound s (s.closeSite n).state := by
  refine State.judgeSite_sound s _ _ _ fun k x hx => ?_
  split
  · exact Sound.refl s
  · have hwork := State.closeWork_sound s k x
    refine Sound.of_steady ?_ ?_ fun h => ?_
    · refine Steady.trans ?_ (State.put_quiet _ _ _).steady
      exact ((State.closeWork_steady s k x).trans (State.modSite_steady _ k _)).trans (State.leaveLive_steady _ _)
    · refine Kept.trans ?_ (State.put_kept _ _ _)
      exact ((State.closeWork_kept s k x).trans (State.modSite_kept _ k _)).trans (State.leaveLive_kept _ _)
    · have hck : ∀ c, (s.closeWork k x).check = some c → c.slot ≠ k := by
        intro c hc e
        obtain ⟨d, hd, hslot⟩ := (State.closeWork_kept s k x).check c hc
        obtain ⟨z, hz, hst⟩ := h.2 d hd
        rw [hslot, e, hx] at hz
        cases hz
        unfold State.closeWork at hc
        rw [hst] at hc
        rw [State.abortCheck_check] at hc
        cases hc
      have hmod := (hwork.sites h).close hck rfl (now := s.clock)
      exact ((State.leaveLive_sound _ x.state).trans (State.put_sound _ _ _)).sites hmod

theorem State.discardSite_sound (s : State) (n : Nat) : Sound s (s.discardSite n).state := by
  refine State.judgeSite_sound s _ _ _ fun k x hx => ?_
  split_ifs with hst
  iterate 3 exact Sound.refl s
  refine Sound.of_steady (State.setSlot_steady s k none) (State.setSlot_kept s k none) fun h => ?_
  have away : ∀ j z, (s.setSlot k none).site j = some z → j ≠ k ∧ s.site j = some z := by
    intro j z hz
    by_cases e : j = k
    · rw [e, State.setSlot_site_same] at hz
      cases hz
    · exact ⟨e, by rwa [State.setSlot_site_ne s _ e] at hz⟩
  refine ⟨fun i j y z hy hz hyz => h.slot_eq (away i y hy).2 (away j z hz).2 hyz, fun c hc => ?_⟩
  obtain ⟨z, hz, hck⟩ := h.2 c hc
  have hne : c.slot ≠ k := fun e => by
    rw [e, hx] at hz
    cases hz
    simp [hck] at hst
  exact ⟨z, (State.setSlot_site_ne s _ hne).trans hz, hck⟩

/-! ## Checks, the clock, snapshots and notes (R36, R39, R40, R80, R110) -/

theorem State.beginCheck_sound (s : State) {k : Fin 8} {x : Site} (l : PerClamp Nat) (hx : s.site k = some x)
    (hother : ¬ s.otherLive k = true) : Sound s (s.beginCheck k x l) := by
  let t := ((s.modSite k fun y => { y with state := .checking, returnState := some (returnFor x.state) }).checkStarts
    x).checkPulse x l
  have hstore : t.store = s.store ∧ t.print = s.print ∧ t.sites = (s.modSite k fun y =>
      { y with state := .checking, returnState := some (returnFor x.state) }).sites := by
    unfold t State.checkPulse State.checkStarts
    rw [State.modSite_at _ hx]
    split <;> exact ⟨rfl, rfl, rfl⟩
  obtain ⟨hst, hpr, hsites⟩ := hstore
  let u := { t with check := some (CheckRecord.fresh k x.map t.fe.sense l s.now) }
  have hput : Sound u (s.beginCheck k x l) := State.put_sound u _ _
  have hsteady := State.beginCheck_steady s k x l
  refine ⟨hsteady.time.1, ?_, linkFits_of_sameLink hsteady.link, fun h => hput.caps ?_, fun h => hput.tables ?_,
    fun h => hput.sites ?_⟩
  · unfold ClockLegal; rw [hsteady.time.2.2]; exact id
  · exact (show StoreWithinCaps t by unfold StoreWithinCaps; rw [hst]; exact h)
  · exact (show TablesWithinBounds t by unfold TablesWithinBounds; rw [hst, hpr]; exact h)
  · have hsite : ∀ j, u.site j = (s.modSite k fun y =>
        { y with state := .checking, returnState := some (returnFor x.state) }).site j := fun j =>
      congrArg (fun v : Vector (Option Site) 8 => v[j]) hsites
    refine h.place (k := k) (y := { x with state := .checking, returnState := some (returnFor x.state) }) ?_
      (fun j hj => ?_) (fun j z hj hz e => hj (h.slot_eq hz hx (Or.inl e)))
      (fun _ => State.otherLive_false hother h) ?_
    · rw [hsite, State.site_modSite, if_pos rfl, hx]; rfl
    · rw [hsite, State.site_modSite, if_neg (Ne.symm hj)]
    · rintro _ ⟨⟩
      refine ⟨{ x with state := .checking, returnState := some (returnFor x.state) }, ?_, rfl⟩
      change u.site k = _
      rw [hsite, State.site_modSite, if_pos rfl, hx]; rfl

theorem State.startCheck_sound (s : State) (n : Nat) (l : PerClamp Nat) : Sound s (s.startCheck n l).state := by
  refine State.judgeSite_sound s _ _ _ fun k x hx => ?_
  have begin_ : Sound s (if s.otherLive k then refuse s .siteLive else accept (s.beginCheck k x l) []).state := by
    split
    · exact Sound.refl s
    · next h => exact State.beginCheck_sound s l hx h
  split
  · exact Sound.refl s
  · exact Sound.refl s
  · exact Sound.refl s
  · exact begin_
  · exact begin_
  · exact begin_

theorem State.cancelCheck_sound (s : State) (n : Nat) : Sound s (s.cancelCheck n).state := by
  refine State.judgeSite_sound s _ _ _ fun k x hx => ?_
  split
  · next c _ hc => exact State.breakCheck_sound s c c _ hc rfl
  · exact Sound.refl s

theorem State.setClock_sound (s : State) (sec ms : Nat) : Sound s (s.setClock sec ms).state := by
  unfold State.setClock
  split
  · exact Sound.refl s
  · next hlegal =>
    split
    · exact Sound.refl s
    · refine Sound.trans (t := { s with clock := ⟨sec, ms, false⟩ }) ?_ (State.put_sound _ _ _)
      exact ⟨rfl, fun _ => ⟨by dsimp only; omega, by dsimp only; omega⟩, id, id, id, id⟩

theorem State.snapshot_sound (s : State) (n : Nat) : Sound s (s.snapshot n).state := by
  refine State.judgeSite_sound s _ _ _ fun k x hx => ?_
  split
  · exact Sound.refl s
  · split
    · exact Sound.refl s
    · exact Sound.of_quiet (State.claim_quiet s _ _ _) (State.claim_kept s _ _ _)

theorem State.addNote_sound (s : State) (b : AddNoteBody) : Sound s (s.addNote b).state := by
  unfold State.addNote
  split
  · exact Sound.refl s
  · dsimp only
    split <;> exact Sound.of_quiet (State.enter_quiet s _) (State.enter_kept s _)

/-! ## The orders of the store, the printer and the van lines (R125, R133, R134, R140, R155, R158, R161) -/

theorem State.givePages_sound (s : State) (c : Nat) (ps : List WRef) (r : Nat) :
    Sound s (s.givePages c ps r).state := by
  unfold State.givePages
  split_ifs
  · exact Sound.refl s
  · exact Sound.refl s
  · exact Sound.of_quiet (State.judgePages_quiet ps s) (State.judgePages_kept ps s)

theorem State.flushStreams_sound (s : State) (m r : Nat) : Sound s (s.flushStreams m r).state := by
  unfold State.flushStreams
  split
  · exact Sound.refl s
  · obtain ⟨h1, h2⟩ := RecordStore.flush_occupancy s.store m
    exact Sound.of_quiet (Quiet.of rfl rfl rfl rfl rfl) (Kept.ofStore h1.le h2.le id rfl)

theorem State.setStoreLevels_sound (s : State) (l : StoreLevels) (r : Nat) :
    Sound s (s.setStoreLevels l r).state := by
  unfold State.setStoreLevels
  split
  · exact Sound.refl s
  split
  · exact Sound.refl s
  · exact Sound.of_quiet (Quiet.of rfl rfl rfl rfl rfl) (Kept.ofStore le_rfl le_rfl id rfl)

theorem State.judgeJob_sound (s : State) (c : Nat) (is : List RawItem) : Sound s (s.judgeJob c is).state := by
  unfold State.judgeJob
  split_ifs with _ _ hfull
  iterate 3 exact Sound.refl s
  split
  · exact Sound.refl s
  · next r hr =>
    obtain ⟨e, hpins⟩ := requestPins_ok hr
    have hroom : s.print.jobs.length < 8 := by
      simp only [Config.printQueueMax, not_le] at hfull
      exact hfull
    refine Sound.of_quiet (Quiet.after (State.createJob_quiet _ _ _ _ _ _ _) rfl rfl rfl rfl rfl) ?_
    refine Kept.trans (t := { s with store := r }) ?_ (State.createJob_kept _ _ _ _ _ _ _ hroom)
    subst e
    exact Kept.ofStore le_rfl le_rfl (fun ⟨a, b, _, d⟩ => ⟨a, b, hpins, d⟩) rfl

theorem State.queuePrint_sound (s : State) (b : QueuePrintBody) (r : Nat) :
    Sound s (s.queuePrint b r).state := by
  unfold State.queuePrint
  split
  · exact Sound.refl s
  · split
    · exact Sound.refl s
    · split
      · exact Sound.refl s
      · split
        · exact Sound.refl s
        · exact State.judgeJob_sound s _ _

theorem State.cancelPrint_sound (s : State) (n : Nat) : Sound s (s.cancelPrint n).state := by
  unfold State.cancelPrint
  split
  · exact Sound.refl s
  · split
    · dsimp only [accept]
      exact Sound.of_quiet (State.modPrint_quiet s _) (State.modPrint_kept s (PrintEngine.modJob_jobs _ _ _))
    · exact Sound.of_quiet (State.breakJob_quiet s _ _) (State.breakJob_kept s _ _)

theorem State.setPrinter_sound (s : State) (n : Nat) : Sound s (s.setPrinter n).state := by
  unfold State.setPrinter
  split
  · exact Sound.refl s
  · dsimp only [accept]
    exact Sound.of_quiet (State.modPrint_quiet s _) (State.modPrint_kept s le_rfl)

theorem State.setVanLines_sound (s : State) (b : PerLine LineSettingBody) (r : Nat) :
    Sound s (s.setVanLines b r).state := by
  unfold State.setVanLines
  split
  · exact Sound.refl s
  · split
    · exact Sound.refl s
    · dsimp only [accept]
      exact Sound.of_quiet (State.modVan_quiet s _) (State.modVan_kept s _)


/-! ## The link (R162 to R177) -/

/-- The walker of an Attended link does something else. -/
theorem linkFits_walker {s t : State} (hs : LinkFitsPart s) (hl : s.lp.link = .attended)
    (h1 : t.lp.part = s.lp.part) (h2 : t.lp.link = s.lp.link) (h3 : t.lp.departure = s.lp.departure)
    (h4 : t.lp.anchorRead = s.lp.anchorRead) : LinkFitsPart t := by
  obtain ⟨hidle, hrest, hdep, hread, _⟩ := hs
  unfold LinkFitsPart
  rw [h1, h2, h3, h4]
  exact ⟨hidle, hrest, hdep, hread, Or.inl hl⟩

/-- A walker that is at work has an Attended link. -/
theorem LinkFitsPart.attended {s : State} (h : LinkFitsPart s) (h1 : s.lp.walker ≠ .idle)
    (h2 : s.lp.walker ≠ .stopped) : s.lp.link = .attended := by
  obtain ⟨_, _, _, _, hwalk⟩ := h
  exact hwalk.resolve_right fun h => h.elim h1 h2

/-- An Attended link has a Running part, and no anchor read. -/
theorem LinkFitsPart.of_attended {s : State} (h : LinkFitsPart s) (hl : s.lp.link = .attended) :
    s.lp.part = .running ∧ s.lp.anchorRead = none := by
  obtain ⟨hidle, hrest, _, hread, _⟩ := h
  rw [hl] at hidle hrest hread
  refine ⟨?_, ?_⟩
  · cases hp : s.lp.part with
    | running => rfl
    | selfTest => cases hidle (Or.inl hp)
    | broken => cases hidle (Or.inr hp)
    | resting => rcases hrest hp with h | h <;> cases h
  · cases ha : s.lp.anchorRead with
    | none => rfl
    | some a => cases (hread (by simp [ha])).2

/-- A walker at work does something else. -/
theorem State.modLink_walker_sound (s : State) (f : LinkPort → LinkPort) (h1 : s.lp.walker ≠ .idle)
    (h2 : s.lp.walker ≠ .stopped) (hp : (f s.lp).part = s.lp.part) (hl : (f s.lp).link = s.lp.link)
    (hd : (f s.lp).departure = s.lp.departure) (ha : (f s.lp).anchorRead = s.lp.anchorRead) :
    Sound s (s.modLink f) :=
  State.modLink_sound s fun h => linkFits_walker h (h.attended h1 h2) hp hl hd ha

/-- The Link Port of a halted link (R177). -/
theorem State.linkFault_sound (s : State) (c : FaultCause) (a : Access) (hl : LinkFitsPart s →
    s.lp.link = .attended) : Sound s (s.linkFault c a) := by
  let t : State := { s with store := s.store.abandonDeliveries }
  obtain ⟨hq1, hq2⟩ := RecordStore.abandonDeliveries_occupancy s.store
  have h1 : Sound s t :=
    Sound.of_quiet (Quiet.of rfl rfl rfl rfl rfl) (Kept.ofStore hq1.le hq2.le id rfl)
  let f : LinkPort → LinkPort := fun p => { p with
    fault := ⟨c, a.kind, a.window, a.offset⟩, walker := .idle, departure := none, waitsAfterDone := false, link := .halted }
  have h2 : Sound t (t.modLink f) := by
    refine State.modLink_sound t fun h => ?_
    obtain ⟨hpart, hread⟩ := h.of_attended (hl h)
    have hpart : s.lp.part = .running := hpart
    have hread : s.lp.anchorRead = none := hread
    refine ⟨?_, ?_, ?_, ?_, Or.inr (Or.inl rfl)⟩ <;> simp [f, t, hpart, hread]
  have h3 (u : State) : Sound u (u.failRead.raise .linkHalted) :=
    Sound.of_quiet ((State.failRead_quiet u).trans (State.raise_quiet _ _))
      ((State.failRead_kept u).trans (State.raise_kept _ _))
  exact (h1.trans h2).trans (h3 _)

/-- Every block at its reset value satisfies whatever the invariants ask of it (R171). -/
theorem State.resetBlocks_sound (s : State) (clock : Time) (up : Nat) (h : ClockLegal s → clock.sec ≤ 4294967295 ∧
    clock.ms ≤ 999) : Sound s (s.resetBlocks clock up) where
  queue := rfl
  clock := h
  link _ := ⟨fun _ => rfl, fun _ => Or.inr rfl, fun h => (Bool.false_ne_true h).elim, fun h => (Bool.false_ne_true h).elim, Or.inr (Or.inl rfl)⟩
  caps _ := ⟨Nat.zero_le _, Nat.zero_le _⟩
  tables _ := ⟨Nat.zero_le _, Nat.zero_le _, Nat.zero_le _, Nat.zero_le _⟩
  sites _ := by
    have hnone : ∀ k, (s.resetBlocks clock up).site k = none := fun k => by
      simp [State.site, State.resetBlocks, State.reset]
    exact ⟨fun j k x y hx => (by rw [hnone] at hx; cases hx), fun c hc => by cases hc⟩

theorem State.modVan_sound (s : State) (f : VanLines → VanLines) : Sound s (s.modVan f) :=
  Sound.of_quiet (State.modVan_quiet s f) (State.modVan_kept s f)

theorem State.resetPart_sound (s : State) : Sound s s.resetPart :=
  (State.resetBlocks_sound s s.clock s.up id).trans (State.modVan_sound _ _)

theorem State.judgeLine_sound (s : State) : Sound s s.judgeLine :=
  Sound.of_quiet (State.judgeLine_quiet s) (State.judgeLine_kept s)

/-- The part leaves Self-Test, with the link Idle (R170). -/
theorem State.leaveSelfTest_sound (s : State) (f : LinkPort → LinkPort) (hp : s.lp.part = .selfTest)
    (hf : ∀ p : LinkPort, (f p).link = p.link ∧ (f p).departure = p.departure ∧ (f p).anchorRead = p.anchorRead
      ∧ (f p).walker = p.walker) (hr : ∀ p : LinkPort, (f p).part ≠ .resting) : Sound s (s.modLink f) := by
  obtain ⟨hl, hd, ha, hw⟩ := hf s.lp
  refine State.modLink_sound s fun ⟨hidle, _, hdep, hread, hwalk⟩ => ?_
  have hlink : s.lp.link = .idle := hidle (Or.inl hp)
  have hnone : s.lp.anchorRead = none := by
    cases h : s.lp.anchorRead with
    | none => rfl
    | some a => rw [hp] at hread; cases (hread (by simp [h])).1
  refine ⟨fun _ => ?_, fun h => absurd h (hr s.lp), ?_, ?_, ?_⟩
  · rw [State.modLink_lp, hl, hlink]
  · rw [State.modLink_lp, hd, hl]; exact hdep
  · rw [State.modLink_lp, ha, hnone]; intro h; cases h
  · rw [State.modLink_lp, hl, hw]; exact hwalk

theorem State.testPasses_sound (s : State) (hp : s.lp.part = .selfTest) : Sound s s.testPasses := by
  have h1 : Sound s (s.modLink fun p => { p with part := .running, selfTestCode := 0 }) :=
    State.leaveSelfTest_sound s _ hp (fun _ => ⟨rfl, rfl, rfl, rfl⟩) (fun _ => nofun)
  have h2 (t : State) : Sound t t.wokeAfterReset := by
    unfold State.wokeAfterReset
    split
    · exact (State.modVan_sound t _).trans (State.put_sound _ _ _)
    · exact Sound.refl t
  exact (h1.trans (State.judgeLine_sound _)).trans (h2 _)

theorem State.testFails_sound (s : State) (step : SelfTestStep) (hp : s.lp.part = .selfTest) :
    Sound s (s.testFails step) := by
  have h1 : Sound s (s.modLink fun p => { p with part := .broken, selfTestCode := selfTestCode step }) :=
    State.leaveSelfTest_sound s _ hp (fun _ => ⟨rfl, rfl, rfl, rfl⟩) (fun _ => nofun)
  exact (h1.trans (State.modVan_sound _ _)).trans (State.judgeLine_sound _)

theorem State.start_sound (s : State) : Sound s s.start := by
  unfold State.start
  split
  · next hr =>
    refine Sound.ite ?_ ?_
    · refine State.modLink_sound s fun ⟨hidle, hrest, hdep, _, hwalk⟩ => ⟨hidle, hrest, hdep, fun _ => hr, hwalk⟩
    · exact State.modLink_sound s (f := fun p => { p with anchorRead := none, fault := _ })
        fun ⟨hidle, hrest, hdep, _, hwalk⟩ => ⟨hidle, hrest, hdep, fun h => (Bool.false_ne_true h).elim, hwalk⟩
  · exact Sound.refl s

/-- A refused anchor leaves the link as it is (R172). -/
theorem State.refuseAnchor_sound (s : State) (c : FaultCause) (o : Nat) : Sound s (s.refuseAnchor c o) :=
  State.modLink_sound s (f := fun p => { p with anchorRead := none, fault := _ })
    fun ⟨hidle, hrest, hdep, _, hwalk⟩ => ⟨hidle, hrest, hdep, fun h => (Bool.false_ne_true h).elim, hwalk⟩

theorem State.attend_sound (s : State) (address : Nat) (b : List Byte) (ha : s.lp.anchorRead.isSome = true) :
    Sound s (s.attend address b) := by
  have hlp : Kept s (s.attend address b) := Kept.ofStore le_rfl le_rfl id rfl
  refine Sound.of_link rfl rfl rfl hlp fun ⟨_, _, _, hread, _⟩ => ?_
  have hrun : s.lp.part = .running := (hread ha).1
  refine ⟨fun h => ?_, fun _ => ?_, fun _ => rfl, fun h => (Bool.false_ne_true h).elim, Or.inl rfl⟩ <;>
  · have hpart : (s.attend address b).lp.part = .running := hrun
    simp_all

theorem State.anchorDone_sound (s : State) (a : AnchorAccess) (r : AnchorRead) (ha : s.lp.anchorRead.isSome = true) :
    Sound s (s.anchorDone a r) := by
  unfold State.anchorDone
  split
  · exact State.refuseAnchor_sound s _ _
  · exact Sound.ite (State.refuseAnchor_sound s _ _) (Sound.refl s)
  · split
    · exact State.refuseAnchor_sound s _ _
    · exact State.attend_sound s _ _ ha

theorem State.stop_sound (s : State) : Sound s s.stop := by
  have work : Sound s (({ (State.stopPrinting { s with store := s.store.abandonDeliveries }) with
      store := (State.stopPrinting { s with store := s.store.abandonDeliveries }).store.forgetPages }.modVan
      fun v => { v with wake := .low }).modLink LinkPort.stop) := by
    obtain ⟨hq1, hq2⟩ := RecordStore.abandonDeliveries_occupancy s.store
    let t := State.stopPrinting { s with store := s.store.abandonDeliveries }
    have h1 : Sound s t := Sound.trans (t := { s with store := s.store.abandonDeliveries })
      (Sound.of_quiet (Quiet.of rfl rfl rfl rfl rfl) (Kept.ofStore hq1.le hq2.le id rfl))
      (Sound.of_quiet (State.stopPrinting_quiet _) (State.stopPrinting_kept _))
    have h2 : Sound t { t with store := t.store.forgetPages } :=
      Sound.of_quiet (Quiet.of rfl rfl rfl rfl rfl)
        (Kept.ofStore le_rfl le_rfl (fun ⟨_, _, c, d⟩ => ⟨Nat.zero_le _, Nat.zero_le _, c, d⟩) rfl)
    refine ((h1.trans h2).trans (State.modVan_sound _ _)).trans (State.modLink_sound _ fun _ => ?_)
    exact ⟨fun _ => rfl, fun _ => Or.inr rfl, fun h => (Bool.false_ne_true h).elim, fun h => (Bool.false_ne_true h).elim, Or.inr (Or.inl rfl)⟩
  unfold State.stop
  split
  · exact Sound.refl s
  · exact Sound.refl s
  · exact work
  · exact work

/-! ## Back, Rest and the wake delay (R162, R165 to R167) -/

theorem State.linkReturns_sound (s : State) : Sound s s.linkReturns :=
  Sound.of_quiet (State.linkReturns_quiet s) (State.linkReturns_kept s)

theorem State.linkBack_sound (s : State) (hp : s.lp.part = .running) (hl : s.lp.link = .away) :
    Sound s s.linkBack := by
  have h1 : Sound s (s.modLink fun p => { p with link := .attended, awaySince := none }) := by
    refine State.modLink_sound s fun ⟨_, _, _, hread, _⟩ =>
      ⟨fun h => ?_, fun h => ?_, fun _ => rfl, fun h => ?_, Or.inl rfl⟩
    · simp [hp] at h
    · simp [hp] at h
    · rw [hl] at hread
      cases (hread h).2
  let t := ((s.modLink fun p => { p with link := .attended, awaySince := none }).modVan
    fun v => { v with wake := .low })
  have h2 : Sound t (t.put 0 (.back s.van.source s.van.wake s.store.total s.awayTime)) := State.put_sound t _ _
  have hq := (State.put_quiet t 0 (.back s.van.source s.van.wake s.store.total s.awayTime)).steady.link
  have hatt : (t.put 0 (.back s.van.source s.van.wake s.store.total s.awayTime)).lp.link = .attended :=
    SameLink.field (·.link) (fun _ => rfl) hq
  have h3 (u : State) (hu : u.lp.link = .attended) : Sound u u.walkerWaits :=
    State.modLink_sound u fun h => linkFits_walker h hu rfl rfl rfl rfl
  exact (((h1.trans (State.modVan_sound _ _)).trans h2).trans (h3 _ hatt)).trans (State.linkReturns_sound _)

theorem State.dropDeparture_sound (s : State) (hl : s.lp.link = .attended) : Sound s s.dropDeparture := by
  have h1 : Sound s (s.modLink fun p => { p with departure := none }) :=
    State.modLink_sound s fun ⟨hidle, hrest, _, hread, hwalk⟩ => ⟨hidle, hrest, fun h => (Bool.false_ne_true h).elim, hread, hwalk⟩
  refine Sound.trans (h1.trans (Sound.ite ?_ ?_)) (State.linkReturns_sound _)
  · exact State.modLink_sound _ fun h => linkFits_walker h hl rfl rfl rfl rfl
  · exact State.modLink_sound _ fun h => linkFits_walker h hl rfl rfl rfl rfl

theorem State.backRunning_sound (s : State) (hp : s.lp.part = .running) : Sound s s.backRunning := by
  unfold State.backRunning
  split
  · next hl => exact State.linkBack_sound s hp hl
  · next hl => exact Sound.ite (State.dropDeparture_sound s hl) (Sound.refl s)
  · exact Sound.refl s
  · exact Sound.refl s

theorem State.restExit_sound (s : State) (w : WakeSource) : Sound s (s.restExit w) :=
  Sound.of_quiet (State.restExit_quiet s w) (State.restExit_kept s w)

theorem State.back_sound (s : State) : Sound s s.back := by
  unfold State.back
  split
  · next hp => exact State.backRunning_sound s hp
  · unfold State.backResting
    split
    · split
      · exact State.modVan_sound s _
      · exact State.restExit_sound s _
    · exact Sound.refl s
  · exact Sound.refl s
  · exact Sound.refl s

/-- The part leaves Resting; its link, Away or Idle, fits a Running part too (R167). -/
theorem State.leaveRest_sound (s : State) (hp : s.lp.part = .resting) :
    Sound s (s.modLink fun p => { p with part := .running }) := by
  refine State.modLink_sound s fun ⟨_, _, hdep, hread, hwalk⟩ =>
    ⟨fun h => ?_, nofun, hdep, fun h => ?_, hwalk⟩
  · rcases h with h | h <;> cases h
  · rw [hp] at hread
    cases (hread h).1

theorem State.wakeUp_sound (s : State) (r : RestRecord) (e : RestExit) (hp : s.lp.part = .resting) :
    Sound s (s.wakeUp r e) := by
  let t := ((s.modLink fun p => { p with part := .running }).modVan fun v => { v with rest := none }).judgeLine
  let u := t.put 0 (.woke s.van.source r.began.time e.at_.time)
  have h1 : Sound s u := (((State.leaveRest_sound s hp).trans (State.modVan_sound _ _)).trans
    (State.judgeLine_sound _)).trans (State.put_sound t _ _)
  have hpart : u.lp.part = .running :=
    SameLink.field (·.part) (fun _ => rfl) ((State.judgeLine_quiet _).trans (State.put_quiet t _ _)).steady.link
  exact Sound.ite (h1.trans (State.backRunning_sound u hpart)) h1

theorem State.wakeDue_resting {s : State} {re : RestRecord × RestExit} (h : s.wakeDue = some re) :
    s.lp.part = .resting := by
  unfold State.wakeDue at h
  split at h
  · next hp _ => exact hp
  · cases h

theorem State.departureReady_iff {s : State} {d : Departure} (h : s.departureReady = some d) :
    s.lp.departure = some d ∧ s.lp.walker = .stopped ∧ s.lp.link = .attended := by
  obtain ⟨hd, hready⟩ := Option.filter_eq_some_iff.mp h
  simp only [Bool.and_eq_true, decide_eq_true_iff] at hready
  obtain ⟨⟨⟨hw, hl⟩, _⟩, _⟩ := hready
  exact ⟨hd, hw, hl⟩

theorem State.becomeAway_sound (s : State) (d : Departure) (hw : s.lp.walker = .stopped)
    (hl : s.lp.link = .attended) : Sound s (s.becomeAway d) := by
  let f : LinkPort → LinkPort := fun p => { p with link := .away, departure := none, awaySince := some s.now }
  have h1 : Sound s (s.modLink f) := by
    refine State.modLink_sound s fun h => ?_
    obtain ⟨hpart, hread⟩ := h.of_attended hl
    refine ⟨fun hx => ?_, fun _ => Or.inl rfl, fun hx => (Bool.false_ne_true hx).elim, fun hx => ?_, Or.inr (Or.inr hw)⟩
    · simp [f, hpart] at hx
    · simp [f, hread] at hx
  let t := (s.modLink f).put 0 (.away d.cause s.store.pool.length s.store.total d.ordered.time)
  have h2 : Sound s t := h1.trans (State.put_sound _ _ _)
  have hq : SameLink (s.modLink f) t := (State.put_quiet _ _ _).steady.link
  have hlink : t.lp.link = .away := SameLink.field (·.link) (fun _ => rfl) hq
  have hdep : t.lp.departure = none := SameLink.field (·.departure) (fun _ => rfl) hq
  have hwalk : t.lp.walker = .stopped := (SameLink.field (·.walker) (fun _ => rfl) hq).trans hw
  have h3 : Sound t t.enterRest := by
    refine Sound.of_link rfl rfl rfl (Kept.of rfl le_rfl rfl) fun ⟨_, _, _, hread, _⟩ => ?_
    rw [hlink] at hread
    refine ⟨fun hx => ?_, fun _ => Or.inl hlink, fun hx => ?_, fun hx => ?_, Or.inr (Or.inr hwalk)⟩
    · rcases hx with hx | hx <;> cases hx
    · exact absurd hx (by simp [State.enterRest, hdep])
    · cases (hread hx).2
  unfold State.becomeAway
  dsimp only
  split
  · exact h2
  · exact h2.trans h3

/-- A departure becomes pending on an Attended link (R162). -/
theorem State.depart_sound (s : State) (c : DepartureCause) (hl : s.lp.link = .attended) : Sound s (s.depart c) :=
  State.modLink_sound s fun ⟨hidle, hrest, _, hread, hwalk⟩ => ⟨hidle, hrest, fun _ => hl, hread, hwalk⟩

theorem State.rest_sound (s : State) (hl : s.lp.link = .attended) : Sound s s.rest.state := by
  unfold State.rest
  split
  · exact Sound.refl s
  · exact State.depart_sound s .rest hl

theorem State.rest_link (s : State) : s.rest.state.lp.link = s.lp.link := by
  unfold State.rest
  split <;> rfl

/-! ## The walker (R175, R176) -/

theorem State.readLink_sound (s : State) (hl : LinkFitsPart s → s.lp.link = .attended) : Sound s s.readLink :=
  State.modLink_sound s fun h => linkFits_walker h (hl h) rfl rfl rfl rfl

theorem State.waitsSince_some {s : State} {n : Nat} (h : s.waitsSince = some n) :
    s.lp.walker = .waiting n ∧ s.lp.link = .attended ∧ s.lp.departure = none := by
  unfold State.waitsSince at h
  split at h
  · next hw =>
    split at h
    · next ho =>
      cases h
      simpa [State.linkOpen, hw] using ho
    · cases h
  all_goals cases h

theorem State.takeLink_sound (s : State) (a : Access) (link : WRef) (hw : s.lp.walker = .readingLink a) :
    Sound s (s.takeLink a link) := by
  have hne : s.lp.walker ≠ .idle ∧ s.lp.walker ≠ .stopped := by rw [hw]; exact ⟨nofun, nofun⟩
  unfold State.takeLink
  refine Sound.ite ?_ (Sound.ite ?_ ?_)
  · exact State.modLink_walker_sound s _ hne.1 hne.2 rfl rfl rfl rfl
  · exact State.modLink_walker_sound s _ hne.1 hne.2 rfl rfl rfl rfl
  · exact State.linkFault_sound s _ a fun h => h.attended hne.1 hne.2

/-- The result of an order is being written: the walker of an Attended link is at work. -/
theorem State.writeResult_sound (s : State) (r : WRef) (n : Nat) (c : ResultCode) (area : List Byte)
    (hl : LinkFitsPart s → s.lp.link = .attended) : Sound s (s.writeResult r n c area) :=
  State.modLink_sound s (f := fun p =>
    { p with walker := .writingResult r (⟨.resultWrite, r.window, r.offset, resultWrites n c area, s.up⟩) })
    fun h => linkFits_walker h (hl h) rfl rfl rfl rfl

theorem State.takeRecord_sound (s : State) (r : WRef) (b : List Byte) (hl : LinkFitsPart s → s.lp.link = .attended) :
    Sound s (s.takeRecord r b) := by
  let t := s.modLink fun p => { p with position := some (.order r) }
  have h1 : Sound s t := State.modLink_sound s id
  have hl' : LinkFitsPart t → t.lp.link = .attended := fun h => hl h
  unfold State.takeRecord
  refine Sound.ite (h1.trans (State.readLink_sound t hl')) (h1.trans ?_)
  split
  · exact State.modLink_sound _ fun h => linkFits_walker h (hl' h) rfl rfl rfl rfl
  · exact State.writeResult_sound _ _ _ _ _ hl'

theorem State.afterDone_sound (s : State) (hl : LinkFitsPart s → s.lp.link = .attended) : Sound s s.afterDone := by
  unfold State.afterDone
  refine Sound.ite ?_ (Sound.ite ?_ ?_)
  · exact State.modLink_sound s fun h => linkFits_walker h (hl h) rfl rfl rfl rfl
  · exact State.modLink_sound s (f := fun p => { p with waitsAfterDone := false, walker := .waiting s.up })
      fun h => linkFits_walker h (hl h) rfl rfl rfl rfl
  · exact State.readLink_sound s hl

theorem State.control_sound (s : State) (v : BitVec 64) : Sound s (s.control v) := by
  unfold State.control
  split
  · exact State.start_sound s
  · exact State.stop_sound s
  · exact State.back_sound s
  · exact State.resetPart_sound s
  · exact Sound.refl s

/-- An order that is taken: what its block does on an Attended link is sound, and leaves the link so. -/
theorem State.answer_sound (s : State) (o : Order) (g : State → Answer)
    (h : s.lp.link = .attended → Sound s (g s).state) (hl : (g s).state.lp.link = s.lp.link) :
    ∃ t, s.answer o g = .next t ∧ Sound s t := by
  rcases State.answer_cases s o g with e | ⟨f, ⟨hatt, _⟩, _, e⟩
  · exact ⟨s, e, Sound.refl s⟩
  · exact ⟨_, e, (h hatt).trans (State.writeResult_sound _ _ _ _ _ fun _ => hl.trans hatt)⟩

/-- An order that leaves the Link Port alone. -/
theorem State.answer_sound_of_steady (s : State) (o : Order) (g : State → Answer) (h : Sound s (g s).state)
    (hs : Steady s (g s).state) : ∃ t, s.answer o g = .next t ∧ Sound s t :=
  State.answer_sound s o g (fun _ => h) (SameLink.field (·.link) (fun _ => rfl) hs.link)

theorem State.setClock_link (s : State) (sec ms : Nat) : (s.setClock sec ms).state.lp.link = s.lp.link := by
  unfold State.setClock
  split
  · rfl
  · split
    · rfl
    · exact SameLink.field (·.link) (fun _ => rfl)
        (State.put_quiet { s with clock := ⟨sec, ms, false⟩ } 0 _).steady.link

/-! ## The commands -/

/-- A command answers a next state that is sound after the state before it. -/
abbrev Answers (r : Result) (s : State) : Prop := ∃ t, r = .next t ∧ Sound s t

theorem Sound.answers {s t : State} (h : Sound s t) : Answers (.next t) s := ⟨t, rfl, h⟩

theorem State.elapse_answers (s : State) (dt : Nat) : Answers (.next (s.elapse dt)) s := (s.elapse_sound dt).answers

/-- A command that lets time pass and then does something quiet that keeps the tables. -/
theorem Quiet.answers {s t : State} (h : Quiet s t) (k : Kept s t) : Answers (.next t) s :=
  (Sound.of_quiet h k).answers

theorem Sound.elapsed {s t : State} {dt : Nat} (h : Sound (s.elapse dt) t) : Answers (.next t) s :=
  ((s.elapse_sound dt).trans h).answers

theorem Quiet.elapsed {s t : State} {dt : Nat} (h : Quiet (s.elapse dt) t) (k : Kept (s.elapse dt) t) :
    Answers (.next t) s := (Sound.of_quiet h k).elapsed

theorem linkAccessOf_attended {s : State} {sel : AccessSel} {a : Access} (h : s.linkAccessOf sel = some a) :
    s.lp.link = .attended := by
  unfold State.linkAccessOf at h
  split at h
  · next hl => exact hl
  · cases h

theorem execBusError_answers (dt : Nat) (sel : AccessSel) (s : State) : Answers (execBusError dt sel s) s := by
  unfold execBusError
  dsimp only
  split
  · next a ha => exact (State.linkFault_sound _ _ a fun _ => linkAccessOf_attended ha).elapsed
  · exact s.elapse_answers dt

theorem execAccessTimeout_answers (dt : Nat) (sel : AccessSel) (s : State) :
    Answers (execAccessTimeout dt sel s) s := by
  unfold execAccessTimeout
  dsimp only
  split
  · next a ha =>
    split
    · exact (State.linkFault_sound _ _ a fun _ => linkAccessOf_attended ha).elapsed
    · exact s.elapse_answers dt
  · exact s.elapse_answers dt

theorem execSelfTestDone_answers (dt : Nat) (failed : Option SelfTestStep) (s : State) :
    Answers (execSelfTestDone dt failed s) s := by
  unfold execSelfTestDone
  dsimp only
  split
  · next hp =>
    split
    · exact (State.testPasses_sound _ hp).elapsed
    · exact (State.testFails_sound _ _ hp).elapsed
  · exact s.elapse_answers dt

theorem execAnchorReadDone_answers (dt : Nat) (r : AnchorRead) (s : State) :
    Answers (execAnchorReadDone dt r s) s := by
  unfold execAnchorReadDone
  dsimp only
  split
  · next a ha => exact (State.anchorDone_sound (s.elapse dt) a r (by rw [ha]; rfl)).elapsed
  · exact s.elapse_answers dt

theorem execNudge_answers (dt : Nat) (v : BitVec 32) (s : State) : Answers (execNudge dt v s) s := by
  unfold execNudge
  dsimp only
  split
  · next h =>
    obtain ⟨n, hn⟩ := Option.isSome_iff_exists.mp h
    obtain ⟨_, hl, _⟩ := State.waitsSince_some hn
    exact (State.readLink_sound _ fun _ => hl).elapsed
  · exact s.elapse_answers dt

theorem execSweepExpiry_answers (dt : Nat) (s : State) : Answers (execSweepExpiry dt s) s := by
  unfold execSweepExpiry
  dsimp only
  split
  · next n hn =>
    obtain ⟨_, hl, _⟩ := State.waitsSince_some hn
    split
    · exact (State.readLink_sound _ fun _ => hl).elapsed
    · exact s.elapse_answers dt
  · exact s.elapse_answers dt

theorem execLinkReadDone_answers (dt : Nat) (link : WRef) (s : State) : Answers (execLinkReadDone dt link s) s := by
  unfold execLinkReadDone
  dsimp only
  split
  · next a hw => exact (State.takeLink_sound _ a link hw).elapsed
  · exact s.elapse_answers dt

/-- A walker at work has an Attended link. -/
theorem attended_of_walker {s : State} {w : WalkPhase} (hw : s.lp.walker = w) (h1 : w ≠ .idle) (h2 : w ≠ .stopped)
    (h : LinkFitsPart s) : s.lp.link = .attended := h.attended (hw ▸ h1) (hw ▸ h2)

theorem execOrderReadDone_answers (dt : Nat) (b : List Byte) (s : State) : Answers (execOrderReadDone dt b s) s := by
  unfold execOrderReadDone
  dsimp only
  split
  · next r a hw => exact (State.takeRecord_sound _ r b (attended_of_walker hw nofun nofun)).elapsed
  · exact s.elapse_answers dt

theorem execResultWriteDone_answers (dt : Nat) (s : State) : Answers (execResultWriteDone dt s) s := by
  unfold execResultWriteDone
  dsimp only
  split
  · next r a hw =>
    exact (State.modLink_sound _ fun h =>
      linkFits_walker h (attended_of_walker hw nofun nofun h) rfl rfl rfl rfl).elapsed
  · exact s.elapse_answers dt

theorem execDoneWriteDone_answers (dt : Nat) (s : State) : Answers (execDoneWriteDone dt s) s := by
  unfold execDoneWriteDone
  dsimp only
  split
  · next r a hw =>
    have hraise : Sound (s.elapse dt) ((s.elapse dt).raise .orderDone) :=
      Sound.of_quiet (State.raise_quiet _ _) (State.raise_kept _ _)
    exact (hraise.trans (State.afterDone_sound _ (attended_of_walker hw nofun nofun))).elapsed
  · exact s.elapse_answers dt

theorem execRegisterWrite_answers (dt : Nat) (r : PlainRegister) (v : BitVec 64) (s : State) :
    Answers (execRegisterWrite dt r v s) s := by
  unfold execRegisterWrite
  dsimp only
  split
  · exact (State.modLink_sound _ id).elapsed
  · exact (State.control_sound _ v).elapsed
  · exact s.elapse_answers dt
  · exact s.elapse_answers dt

theorem execLinkBecomesAway_answers (s : State) : Answers (execLinkBecomesAway s) s := by
  unfold execLinkBecomesAway
  split
  · next d hd =>
    obtain ⟨_, hw, hl⟩ := State.departureReady_iff hd
    exact (State.becomeAway_sound s d hw hl).answers
  · exact (Sound.refl s).answers

theorem execWakeDelayEnd_answers (dt : Nat) (s : State) : Answers (execWakeDelayEnd dt s) s := by
  unfold execWakeDelayEnd
  dsimp only
  split
  · next h => exact (State.wakeUp_sound _ _ _ (State.wakeDue_resting h)).elapsed
  · exact s.elapse_answers dt

/-! ### The Front End, the kit check and lead watch -/

theorem execHalfCycleEnd_answers (dt : Nat) (m : PerInput (List Int)) (s : State) :
    Answers (execHalfCycleEnd dt m s) s := by
  unfold execHalfCycleEnd
  dsimp only
  split
  · split
    · exact (State.endHalf_sound _ _ _ m).elapsed
    · exact s.elapse_answers dt
  · exact s.elapse_answers dt

theorem execCycleEnd_answers (dt : Nat) (s : State) : Answers (execCycleEnd dt s) s := by
  unfold execCycleEnd
  dsimp only
  split
  · split
    · exact Quiet.elapsed (Quiet.of rfl rfl rfl rfl rfl) (Kept.of rfl le_rfl rfl)
    · exact s.elapse_answers dt
  · exact s.elapse_answers dt

theorem execZeroCrossing_answers (dt ns : Nat) (s : State) : Answers (execZeroCrossing dt ns s) s := by
  unfold execZeroCrossing
  dsimp only
  split
  · exact Quiet.elapsed (Quiet.of rfl rfl rfl rfl rfl) (Kept.of rfl le_rfl rfl)
  · exact s.elapse_answers dt

theorem execLockAcquired_answers (s : State) : Answers (execLockAcquired s) s := by
  unfold execLockAcquired
  split
  · exact Quiet.answers (Quiet.of rfl rfl rfl rfl rfl) (Kept.of rfl le_rfl rfl)
  · exact (Sound.refl s).answers

theorem execBlockEnd_answers (dt : Nat) (ph : PerPhase Nat) (n : Nat) (s : State) :
    Answers (execBlockEnd dt ph n s) s := by
  unfold execBlockEnd
  dsimp only
  split
  · split
    · exact (State.endBlock_sound _ _ _ _).elapsed
    · exact s.elapse_answers dt
  · exact s.elapse_answers dt

/-- The running check moves on in its slot. -/
theorem State.setCheck_sound (s : State) {c d : CheckRecord} (hc : s.check = some c) (h : d.slot = c.slot) :
    Sound s { s with check := some d } := by
  refine Sound.of_quiet (Quiet.of rfl rfl rfl rfl rfl) (Kept.ofCheck rfl rfl ?_)
  rintro _ ⟨⟩
  exact ⟨c, hc, h.symm⟩

theorem CheckRecord.endPresence_slot (c : CheckRecord) (w : Wiring) (fin : Stamp) :
    (c.endPresence w fin).slot = c.slot := by
  cases w <;> rfl

theorem execPresencePhaseEnd_answers (s : State) : Answers (execPresencePhaseEnd s) s := by
  unfold execPresencePhaseEnd
  split
  · exact (Sound.refl s).answers
  · next c hc =>
    split
    · next fin x _ _ _ =>
      have hslot := CheckRecord.endPresence_slot c x.wiring fin
      dsimp only
      split
      · exact (State.breakCheck_sound s { c.endPresence x.wiring fin with rotation := .indeterminate } c _ hc
          hslot.symm).answers
      · exact (State.setCheck_sound s hc hslot).answers
    · exact (Sound.refl s).answers

theorem execRotationFound_answers (s : State) : Answers (execRotationFound s) s := by
  unfold execRotationFound
  split
  · exact (Sound.refl s).answers
  · next c hc =>
    split
    · let d := { c.enter .association c.runEnd with rotation := c.runPattern.getD .indeterminate }
      have hslot : d.slot = c.slot := rfl
      exact (State.setCheck_sound s hc hslot).answers
    · exact (Sound.refl s).answers

theorem execAssociationComplete_answers (s : State) : Answers (execAssociationComplete s) s := by
  unfold execAssociationComplete
  split
  · exact (Sound.refl s).answers
  · next c hc =>
    split
    · exact (Sound.refl s).answers
    · split
      · dsimp only
        split
        · exact (State.endCheck_sound s c c _ _ _ hc rfl).answers
        · exact (State.endCheck_sound s c c _ _ _ hc rfl).answers
      · exact (Sound.refl s).answers

theorem execLockWaitExpiry_answers (s : State) : Answers (execLockWaitExpiry s) s := by
  unfold execLockWaitExpiry
  split
  · exact (Sound.refl s).answers
  · next c hc =>
    split
    · exact (State.breakCheck_sound s c c _ hc rfl).answers
    · exact (Sound.refl s).answers

theorem execLeadsMoved_answers (s : State) : Answers (execLeadsMoved s) s := by
  unfold execLeadsMoved
  split
  · exact (Sound.refl s).answers
  · next c hc =>
    split
    · exact (State.breakCheck_sound s c c _ hc rfl).answers
    · exact (Sound.refl s).answers

theorem execLeadLost_answers (dt : Nat) (i : Input) (ahead : Option (PerInput (List Int))) (s : State) :
    Answers (execLeadLost dt i ahead s) s := by
  unfold execLeadLost
  dsimp only
  split
  · split
    · split
      · exact (State.declareLost_sound _ _ _ _ _ _).elapsed
      · exact s.elapse_answers dt
    · split
      · exact (State.declareLost_sound _ _ _ _ _ _).elapsed
      · exact s.elapse_answers dt
  · exact s.elapse_answers dt

theorem execLeadRestored_answers (i : Input) (s : State) : Answers (execLeadRestored i s) s := by
  unfold execLeadRestored
  split
  · split
    · split
      · exact (State.declarePresent_sound _ _ _ _ _ _).answers
      · exact (Sound.refl s).answers
    · exact (Sound.refl s).answers
  · exact (Sound.refl s).answers

/-! ### The Sag Monitor -/

theorem execSettleDone_answers (i : Input) (s : State) : Answers (execSettleDone i s) s := by
  unfold execSettleDone
  split
  · exact Quiet.answers (Quiet.of rfl rfl rfl rfl rfl) (Kept.of rfl le_rfl rfl)
  · exact (Sound.refl s).answers

theorem execEventLong_answers (s : State) : Answers (execEventLong s) s := by
  unfold execEventLong
  split
  · next e k _ _ =>
    split
    · let t := { s with sag := { s.sag with detectors := holdMembers e s.sag.detectors } }
      have hclose : Sound t (t.closeEvent k .long s.fe.lastHalfEnd e.halves .notTaken) :=
        Sound.of_quiet (State.closeEvent_quiet _ _ _ _ _ _) (State.closeEvent_kept _ _ _ _ _ _)
      have hhold : Sound s t := Sound.of_quiet (Quiet.of rfl rfl rfl rfl rfl) (Kept.of rfl le_rfl rfl)
      have hamend (u : State) (f : Input → Bool) : Sound u (u.amendReport f) :=
        Sound.of_quiet (Quiet.of rfl rfl rfl rfl rfl) (Kept.of rfl le_rfl rfl)
      exact ((hhold.trans hclose).trans (hamend _ _)).answers
    · exact (Sound.refl s).answers
  · exact (Sound.refl s).answers

theorem State.freeTracker_sound (s : State) (k : Fin 4) : Sound s (s.freeTracker k) :=
  Sound.of_quiet (Quiet.of rfl rfl rfl rfl rfl) (Kept.of rfl le_rfl rfl)

theorem execCaptureComplete_answers (s : State) : Answers (execCaptureComplete s) s := by
  unfold execCaptureComplete
  split
  · exact (Sound.refl s).answers
  · have hoffer (n : Nat) (p : Nat → List CapturePiece) : Sound s (s.offerCapture n p).1 :=
      Sound.of_quiet (State.offerCapture_quiet s n p) (State.offerCapture_kept s n p)
    have hfinish (u : State) (k : Fin 4) (t : Tracker) (o : CaptureOutcome) : Sound u (u.finishCapture k t o) :=
      Sound.of_quiet (State.finishCapture_quiet u k t o) (State.finishCapture_kept u k t o)
    exact (((hoffer _ _).trans (State.freeTracker_sound _ _)).trans (hfinish _ _ _ _)).answers

theorem execEventRecordHandedOn_answers (n : Nat) (s : State) : Answers (execEventRecordHandedOn n s) s := by
  unfold execEventRecordHandedOn
  split
  · exact Quiet.answers (State.handOn_quiet s _) (State.handOn_kept s _)
  · exact (Sound.refl s).answers

/-! ### The Record Store and the Print Engine -/

theorem execHoldTimeExpiry_answers (dt : Nat) (st : Stream) (s : State) : Answers (execHoldTimeExpiry dt st s) s := by
  unfold execHoldTimeExpiry
  dsimp only
  split
  · exact Quiet.elapsed (State.startDelivery_quiet _ _) (State.startDelivery_kept _ _)
  · exact s.elapse_answers dt

theorem execPageWriteDone_answers (dt : Nat) (st : Stream) (s : State) : Answers (execPageWriteDone dt st s) s := by
  unfold execPageWriteDone
  dsimp only
  split
  · exact Quiet.elapsed (State.nextStage_quiet _ _ _) (State.nextStage_kept _ _ _)
  · exact s.elapse_answers dt

theorem execPageLinkWriteDone_answers (dt : Nat) (st : Stream) (s : State) :
    Answers (execPageLinkWriteDone dt st s) s := by
  unfold execPageLinkWriteDone
  dsimp only
  split
  · split
    · exact Quiet.elapsed (State.publish_quiet _ _ _) (State.publish_kept _ _ _)
    · exact s.elapse_answers dt
  · exact s.elapse_answers dt

theorem execPrintJobStart_answers (s : State) : Answers (execPrintJobStart s) s := by
  unfold execPrintJobStart
  split
  · split
    · exact (Sound.refl s).answers
    · exact Quiet.answers ((State.modPrint_quiet s _).trans (State.work_quiet _))
        ((State.modPrint_kept s (PrintEngine.modJob_jobs _ _ _)).trans (State.work_kept _))
  · exact (Sound.refl s).answers

theorem execRecordReadDone_answers (dt : Nat) (b : List Byte) (s : State) : Answers (execRecordReadDone dt b s) s := by
  unfold execRecordReadDone
  dsimp only
  split
  · split
    · exact Quiet.elapsed (State.readDone_quiet _ _ _ _ _) (State.readDone_kept _ _ _ _ _)
    · exact s.elapse_answers dt
  · exact s.elapse_answers dt

/-- A change of the printer's signals, and what follows it (R149 to R151). -/
theorem State.signal_elapsed (s : State) (dt : Nat) {f : PrintEngine → PrintEngine} (b : Bool)
    (h : (f (s.elapse dt).print).jobs.length ≤ (s.elapse dt).print.jobs.length) :
    Answers (.next (((s.elapse dt).modPrint f).signalMoves b)) s :=
  Quiet.elapsed ((State.modPrint_quiet _ f).trans (State.signalMoves_quiet _ b))
    ((State.modPrint_kept _ h).trans (State.signalMoves_kept _ b))

theorem State.settle_elapsed (s : State) (dt : Nat) {f : PrintEngine → PrintEngine}
    (h : (f (s.elapse dt).print).jobs.length ≤ (s.elapse dt).print.jobs.length) :
    Answers (.next ((s.elapse dt).modPrint f).settle) s :=
  Quiet.elapsed ((State.modPrint_quiet _ f).trans (State.settle_quiet _))
    ((State.modPrint_kept _ h).trans (State.settle_kept _))

theorem execBusyRise_answers (dt : Nat) (s : State) : Answers (execBusyRise dt s) s := by
  unfold execBusyRise
  dsimp only
  split
  · exact s.elapse_answers dt
  · exact s.settle_elapsed dt le_rfl

theorem execBusyFall_answers (dt : Nat) (s : State) : Answers (execBusyFall dt s) s := by
  unfold execBusyFall
  dsimp only
  split
  · split
    · exact Quiet.elapsed ((State.modPrint_quiet _ _).trans (State.endByte_quiet _ _))
        ((State.modPrint_kept _ le_rfl).trans (State.endByte_kept _ _))
    · exact s.settle_elapsed dt le_rfl
  · exact s.elapse_answers dt

theorem execPaperOutChange_answers (dt : Nat) (b : Bool) (s : State) : Answers (execPaperOutChange dt b s) s := by
  unfold execPaperOutChange
  dsimp only
  split
  · exact s.elapse_answers dt
  · exact s.signal_elapsed dt _ le_rfl

theorem execHeadHotChange_answers (dt : Nat) (b : Bool) (s : State) : Answers (execHeadHotChange dt b s) s := by
  unfold execHeadHotChange
  dsimp only
  split
  · exact s.elapse_answers dt
  · exact s.signal_elapsed dt _ le_rfl

theorem execPresentChange_answers (dt : Nat) (b : Bool) (s : State) : Answers (execPresentChange dt b s) s := by
  unfold execPresentChange
  dsimp only
  split
  · exact s.elapse_answers dt
  · exact s.signal_elapsed dt _ le_rfl

theorem execPrinterHoldCleared_answers (dt : Nat) (s : State) : Answers (execPrinterHoldCleared dt s) s := by
  unfold execPrinterHoldCleared
  dsimp only
  split
  · exact s.elapse_answers dt
  · exact s.settle_elapsed dt le_rfl

theorem execPrinterStall_answers (dt : Nat) (s : State) : Answers (execPrinterStall dt s) s := by
  unfold execPrinterStall
  dsimp only
  split
  · exact Quiet.elapsed (State.declareStall_quiet _ _) (State.declareStall_kept _ _)
  · exact s.elapse_answers dt

theorem execStallClear_answers (dt : Nat) (s : State) : Answers (execStallClear dt s) s := by
  unfold execStallClear
  dsimp only
  split
  · exact s.elapse_answers dt
  · exact s.settle_elapsed dt le_rfl

/-! ### Van lines -/

theorem State.pauseLive_sound (s : State) (l : VanLine) (e : Edge) (a : Level) (t : Time) :
    Sound s (s.pauseLive l e a t) := by
  have hentry (u : State) (o : Option LineOutcome) : Sound u (u.lineEntry l e a o t) := State.put_sound u _ _
  unfold State.pauseLive
  split
  · next k x hk hx =>
    split
    · next hst =>
      have hsite : s.site k = some x := by simpa [State.liveSite, hk] using hx
      exact (State.pause_sound s k _ _ hsite hst).trans (hentry _ _)
    · exact hentry s _
  · exact hentry s _

theorem State.lineAction_sound (s : State) (line : VanLine) (a : LineAction) (e : Edge) (l : Level) (t : Time) :
    Sound s (s.lineAction line a e l t) := by
  unfold State.lineAction
  split
  · exact Sound.refl s
  · exact Sound.of_quiet (State.wakeAction_quiet s _) (State.wakeAction_kept s _)
  · exact Sound.of_quiet (State.markEntry_quiet s _ _) (State.markEntry_kept s _ _)
  · exact State.put_sound s _ _
  · exact Sound.refl s
  · exact State.pauseLive_sound s _ _ _ _

theorem State.edge_sound (s : State) (line : VanLine) (l : LineState) (a : Level) (t : Time) :
    Sound s (s.edge line l a t) := by
  unfold State.edge
  exact Sound.ite ((State.lineAction_sound s _ _ _ _ _).trans
    (Sound.of_quiet (State.raise_quiet _ _) (State.raise_kept _ _))) (Sound.refl s)

theorem execLineDebounced_answers (dt : Nat) (line : VanLine) (s : State) :
    Answers (execLineDebounced dt line s) s := by
  unfold execLineDebounced
  dsimp only
  split
  · split
    · exact (State.modVan_sound _ _).elapsed
    · exact s.elapse_answers dt
  · split
    · exact ((State.modVan_sound _ _).trans (State.edge_sound _ _ _ _ _)).elapsed
    · exact s.elapse_answers dt
  · exact s.elapse_answers dt

/-- Every command answers a next state that is sound after the state before it. -/
theorem exec_answers (c : Instr) (s : State) : Answers (exec c s) s := by
  cases c with
  | powerOn => exact (State.resetBlocks_sound s _ _ fun _ => ⟨Nat.zero_le _, Nat.zero_le _⟩).answers
  | reset dt => exact (State.resetPart_sound _).elapsed
  | start dt => exact (State.start_sound _).elapsed
  | anchorReadDone dt r => exact execAnchorReadDone_answers dt r s
  | stop dt => exact (State.stop_sound _).elapsed
  | back dt => exact (State.back_sound _).elapsed
  | nudge dt v => exact execNudge_answers dt v s
  | attentionWrite dt v => exact Quiet.elapsed (Quiet.ofLink rfl rfl rfl rfl rfl) (Kept.of rfl le_rfl rfl)
  | attentionMaskWrite dt v => exact (State.modLink_sound _ id).elapsed
  | registerWrite dt r v => exact execRegisterWrite_answers dt r v s
  | selfTestDone dt f => exact execSelfTestDone_answers dt f s
  | sweepExpiry dt => exact execSweepExpiry_answers dt s
  | linkReadDone dt l => exact execLinkReadDone_answers dt l s
  | orderReadDone dt b => exact execOrderReadDone_answers dt b s
  | resultWriteDone dt => exact execResultWriteDone_answers dt s
  | doneWriteDone dt => exact execDoneWriteDone_answers dt s
  | busError dt a => exact execBusError_answers dt a s
  | accessTimeout dt a => exact execAccessTimeout_answers dt a s
  | createSite b =>
    exact s.answer_sound_of_steady _ (·.createSite b) (State.createSite_sound s b) (State.createSite_steady s b)
  | setMap b => exact s.answer_sound_of_steady _ (·.setMap b) (State.setMap_sound s b) (State.setMap_steady s b)
  | setLimits b =>
    exact s.answer_sound_of_steady _ (·.setLimits b) (State.setLimits_sound s b) (State.setLimits_steady s b)
  | startSurvey n u l =>
    exact s.answer_sound_of_steady _ (·.startSurvey n u l) (State.startSurvey_sound s n u l) (State.startSurvey_steady s n u l)
  | pauseSurvey n =>
    exact s.answer_sound_of_steady _ (·.pauseSurvey n) (State.pauseSurvey_sound s n) (State.pauseSurvey_steady s n)
  | resumeSurvey n =>
    exact s.answer_sound_of_steady _ (·.resumeSurvey n) (State.resumeSurvey_sound s n) (State.resumeSurvey_steady s n)
  | closeSite n =>
    exact s.answer_sound_of_steady _ (·.closeSite n) (State.closeSite_sound s n) (State.closeSite_steady s n)
  | discardSite n =>
    exact s.answer_sound_of_steady _ (·.discardSite n) (State.discardSite_sound s n) (State.discardSite_steady s n)
  | readSite n r =>
    have e := State.readSite_state s n r
    exact s.answer_sound_of_steady _ (·.readSite n r) (e.symm ▸ Sound.refl s) (e.symm ▸ Steady.refl s)
  | startCheck n l =>
    exact s.answer_sound_of_steady _ (·.startCheck n l) (State.startCheck_sound s n l) (State.startCheck_steady s n l)
  | cancelCheck n =>
    exact s.answer_sound_of_steady _ (·.cancelCheck n) (State.cancelCheck_sound s n) (State.cancelCheck_steady s n)
  | setClock sec ms =>
    exact s.answer_sound _ (·.setClock sec ms) (fun _ => State.setClock_sound s sec ms) (State.setClock_link s sec ms)
  | snapshot n =>
    exact s.answer_sound_of_steady _ (·.snapshot n) (State.snapshot_sound s n) (State.snapshot_steady s n)
  | addNote b => exact s.answer_sound_of_steady _ (·.addNote b) (State.addNote_sound s b) (State.addNote_steady s b)
  | givePages c ps r =>
    exact s.answer_sound_of_steady _ (·.givePages c ps r) (State.givePages_sound s c ps r) (State.givePages_steady s c ps r)
  | flushStreams m r =>
    exact s.answer_sound_of_steady _ (·.flushStreams m r) (State.flushStreams_sound s m r) (State.flushStreams_steady s m r)
  | setStoreLevels l r =>
    exact s.answer_sound_of_steady _ (·.setStoreLevels l r) (State.setStoreLevels_sound s l r) (State.setStoreLevels_steady s l r)
  | queuePrint b r =>
    exact s.answer_sound_of_steady _ (·.queuePrint b r) (State.queuePrint_sound s b r) (State.queuePrint_steady s b r)
  | cancelPrint n =>
    exact s.answer_sound_of_steady _ (·.cancelPrint n) (State.cancelPrint_sound s n) (State.cancelPrint_steady s n)
  | readPrintQueue r =>
    have e := State.readPrintQueue_state s r
    exact s.answer_sound_of_steady _ (·.readPrintQueue r) (e.symm ▸ Sound.refl s) (e.symm ▸ Steady.refl s)
  | setPrinter n =>
    exact s.answer_sound_of_steady _ (·.setPrinter n) (State.setPrinter_sound s n) (State.setPrinter_steady s n)
  | setVanLines b r =>
    exact s.answer_sound_of_steady _ (·.setVanLines b r) (State.setVanLines_sound s b r) (State.setVanLines_steady s b r)
  | away => exact s.answer_sound _ (fun u => accept (u.depart .away) []) (fun hl => State.depart_sound s .away hl) rfl
  | rest => exact s.answer_sound _ (·.rest) (State.rest_sound s) (State.rest_link s)
  | linkBecomesAway => exact execLinkBecomesAway_answers s
  | cycleEnd dt => exact execCycleEnd_answers dt s
  | zeroCrossing dt ns => exact execZeroCrossing_answers dt ns s
  | lockAcquired => exact execLockAcquired_answers s
  | halfCycleEnd dt m => exact execHalfCycleEnd_answers dt m s
  | blockEnd dt ph n => exact execBlockEnd_answers dt ph n s
  | clockWrap => exact (State.elapse_sound s _).answers
  | presencePhaseEnd => exact execPresencePhaseEnd_answers s
  | rotationFound => exact execRotationFound_answers s
  | associationComplete => exact execAssociationComplete_answers s
  | lockWaitExpiry => exact execLockWaitExpiry_answers s
  | leadsMoved => exact execLeadsMoved_answers s
  | leadLost dt i a => exact execLeadLost_answers dt i a s
  | leadRestored i => exact execLeadRestored_answers i s
  | settleDone i => exact execSettleDone_answers i s
  | eventLong => exact execEventLong_answers s
  | captureComplete => exact execCaptureComplete_answers s
  | eventRecordHandedOn n => exact execEventRecordHandedOn_answers n s
  | holdTimeExpiry dt st => exact execHoldTimeExpiry_answers dt st s
  | deliveryStart st => exact Quiet.answers (State.startDelivery_quiet s st) (State.startDelivery_kept s st)
  | pageWriteDone dt st => exact execPageWriteDone_answers dt st s
  | pageLinkWriteDone dt st => exact execPageLinkWriteDone_answers dt st s
  | printJobStart => exact execPrintJobStart_answers s
  | recordReadDone dt b => exact execRecordReadDone_answers dt b s
  | busyRise dt => exact execBusyRise_answers dt s
  | busyFall dt => exact execBusyFall_answers dt s
  | paperOutChange dt b => exact execPaperOutChange_answers dt b s
  | headHotChange dt b => exact execHeadHotChange_answers dt b s
  | presentChange dt b => exact execPresentChange_answers dt b s
  | printerHoldCleared dt => exact execPrinterHoldCleared_answers dt s
  | printerStall dt => exact execPrinterStall_answers dt s
  | stallClear dt => exact execStallClear_answers dt s
  | vanLineChange dt l v => exact (State.modVan_sound _ _).elapsed
  | lineDebounced dt l => exact execLineDebounced_answers dt l s
  | wakeDelayEnd dt => exact execWakeDelayEnd_answers dt s

/-- A step keeps the five invariants. -/
theorem step_sound {s t : State} (h : step s = .next t) : (ClockLegal s → ClockLegal t)
    ∧ (LinkFitsPart s → LinkFitsPart t) ∧ (StoreWithinCaps s → StoreWithinCaps t)
    ∧ (TablesWithinBounds s → TablesWithinBounds t) ∧ (SiteTableSound s → SiteTableSound t) := by
  unfold step at h
  split at h
  · cases h
    exact ⟨id, id, id, id, id⟩
  · next c q _ =>
    obtain ⟨u, hu, hsound⟩ := exec_answers c (s.withPending q)
    rw [hu] at h
    cases h
    exact ⟨hsound.clock, hsound.link, hsound.caps, hsound.tables, hsound.sites⟩

/-- Settles O3: time is carried modulo the seconds' range, and Set Clock is judged. -/
theorem theClockStaysLegal : Obligations.TheClockStaysLegal := by
  intro s t hs h
  obtain ⟨hclock, _⟩ := step_sound h
  exact hclock hs

/-- Settles O4. -/
theorem theLinkStaysFit : Obligations.TheLinkStaysFit := by
  intro s t hs h
  obtain ⟨_, hlink, _⟩ := step_sound h
  exact hlink hs

/-- Settles O5: every admission tests for room first. -/
theorem theStoreKeepsItsCaps : Obligations.TheStoreKeepsItsCaps := by
  intro s t hs h
  obtain ⟨_, _, hcaps, _⟩ := step_sound h
  exact hcaps hs

/-- Settles O6. -/
theorem theTablesKeepTheirBounds : Obligations.TheTablesKeepTheirBounds := by
  intro s t hs h
  obtain ⟨_, _, _, htables, _⟩ := step_sound h
  exact htables hs

/-- Settles O7. -/
theorem theSiteTableStaysSound : Obligations.TheSiteTableStaysSound := by
  intro s t hs h
  obtain ⟨_, _, _, _, hsites⟩ := step_sound h
  exact hsites hs

end Sys2Proof.Machine

/-! # Steps, time and orders in general

The step, the survey clock, the invariants at reset, and what every order command answers (R9, R34, R110, R175). -/

namespace Sys2Proof.Machine

/-! ## Steps and the clock -/

/-- Settles O1. -/
theorem stepRunsTheFrontCommand : Obligations.StepRunsTheFrontCommand := by
  refine ⟨fun c q s h => ?_, fun s h => ?_⟩ <;>
  · unfold step
    rw [h]

/-- Below the wrap, no time that passes is lost. -/
theorem Time.advance_total (t : Time) (dt : Nat) (h : t.total + dt < 4294967296000) :
    (t.advance dt).total = t.total + dt := by
  unfold Time.advance
  simp only [Time.total] at *
  omega

theorem Time.advance_unset (t : Time) (dt : Nat) (h : t.total + dt < 4294967296000) :
    (t.advance dt).unset = t.unset := by
  have hsec : ¬ 4294967296 ≤ (t.total + dt) / 1000 := by omega
  simp [Time.advance, hsec]

/-- The time that is left until the wrap brings the clock to 0, with Clock Unset set (R34). -/
theorem Time.advance_untilWrap (t : Time) (h : t.sec ≤ 4294967295) (hms : t.ms ≤ 999) :
    t.advance t.untilWrap = ⟨0, 0, true⟩ := by
  have htotal : t.total + t.untilWrap = 4294967296000 := by
    unfold Time.untilWrap Time.total
    omega
  unfold Time.advance
  rw [htotal]
  simp

/-- Settles O2. -/
theorem theClockCountsAndWraps : Obligations.TheClockCountsAndWraps := by
  refine ⟨fun t dt _ h => ?counts, fun s ⟨hsec, hms⟩ => ?wraps⟩
  case counts => exact ⟨t.advance_total dt h, (t.advance_legal dt).2, t.advance_unset dt h⟩
  case wraps =>
    have hclock := s.clock.advance_untilWrap hsec hms
    change Host.Outcome.next (s.elapse s.clock.untilWrap) = _
    unfold State.elapse
    rw [hclock]
    rfl

/-! ## The invariants at reset -/

theorem State.reset_site (k : Fin 8) : State.reset.site k = none := by simp [State.site, State.reset]

/-- Settles O8: after reset every table is empty. -/
theorem theInvariantsHoldAtReset : Obligations.TheInvariantsHoldAtReset := by
  refine ⟨by decide, by decide, by decide, by decide, fun j k x y hx => ?sites, fun c hc => ?check⟩
  case sites =>
    rw [State.reset_site] at hx
    cases hx
  case check => cases hc

/-! ## What an order's block gives back -/

/-- An order is carried out, is a note that was counted lost, or is refused with every block as it was. -/
def Answer.Fair (s : State) (a : Answer) : Prop := a.code = .ok ∨ a.code = .journalFull ∨ a = refuse s a.code

theorem refuse_fair (s : State) (c : ResultCode) : (refuse s c).Fair s := Or.inr (Or.inr rfl)

theorem accept_fair (s t : State) (area : List Byte) : (accept t area).Fair s := Or.inl rfl

theorem Answer.Fair.ite {s : State} {a b : Answer} {c : Prop} [Decidable c] (ha : a.Fair s) (hb : b.Fair s) :
    (if c then a else b).Fair s := by split <;> assumption

theorem State.judgeSite_fair (s : State) (n : Nat) (b : Bool) (f : Fin 8 → Site → Answer)
    (h : ∀ k x, (f k x).Fair s) : (s.judgeSite n b f).Fair s :=
  State.judgeSite_cases s n b f (P := Answer.Fair s) (refuse_fair s) fun k x _ _ => h k x

theorem State.createSite_fair (s : State) (b : CreateSiteBody) : (s.createSite b).Fair s := by
  unfold State.createSite
  split
  · exact refuse_fair s _
  · refine Answer.Fair.ite (refuse_fair s _) ?_
    split
    · exact refuse_fair s _
    · exact accept_fair s _ _

theorem State.setMap_fair (s : State) (b : SetMapBody) : (s.setMap b).Fair s := by
  refine State.judgeSite_fair s _ _ _ fun k x => Answer.Fair.ite (refuse_fair s _) ?_
  cases x.state
  case checking | surveying | closed => exact refuse_fair s _
  case drafted | ready | paused => exact accept_fair s _ _

theorem State.setLimits_fair (s : State) (b : SetLimitsBody) : (s.setLimits b).Fair s := by
  refine State.judgeSite_fair s _ _ _ fun k x => ?_
  cases x.state
  case closed => exact refuse_fair s _
  all_goals exact accept_fair s _ _

theorem State.startSurvey_fair (s : State) (n : Nat) (u : Bool) (l : PerClamp Nat) :
    (s.startSurvey n u l).Fair s :=
  State.judgeSite_fair s _ _ _ fun _ _ =>
    Answer.Fair.ite (refuse_fair s _) (Answer.Fair.ite (refuse_fair s _) (accept_fair s _ _))

theorem State.pauseSurvey_fair (s : State) (n : Nat) : (s.pauseSurvey n).Fair s :=
  State.judgeSite_fair s _ _ _ fun _ _ => Answer.Fair.ite (refuse_fair s _) (accept_fair s _ _)

theorem State.resumeSurvey_fair (s : State) (n : Nat) : (s.resumeSurvey n).Fair s :=
  State.judgeSite_fair s _ _ _ fun _ _ => Answer.Fair.ite (refuse_fair s _) (accept_fair s _ _)

theorem State.closeSite_fair (s : State) (n : Nat) : (s.closeSite n).Fair s :=
  State.judgeSite_fair s _ _ _ fun _ _ => Answer.Fair.ite (refuse_fair s _) (accept_fair s _ _)

theorem State.discardSite_fair (s : State) (n : Nat) : (s.discardSite n).Fair s :=
  State.judgeSite_fair s _ _ _ fun _ _ => Answer.Fair.ite (refuse_fair s _)
    (Answer.Fair.ite (refuse_fair s _) (Answer.Fair.ite (refuse_fair s _) (accept_fair s _ _)))

theorem State.readSite_fair (s : State) (n r : Nat) : (s.readSite n r).Fair s :=
  Answer.Fair.ite (Answer.Fair.ite (refuse_fair s _) (accept_fair s _ _))
    (State.judgeSite_fair s _ _ _ fun _ _ => Answer.Fair.ite (refuse_fair s _) (accept_fair s _ _))

theorem State.startCheck_fair (s : State) (n : Nat) (l : PerClamp Nat) : (s.startCheck n l).Fair s := by
  refine State.judgeSite_fair s _ _ _ fun k x => ?_
  cases x.state
  case checking | surveying | closed => exact refuse_fair s _
  case drafted | ready | paused => exact Answer.Fair.ite (refuse_fair s _) (accept_fair s _ _)

theorem State.cancelCheck_fair (s : State) (n : Nat) : (s.cancelCheck n).Fair s := by
  refine State.judgeSite_fair s _ _ _ fun k x => ?_
  split
  · exact accept_fair s _ _
  · exact refuse_fair s _

theorem State.setClock_fair (s : State) (sec ms : Nat) : (s.setClock sec ms).Fair s :=
  Answer.Fair.ite (refuse_fair s _) (Answer.Fair.ite (refuse_fair s _) (accept_fair s _ _))

theorem State.snapshot_fair (s : State) (n : Nat) : (s.snapshot n).Fair s := by
  refine State.judgeSite_fair s _ _ _ fun k x => Answer.Fair.ite (refuse_fair s _) ?_
  split
  · exact refuse_fair s _
  · exact accept_fair s _ _

/-- A note is refused, admitted, or counted lost with Journal Full (R110). -/
theorem State.addNote_fair (s : State) (b : AddNoteBody) : (s.addNote b).Fair s := by
  unfold State.addNote
  split
  · exact refuse_fair s _
  · dsimp only
    split
    · exact accept_fair s _ _
    · exact Or.inr (Or.inl rfl)

theorem State.givePages_fair (s : State) (c : Nat) (ps : List WRef) (r : Nat) : (s.givePages c ps r).Fair s :=
  Answer.Fair.ite (refuse_fair s _) (Answer.Fair.ite (refuse_fair s _) (accept_fair s _ _))

theorem State.flushStreams_fair (s : State) (m r : Nat) : (s.flushStreams m r).Fair s :=
  Answer.Fair.ite (refuse_fair s _) (accept_fair s _ _)

theorem State.setStoreLevels_fair (s : State) (l : StoreLevels) (r : Nat) : (s.setStoreLevels l r).Fair s :=
  Answer.Fair.ite (refuse_fair s _) (Answer.Fair.ite (refuse_fair s _) (accept_fair s _ _))

theorem State.judgeJob_fair (s : State) (c : Nat) (is : List RawItem) : (s.judgeJob c is).Fair s := by
  unfold State.judgeJob
  refine Answer.Fair.ite (refuse_fair s _)
    (Answer.Fair.ite (refuse_fair s _) (Answer.Fair.ite (refuse_fair s _) ?_))
  split
  · exact refuse_fair s _
  · exact accept_fair s _ _

theorem State.queuePrint_fair (s : State) (b : QueuePrintBody) (r : Nat) : (s.queuePrint b r).Fair s := by
  unfold State.queuePrint
  refine Answer.Fair.ite (refuse_fair s _) ?_
  split
  · exact refuse_fair s _
  · refine Answer.Fair.ite (refuse_fair s _) ?_
    split
    · exact refuse_fair s _
    · exact State.judgeJob_fair s _ _

theorem State.cancelPrint_fair (s : State) (n : Nat) : (s.cancelPrint n).Fair s := by
  unfold State.cancelPrint
  split
  · exact refuse_fair s _
  · exact Answer.Fair.ite (accept_fair s _ _) (accept_fair s _ _)

theorem State.readPrintQueue_fair (s : State) (r : Nat) : (s.readPrintQueue r).Fair s :=
  Answer.Fair.ite (refuse_fair s _) (accept_fair s _ _)

theorem State.setPrinter_fair (s : State) (n : Nat) : (s.setPrinter n).Fair s :=
  Answer.Fair.ite (refuse_fair s _) (accept_fair s _ _)

theorem State.setVanLines_fair (s : State) (b : PerLine LineSettingBody) (r : Nat) : (s.setVanLines b r).Fair s := by
  unfold State.setVanLines
  split
  · exact refuse_fair s _
  · exact Answer.Fair.ite (refuse_fair s _) (accept_fair s _ _)

theorem State.rest_fair (s : State) : s.rest.Fair s := Answer.Fair.ite (refuse_fair s _) (accept_fair s _ _)

/-! ## The order commands -/

/-- The command `c` is the order `o`: it answers what the order's block gives, which is fair. -/
def IsOrder (c : Instr) (o : Order) (s : State) : Prop :=
  ∃ g : State → Answer, exec c s = s.answer o g ∧ (g s).Fair s

theorem isOrder_of_orderOfCommand {c : Instr} {o : Order} (s : State) (h : orderOfCommand c = some o) :
    IsOrder c o s := by
  cases c <;> cases h
  case createSite b => exact ⟨(·.createSite b), rfl, State.createSite_fair s b⟩
  case setMap b => exact ⟨(·.setMap b), rfl, State.setMap_fair s b⟩
  case setLimits b => exact ⟨(·.setLimits b), rfl, State.setLimits_fair s b⟩
  case startSurvey n u l => exact ⟨(·.startSurvey n u l), rfl, State.startSurvey_fair s n u l⟩
  case pauseSurvey n => exact ⟨(·.pauseSurvey n), rfl, State.pauseSurvey_fair s n⟩
  case resumeSurvey n => exact ⟨(·.resumeSurvey n), rfl, State.resumeSurvey_fair s n⟩
  case closeSite n => exact ⟨(·.closeSite n), rfl, State.closeSite_fair s n⟩
  case discardSite n => exact ⟨(·.discardSite n), rfl, State.discardSite_fair s n⟩
  case readSite n r => exact ⟨(·.readSite n r), rfl, State.readSite_fair s n r⟩
  case startCheck n l => exact ⟨(·.startCheck n l), rfl, State.startCheck_fair s n l⟩
  case cancelCheck n => exact ⟨(·.cancelCheck n), rfl, State.cancelCheck_fair s n⟩
  case setClock sec ms => exact ⟨(·.setClock sec ms), rfl, State.setClock_fair s sec ms⟩
  case snapshot n => exact ⟨(·.snapshot n), rfl, State.snapshot_fair s n⟩
  case addNote b => exact ⟨(·.addNote b), rfl, State.addNote_fair s b⟩
  case givePages c ps r => exact ⟨(·.givePages c ps r), rfl, State.givePages_fair s c ps r⟩
  case flushStreams m r => exact ⟨(·.flushStreams m r), rfl, State.flushStreams_fair s m r⟩
  case setStoreLevels l r => exact ⟨(·.setStoreLevels l r), rfl, State.setStoreLevels_fair s l r⟩
  case queuePrint b r => exact ⟨(·.queuePrint b r), rfl, State.queuePrint_fair s b r⟩
  case cancelPrint n => exact ⟨(·.cancelPrint n), rfl, State.cancelPrint_fair s n⟩
  case readPrintQueue r => exact ⟨(·.readPrintQueue r), rfl, State.readPrintQueue_fair s r⟩
  case setPrinter n => exact ⟨(·.setPrinter n), rfl, State.setPrinter_fair s n⟩
  case setVanLines b r => exact ⟨(·.setVanLines b r), rfl, State.setVanLines_fair s b r⟩
  case away => exact ⟨fun t => accept (t.depart .away) [], rfl, accept_fair s _ _⟩
  case rest => exact ⟨(·.rest), rfl, State.rest_fair s⟩

theorem State.offered_none {s : State} {o : Order} (h : ∀ f, ¬ (Offers s f ∧ f.order = o)) : s.offered o = none := by
  cases hf : s.offered o with
  | none => rfl
  | some f => exact absurd ((State.offered_iff s o f).mp hf) (h f)

/-- Settles O20: the order commands by what their blocks give, and every command by `exec_answers`. -/
theorem ordersAnswerTheirOffer : Obligations.OrdersAnswerTheirOffer := by
  refine ⟨fun c o s hc => ?orders, fun c s => ?total⟩
  case orders =>
    obtain ⟨g, he, hfair⟩ := isOrder_of_orderOfCommand s hc
    refine ⟨⟨(g s).state, (g s).code, (g s).area, takes_of_answer he rfl, fun hok hfull => ?_⟩, fun hno => ?_⟩
    · rcases hfair with h | h | h
      · exact absurd h hok
      · exact absurd h hfull
      · rw [h]
        exact ⟨rfl, rfl⟩
    · rw [he, State.answer_of_none g (State.offered_none hno)]
  case total =>
    obtain ⟨t, ht, hsound⟩ := exec_answers c s
    exact ⟨t, ht, hsound.queue⟩

end Sys2Proof.Machine

/-! # Power-on, Reset, self-test and the registers (R169 to R171, R178)

What a journal entry and the end of a job leave of the van lines, the printer line of an engine without a
job, and the statements about power-on and Reset, the end of self-test, register writes and register reads. -/

namespace Sys2Proof.Machine

/-! ## The van lines under the shared operations -/

/-- Of the Van Line Unit only WAKE and its source may differ (R164). -/
structure SameLines (s t : State) : Prop where
  lines : t.van.lines = s.van.lines
  nextMark : t.van.nextMark = s.van.nextMark
  rest : t.van.rest = s.van.rest

theorem SameLines.of {s t : State} (h : t.van = s.van) : SameLines s t := by
  constructor <;> rw [h]

theorem SameLines.refl (s : State) : SameLines s s := SameLines.of rfl

theorem SameLines.trans {s t u : State} (a : SameLines s t) (b : SameLines t u) : SameLines s u :=
  ⟨b.lines.trans a.lines, b.nextMark.trans a.nextMark, b.rest.trans a.rest⟩

theorem SameLines.ite {s a b : State} {c : Prop} [Decidable c] (ha : SameLines s a) (hb : SameLines s b) :
    SameLines s (if c then a else b) := by split <;> assumption

/-- A first part that leaves the Van Line Unit alone, then a second. -/
theorem SameLines.after {s t u : State} (h : SameLines u t) (e : u.van = s.van) : SameLines s t :=
  (SameLines.of e).trans h

/-- A first part, then a second that leaves the Van Line Unit alone. -/
theorem SameLines.before {s t u : State} (h : SameLines s t) (e : u.van = t.van) : SameLines s u :=
  h.trans (SameLines.of e)

@[simp] theorem State.modSite_van (s : State) (k : Fin 8) (f : Site → Site) : (s.modSite k f).van = s.van := by
  unfold State.modSite
  split <;> rfl

@[simp] theorem State.modLabel_van (s : State) (n : Nat) (f : Site → Site) : (s.modLabel n f).van = s.van := by
  unfold State.modLabel
  split
  · exact State.modSite_van s _ f
  · rfl

@[simp] theorem State.setJournal_van (s : State) (n : Nat) (j : JournalState) :
    (s.setJournal n j).van = s.van := by
  unfold State.setJournal
  split
  · rfl
  · exact State.modLabel_van s n _

@[simp] theorem State.countEntry_van (s : State) (n : Nat) : (s.countEntry n).van = s.van := by
  unfold State.countEntry
  split
  · rfl
  · exact State.modLabel_van s n _

@[simp] theorem State.countLostEntry_van (s : State) (n : Nat) : (s.countLostEntry n).van = s.van := by
  unfold State.countLostEntry
  split
  · rfl
  · exact State.modLabel_van s n _

theorem State.wakeRequest_lines (s : State) (w : WakeSource) : SameLines s (s.wakeRequest w) := by
  unfold State.wakeRequest
  exact SameLines.ite ⟨rfl, rfl, rfl⟩ (SameLines.refl s)

theorem State.storeHighTest_lines (s : State) (n : Nat) : SameLines s (s.storeHighTest n) := by
  unfold State.storeHighTest
  exact SameLines.ite ((State.wakeRequest_lines (s.raise .storeHigh) _).after rfl) (SameLines.refl s)

theorem State.addRecords_lines (s : State) (st : Stream) (rs : List Record) : SameLines s (s.addRecords st rs) :=
  (State.storeHighTest_lines _ _).after rfl

/-- A journal entry can raise WAKE, and leaves the van lines and Rest alone. -/
theorem State.enter_lines (s : State) (r : EntryRequest) : SameLines s (s.enter r).1 := by
  unfold State.enter
  split
  · exact SameLines.refl s
  · next j _ =>
    split
    · exact (SameLines.of (State.setJournal_van s r.site j.taken)).trans
        ((State.addRecords_lines _ _ _).trans (SameLines.of (State.countEntry_van _ _)))
    · exact (SameLines.of (State.setJournal_van s r.site j.lose)).trans
        (SameLines.of (State.countLostEntry_van _ _))

theorem State.put_lines (s : State) (n : Nat) (b : EntryBody) : SameLines s (s.put n b) := State.enter_lines s _

theorem State.putAnchored_lines (s : State) (n : Nat) (a : Anchor) (b : EntryBody) :
    SameLines s (s.putAnchored n a b) := State.enter_lines s _

theorem OnlyPrint.van {s t : State} (h : OnlyPrint s t) : t.van = s.van := by rw [h]

theorem OnlyPrint.store {s t : State} (h : OnlyPrint s t) : t.store = s.store := by rw [h]

theorem OnlyPrint.lp {s t : State} (h : OnlyPrint s t) : t.lp = s.lp := by rw [h]

/-! ## A print engine without a job -/

/-- Without a job no line is sent and no item reached. -/
theorem State.work_of_no_current {s : State} (h : s.print.current = none) : s.work = s := by
  have hr : s.reachItem = s := by
    unfold State.reachItem
    rw [h]
  unfold State.work State.drive
  rw [hr, h]

theorem PrintEngine.current_of_no_jobs {p : PrintEngine} (h : p.jobs = []) : p.current = none := by
  unfold PrintEngine.current
  rw [h]
  rfl

/-- With an empty queue the line is judged and nothing else moves (R149). -/
theorem State.settle_of_no_jobs {s : State} (h : s.print.jobs = []) :
    s.settle = s.modPrint PrintEngine.setLine := by
  have hj : (s.modPrint PrintEngine.setLine).print.jobs = [] := by
    simp [State.modPrint, PrintEngine.setLine, h]
  have he : (s.modPrint PrintEngine.setLine).modPrint (fun p => { p with jobs := p.jobs.map Job.resume })
      = s.modPrint PrintEngine.setLine := by
    simp only [State.modPrint, PrintEngine.setLine, h, List.map_nil]
  unfold State.settle
  dsimp only
  rw [he, ite_self, State.work_of_no_current (PrintEngine.current_of_no_jobs hj)]

/-- After self-test and at the wake, with an empty queue (R149). -/
theorem State.judgeLine_of_no_jobs {s : State} (h : s.print.jobs = []) : s.judgeLine = { s with
    print := PrintEngine.setLine { s.print with judged := true, paperHold := none, heatHold := none } } :=
  State.settle_of_no_jobs
    (s := s.modPrint fun p => { p with judged := true, paperHold := none, heatHold := none }) h

theorem State.judgeLine_judged (s : State) : s.judgeLine.print.judged = true :=
  (State.settle_signals _).judged

/-! ## Power-on and Reset -/

theorem State.restAtReset_of_resting {s : State} {r : RestRecord} (hp : s.lp.part = .resting)
    (hr : s.van.rest = some r) : s.restAtReset = some ⟨r.began, some ⟨.reset, s.now, false⟩⟩ := by
  unfold State.restAtReset
  rw [hp, hr]

theorem State.restAtReset_of_not_resting {s : State} (hp : s.lp.part ≠ .resting) : s.restAtReset = none := by
  unfold State.restAtReset
  cases hpart : s.lp.part with
  | resting => exact absurd hpart hp
  | selfTest | broken | running => rfl

/-- Settles O9: Power-on and Reset share `resetBlocks`; only the rest record and the wake source depend on the
part. -/
theorem powerOnAndResetRestoreEveryBlock : Obligations.PowerOnAndResetRestoreEveryBlock := by
  unfold Obligations.PowerOnAndResetRestoreEveryBlock
  refine ⟨fun s => rfl, fun dt s => ⟨_, rfl, rfl, rfl, rfl, rfl, fun hp => ?running, fun r hp hr => ?resting⟩⟩
  case running =>
    have e := State.restAtReset_of_not_resting (s := s.elapse dt) hp
    exact ⟨congrArg (fun r : Option RestRecord => if r.isSome then WakeSource.reset else .none) e, e⟩
  case resting =>
    have e := State.restAtReset_of_resting (s := s.elapse dt) hp hr
    exact ⟨congrArg (fun r : Option RestRecord => if r.isSome then WakeSource.reset else .none) e, e⟩

/-! ## The end of self-test -/

theorem execSelfTestDone_passes {s : State} (dt : Nat) (h : s.lp.part = .selfTest) :
    exec (.selfTestDone dt none) s = .next (s.elapse dt).testPasses := if_pos h

theorem execSelfTestDone_fails {s : State} (dt : Nat) (step : SelfTestStep) (h : s.lp.part = .selfTest) :
    exec (.selfTestDone dt (some step)) s = .next ((s.elapse dt).testFails step) := if_pos h

theorem State.wokeAfterReset_of_none {s : State} (h : s.van.rest = none) : s.wokeAfterReset = s := by
  unfold State.wokeAfterReset
  rw [h]

theorem State.wokeAfterReset_of_some {s : State} {r : RestRecord} (h : s.van.rest = some r) :
    s.wokeAfterReset = (s.modVan fun v => { v with rest := none }).put 0
      (.woke s.van.source r.began.time ((r.exit.map (·.at_.time)).getD s.clock)) := by
  unfold State.wokeAfterReset
  rw [h]

/-- The Woke entry leaves the link and the Print Engine alone and ends the rest record. -/
theorem State.wokeAfterReset_frame (s : State) : SameLink s s.wokeAfterReset
    ∧ s.wokeAfterReset.print = s.print ∧ s.wokeAfterReset.van.rest = none := by
  cases h : s.van.rest with
  | none =>
    rw [State.wokeAfterReset_of_none h]
    exact ⟨rfl, rfl, h⟩
  | some r =>
    rw [State.wokeAfterReset_of_some h]
    exact ⟨(State.put_quiet _ _ _).steady.link, (State.put_aside _ _ _).print, (State.put_lines _ _ _).rest⟩

/-- Settles O10: the two ends of self-test, written out where the queue is empty and by their parts otherwise. -/
theorem selfTestEndsRunningOrBroken : Obligations.SelfTestEndsRunningOrBroken := by
  unfold Obligations.SelfTestEndsRunningOrBroken
  intro dt s hp
  let t := (s.elapse dt).modLink fun p => { p with part := .running, selfTestCode := 0 }
  refine ⟨fun hj hr => ?noEntry, fun r e hj hr he => ?woke, ?passes, fun step hj => ?failsIdle, fun step => ?fails,
    rfl, rfl⟩
  case noEntry =>
    rw [execSelfTestDone_passes dt hp]
    have hl := State.judgeLine_of_no_jobs (s := t) hj
    exact congrArg Host.Outcome.next ((State.wokeAfterReset_of_none (by rw [hl]; exact hr)).trans hl)
  case woke =>
    rw [execSelfTestDone_passes dt hp]
    have hl := State.judgeLine_of_no_jobs (s := t) hj
    refine congrArg Host.Outcome.next ((State.wokeAfterReset_of_some (r := r) (by rw [hl]; exact hr)).trans ?_)
    rw [hl, he]
    rfl
  case passes =>
    obtain ⟨hlink, hprint, hrest⟩ := State.wokeAfterReset_frame t.judgeLine
    have hlp := (State.judgeLine_only t).lp
    refine ⟨_, execSelfTestDone_passes dt hp, ?_, ?_, ?_, hrest⟩
    · exact (SameLink.field (·.part) (fun _ => rfl) hlink).trans (congrArg LinkPort.part hlp)
    · exact (SameLink.field (·.selfTestCode) (fun _ => rfl) hlink).trans (congrArg LinkPort.selfTestCode hlp)
    · exact (congrArg PrintEngine.judged hprint).trans (State.judgeLine_judged t)
  case failsIdle =>
    rw [execSelfTestDone_fails dt step hp]
    exact congrArg Host.Outcome.next (State.judgeLine_of_no_jobs hj)
  case fails =>
    refine ⟨_, execSelfTestDone_fails dt step hp, ?_, ?_, State.judgeLine_judged _, ?_⟩
    · exact congrArg LinkPort.part (State.judgeLine_only _).lp
    · exact congrArg LinkPort.selfTestCode (State.judgeLine_only _).lp
    · exact congrArg VanLines.rest (State.judgeLine_only _).van

/-! ## Register writes -/

theorem AttentionBit.place_lt (b : AttentionBit) : b.place < 32 := by cases b <;> decide

theorem AttentionBit.place_inj {b c : AttentionBit} (h : b.place = c.place) : b = c := by
  revert h
  cases b <;> cases c <;> decide

/-- A bit's word holds its place alone. -/
theorem AttentionBit.word_getLsbD (b c : AttentionBit) : b.word.getLsbD c.place = decide (b = c) := by
  unfold AttentionBit.word
  have h : BitVec.ofNat 32 (2 ^ b.place) = BitVec.twoPow 32 b.place :=
    BitVec.eq_of_toNat_eq (by rw [BitVec.toNat_ofNat, BitVec.toNat_twoPow])
  rw [h, BitVec.getLsbD_twoPow]
  simp only [b.place_lt, decide_true, Bool.true_and, decide_eq_decide]
  exact ⟨AttentionBit.place_inj, congrArg _⟩

theorem State.attends_raise (s : State) (b c : AttentionBit) :
    (s.raise b).attends c = (s.attends c || decide (b = c)) := by
  unfold State.raise State.attends
  rw [BitVec.getLsbD_or, AttentionBit.word_getLsbD]

/-- The interrupt request is asserted while a bit is set in Attention and in its mask (R178). -/
theorem State.interrupt_iff (s : State) :
    s.interrupt = true ↔ ∃ k, s.lp.attention.getLsbD k = true ∧ s.lp.mask.getLsbD k = true := by
  unfold State.interrupt
  rw [decide_eq_true_iff]
  constructor
  · intro h
    by_contra hn
    refine h (BitVec.eq_of_getLsbD_eq fun k _ => ?_)
    rw [BitVec.getLsbD_and, show BitVec.getLsbD (0 : BitVec 32) k = false from BitVec.getLsbD_zero, Bool.and_eq_false_iff]
    by_contra hb
    rw [not_or, Bool.not_eq_false, Bool.not_eq_false] at hb
    exact hn ⟨k, hb⟩
  · rintro ⟨k, ha, hm⟩ h
    have := congrArg (BitVec.getLsbD · k) h
    simp [ha, hm] at this

/-- A write to Control/Status without exactly one command has no effect. -/
theorem State.control_none {s : State} {v : BitVec 64} (h : v.toNat % 16 ∉ [1, 2, 4, 8]) : s.control v = s := by
  simp only [List.mem_cons, List.not_mem_nil, or_false, not_or] at h
  obtain ⟨h1, h2, h4, h8⟩ := h
  unfold State.control
  split
  · next h => exact absurd h h1
  · next h => exact absurd h h2
  · next h => exact absurd h h4
  · next h => exact absurd h h8
  · rfl

/-- The command of a write to Control/Status. -/
theorem execRegisterWrite_control (dt : Nat) (v : BitVec 64) (s : State) :
    exec (.registerWrite dt .controlStatus v) s = .next ((s.elapse dt).control v) := rfl

/-- Settles O11: each register's write, the attention bits and the interrupt request. -/
theorem registerWritesActByTheirRegister : Obligations.RegisterWritesActByTheirRegister := by
  unfold Obligations.RegisterWritesActByTheirRegister
  refine ⟨fun dt v s => ⟨rfl, rfl, s.interrupt_iff, fun b => ⟨s.raise_attends b, fun c hc => ?other⟩⟩,
    fun dt v s => ⟨rfl, rfl, rfl, fun h => ?start, fun h => ?stop, fun h => ?back, fun h => ?reset, fun h => ?none⟩⟩
  case other =>
    rw [State.attends_raise, decide_eq_false (Ne.symm hc), Bool.or_false]
  case start | stop | back | reset =>
    rw [execRegisterWrite_control]
    unfold State.control
    rw [h]
    rfl
  case none =>
    rw [execRegisterWrite_control, State.control_none h]

/-! ## Register reads -/

theorem PartState.number_lt (p : PartState) : p.number < 4 := by cases p <;> decide

theorem LinkState.number_lt (l : LinkState) : l.number < 4 := by cases l <;> decide

theorem PrinterLine.number_lt (l : PrinterLine) : l.number < 8 := by cases l <;> decide

theorem FaultCause.number_lt (c : FaultCause) : c.number < 256 := by cases c <;> decide

theorem AccessKind.number_lt (k : AccessKind) : k.number < 256 := by cases k <;> decide

theorem WakeSource.number_lt (w : WakeSource) : w.number < 16 := by
  cases w with
  | line l => cases l <;> decide
  | none | storeHigh | interruption _ _ | back | reset => simp only [WakeSource.number]; omega

theorem State.liveSlotNumber_lt (s : State) : s.liveSlotNumber < 16 := by
  unfold State.liveSlotNumber
  cases s.liveSlot with
  | none => decide
  | some k => exact lt_trans k.isLt (by decide)

/-- A store within its caps is at most 512 KiB (R115). -/
theorem RecordStore.occupancyKiB_lt {r : RecordStore} (h : r.total ≤ 524288) : r.occupancyKiB < 1024 := by
  unfold RecordStore.occupancyKiB
  omega

/-- Each register stands at its own offset. -/
theorem State.readRegister_offset (s : State) (r : Register) :
    s.readRegister r.offset = some (le r.size (s.registerValue r)) := by
  have hfind : (Register.all.find? fun q => q.offset == r.offset) = some r := by cases r <;> decide
  unfold State.readRegister
  rw [hfind]
  rfl

/-- No register stands at another offset. -/
theorem State.readRegister_none (s : State) {n : Nat} (h : n ∉ [0, 8, 16, 24, 28, 32, 40]) :
    s.readRegister n = none := by
  unfold State.readRegister
  rw [Option.map_eq_none_iff, List.find?_eq_none]
  intro r hr he
  refine h ?_
  rw [← beq_iff_eq.mp he]
  cases r <;> decide

/-- The part code stands in the low half of Identity, whatever its revision. -/
theorem identity_code : identity.toNat % 65536 = 18440 := by
  have h := Config.revision.isLt
  unfold identity
  rw [BitVec.toNat_ofNat]
  omega

/-- Settles O12: every field lies within its width, so the fields of the sum do not overlap. -/
theorem statusRegistersReadTheirFields : Obligations.StatusRegistersReadTheirFields := by
  unfold Obligations.StatusRegistersReadTheirFields
  refine ⟨fun s hb hc hcode hw ho => ?fields, rfl, fun s => ⟨s.readRegister_offset, fun n => s.readRegister_none, rfl⟩⟩
  case fields =>
    obtain ⟨hpool, -⟩ := hb
    have hpart := s.lp.part.number_lt
    have hlink := s.lp.link.number_lt
    have hkib := RecordStore.occupancyKiB_lt hc.2
    have hslot := s.liveSlotNumber_lt
    have hline := s.print.line.number_lt
    have hsource := s.van.source.number_lt
    have hcause := s.lp.fault.cause.number_lt
    have hkind := s.lp.fault.kind.number_lt
    have hfault : s.faultValue.toNat = s.lp.fault.cause.number + 2 ^ 8 * s.lp.fault.kind.number
        + 2 ^ 16 * s.lp.fault.window + 2 ^ 32 * s.lp.fault.offset :=
      Nat.mod_eq_of_lt (by omega)
    have hstatus : s.controlStatus.toNat = s.lp.part.number + 2 ^ 2 * s.lp.link.number + 2 ^ 4 * s.lp.selfTestCode
        + 2 ^ 12 * s.store.pool.length + 2 ^ 21 * s.store.occupancyKiB + 2 ^ 31 * s.liveSlotNumber
        + 2 ^ 35 * s.print.line.number + 2 ^ 38 * s.van.source.number :=
      Nat.mod_eq_of_lt (by omega)
    rw [hfault, hstatus]
    refine ⟨?_, ?_, ?_, ?_, ?_, ?_, ?_, ?_, ?_, ?_, ?_, ?_, identity_code⟩ <;> omega

end Sys2Proof.Machine

/-! # Start, Stop and Back (R165, R167, R172, R173)

What a sound anchor block is, what the ends of all jobs leave at a Stop, and the statements about the three
commands of Control/Status that move the link. -/

namespace Sys2Proof.Machine

/-! ## The parts of the store that no entry reaches -/

/-- Of the Record Store only the queues and the lost counts may differ. -/
def OnlyQueues (r m : RecordStore) : Prop :=
  m = { r with queues := m.queues, lostTotal := m.lostTotal, lostSincePage := m.lostSincePage }

theorem OnlyQueues.refl (r : RecordStore) : OnlyQueues r r := rfl

theorem OnlyQueues.of {r m : RecordStore} (h : m = r) : OnlyQueues r m := h ▸ OnlyQueues.refl m

theorem OnlyQueues.trans {r m n : RecordStore} (a : OnlyQueues r m) (b : OnlyQueues m n) : OnlyQueues r n := by
  unfold OnlyQueues at *
  rw [b, a]

section

variable {r m : RecordStore} (h : OnlyQueues r m)

include h

theorem OnlyQueues.levels : m.levels = r.levels := by rw [h]

theorem OnlyQueues.pool : m.pool = r.pool := by rw [h]

theorem OnlyQueues.waiting : m.waiting = r.waiting := by rw [h]

theorem OnlyQueues.pins : m.pins = r.pins := by rw [h]

theorem OnlyQueues.tails : m.tails = r.tails := by rw [h]

theorem OnlyQueues.deliveries : m.deliveries = r.deliveries := by rw [h]

theorem OnlyQueues.pageSequence : m.pageSequence = r.pageSequence := by rw [h]

end

theorem State.addRecords_store (s : State) (st : Stream) (rs : List Record) :
    (s.addRecords st rs).store = { s.store with
      queues := s.store.queues.set st (s.store.queues.get st ++ rs.map (queued s)) } :=
  State.storeHighTest_store _ _

/-- A journal entry reaches the queues and the lost counts alone (R104, R105). -/
theorem State.enter_onlyQueues (s : State) (r : EntryRequest) : OnlyQueues s.store (s.enter r).1.store := by
  unfold State.enter
  split
  · exact OnlyQueues.refl _
  · split
    · rw [State.countEntry_store, State.addRecords_store, State.setJournal_store]
      rfl
    · unfold State.countLost
      rw [State.countLostEntry_store, State.setJournal_store]
      rfl

theorem State.put_onlyQueues (s : State) (n : Nat) (b : EntryBody) : OnlyQueues s.store (s.put n b).store :=
  State.enter_onlyQueues s _

/-! ## The ends of jobs -/

/-- What the end of a job leaves of the store's delivery side, and of the van lines (R154). -/
structure SameDelivery (s t : State) : Prop where
  tails : t.store.tails = s.store.tails
  deliveries : t.store.deliveries = s.store.deliveries
  pageSequence : t.store.pageSequence = s.store.pageSequence
  levels : t.store.levels = s.store.levels
  lines : SameLines s t

theorem SameDelivery.refl (s : State) : SameDelivery s s := ⟨rfl, rfl, rfl, rfl, SameLines.refl s⟩

theorem SameDelivery.trans {s t u : State} (a : SameDelivery s t) (b : SameDelivery t u) : SameDelivery s u :=
  ⟨b.tails.trans a.tails, b.deliveries.trans a.deliveries, b.pageSequence.trans a.pageSequence,
    b.levels.trans a.levels, a.lines.trans b.lines⟩

theorem dropSitePins_van (ns : List Nat) (s : State) :
    (ns.foldl (fun t n => t.modLabel n Site.dropPin) s).van = s.van := by
  induction ns generalizing s with
  | nil => rfl
  | cons n ns ih => rw [List.foldl_cons, ih, State.modLabel_van]

theorem State.endJob_delivery (s : State) (j : Job) (o : JobOutcome) (c : Nat) :
    SameDelivery s (s.endJob j o c) := by
  let s1 : State := { s with store := s.store.releasePins j.pages }
  let s2 : State := j.sites.foldl (fun t n => t.modLabel n Site.dropPin) s1
  let e : EntryBody := .printEnded (printEnded j o c)
  have hs : s2.store = s.store.releasePins j.pages := dropSitePins_store _ _
  have hq : OnlyQueues (s.store.releasePins j.pages) (s.endJob j o c).store := hs ▸ State.put_onlyQueues s2 0 e
  have hl : SameLines s1 (s2.put 0 e) := (State.put_lines s2 0 e).after (dropSitePins_van _ _)
  exact ⟨hq.tails, hq.deliveries, hq.pageSequence, hq.levels, (hl.before (u := s.endJob j o c) rfl).after rfl⟩

/-- Jobs that end one after another, by the outcome of a Stop. -/
def State.endJobs (s : State) (js : List Job) (o : JobOutcome) : State :=
  js.foldl (fun t j => t.endJob j o (j.copy - 1)) s

theorem State.endJobs_quiet (o : JobOutcome) (js : List Job) (s : State) : Quiet s (s.endJobs js o) := by
  induction js generalizing s with
  | nil => exact Quiet.refl s
  | cons j js ih => exact (State.endJob_quiet s j o _).trans (ih _)

theorem State.endJobs_measuring (o : JobOutcome) (js : List Job) (s : State) :
    SameMeasuring s (s.endJobs js o) := by
  induction js generalizing s with
  | nil => exact SameMeasuring.refl s
  | cons j js ih => exact (State.endJob_measuring s j o _).trans (ih _)

theorem State.endJobs_delivery (o : JobOutcome) (js : List Job) (s : State) : SameDelivery s (s.endJobs js o) := by
  induction js generalizing s with
  | nil => exact SameDelivery.refl s
  | cons j js ih => exact (State.endJob_delivery s j o _).trans (ih _)

/-- Of the Print Engine the ends of jobs change the queue alone, and none of them stays in it. -/
theorem State.endJobs_print (o : JobOutcome) (js : List Job) (s : State) : (s.endJobs js o).print =
    { s.print with jobs := s.print.jobs.filter fun k => js.all fun j => k.number != j.number } := by
  induction js generalizing s with
  | nil => simp [State.endJobs]
  | cons j js ih =>
    refine (ih (s.endJob j o (j.copy - 1))).trans ?_
    rw [State.endJob_print, List.filter_filter]
    simp only [List.all_cons, Bool.and_comm]

theorem State.endJobs_own (o : JobOutcome) (s : State) : (s.endJobs s.print.jobs o).print.jobs = [] := by
  rw [State.endJobs_print, List.filter_eq_nil_iff]
  intro j hj h
  simpa using List.all_eq_true.mp h j hj

/-! ## A sound anchor block (R172, R180) -/

theorem fitTo_of_length {n : Nat} {b : List Byte} (h : b.length = n) : fitTo n b = b := by
  unfold fitTo zeros
  rw [h, Nat.sub_self, List.replicate_zero, List.append_nil, ← h, List.take_length]

theorem Window.sound_iff (w : Window) : w.sound = true ↔ w.isAbsent = true
    ∨ (w.base % 4096 = 0 ∧ w.length % 4096 = 0 ∧ 0 < w.length ∧ (w.read = true ∨ w.write = true)) := by
  unfold Window.sound
  rw [Bool.or_eq_true, Bool.and_eq_true, decide_eq_true_iff, Bool.or_eq_true]
  simp only [and_assoc]

theorem sweepOk_iff (n : Nat) : sweepOk n = true ↔ n = 0 ∨ (10 ≤ n ∧ n ≤ 1000) := by
  simp [sweepOk]

/-- No entry of the window table is unsound. -/
theorem noBadWindow_iff (b : List Byte) : ((List.range 16).find? fun n => !(parseWindow b n).sound) = none
    ↔ ∀ n, n < 16 → (parseWindow b n).sound = true := by
  simp [List.find?_eq_none]

/-- A block without a bad field (R172). -/
theorem badAnchorField_none_iff (lp : LinkPort) (b : List Byte) : badAnchorField lp b = none ↔
    b.take 8 = anchorSignature ∧ (∀ n, n < 16 → (parseWindow b n).sound = true) ∧ sweepOk (field b 8 2) = true
      ∧ { lp with windows := parseWindows b }.linkPasses (parseRef b 16) = true := by
  rw [← noBadWindow_iff]
  unfold badAnchorField
  by_cases hs : b.take 8 = anchorSignature
  · cases hw : (List.range 16).find? fun n => !(parseWindow b n).sound with
    | some n => simp [hs]
    | none =>
      by_cases hp : sweepOk (field b 8 2) = true
      · by_cases hl : { lp with windows := parseWindows b }.linkPasses (parseRef b 16) = true
        · simp [hs, hp, hl]
        · simp [hs, hp, hl]
      · simp [hs, hp]
  · simp [hs]

/-! ## Start -/

theorem execAnchorReadDone_of_read {s : State} {a : AnchorAccess} (dt : Nat) (r : AnchorRead)
    (h : s.lp.anchorRead = some a) :
    exec (.anchorReadDone dt r) s = .next ((s.elapse dt).anchorDone a r) := by
  change execAnchorReadDone dt r s = _
  unfold execAnchorReadDone
  dsimp only
  rw [State.elapse_lp, h]

/-- A whole block without a bad field starts the link. -/
theorem State.anchorDone_of_soundBlock (s : State) (a : AnchorAccess) {b : List Byte} (h : b.length = 320)
    (hn : badAnchorField s.lp b = none) : s.anchorDone a (.complete b) = s.attend a.address b := by
  unfold State.anchorDone
  dsimp only
  rw [fitTo_of_length h, hn]

/-- A whole block with a bad field is refused by it. -/
theorem State.anchorDone_of_badField (s : State) (a : AnchorAccess) {b : List Byte} {o : Nat} (h : b.length = 320)
    (ho : badAnchorField s.lp b = some o) : s.anchorDone a (.complete b) = s.refuseAnchor .badAnchor o := by
  unfold State.anchorDone
  dsimp only
  rw [fitTo_of_length h, ho]

/-- Settles O13: Start by the state of part and link, and the completion of the anchor read by its outcome. -/
theorem startReadsTheAnchorAndStartsTheLink : Obligations.StartReadsTheAnchorAndStartsTheLink := by
  unfold Obligations.StartReadsTheAnchorAndStartsTheLink
  refine ⟨fun dt s => ⟨fun hp hl ha => ?reads, fun hp hl ha => ?misaligned, fun h => ?ignored⟩,
    fun dt s a b ha hb => ⟨fun hn => ?attends, fun o ho => ?badField, fun o => ?busError, fun o hd => ?timeout,
      ?sound⟩⟩
  case reads =>
    exact congrArg Host.Outcome.next ((if_pos ⟨hp, hl⟩).trans (if_pos ha))
  case misaligned =>
    exact congrArg Host.Outcome.next ((if_pos ⟨hp, hl⟩).trans (if_neg ha))
  case ignored =>
    refine congrArg Host.Outcome.next (if_neg fun hc => ?_)
    exact h.elim (fun hp => hp hc.1) fun hl => hl hc.2
  case attends =>
    rw [execAnchorReadDone_of_read dt _ ha, State.anchorDone_of_soundBlock (s.elapse dt) a hb hn]
    rfl
  case badField =>
    rw [execAnchorReadDone_of_read dt _ ha, State.anchorDone_of_badField (s.elapse dt) a hb ho]
    rfl
  case busError =>
    rw [execAnchorReadDone_of_read dt _ ha]
    rfl
  case timeout =>
    rw [execAnchorReadDone_of_read dt _ ha]
    exact congrArg Host.Outcome.next (if_pos (decide_eq_true hd))
  case sound =>
    rw [badAnchorField_none_iff]
    simp only [Window.sound_iff, sweepOk_iff]
    rfl

/-! ## Stop -/

/-- The part as it meets a Stop's job ends: every access abandoned (R132, R156). -/
def State.accessesStopped (s : State) : State :=
  { s with
    store := s.store.abandonDeliveries
    print := { s.print with read := none, frame := s.print.frame.map Frame.cut } }

/-- A Stop of a Running or Resting part (R173). -/
theorem State.stop_of_linked {s : State} (h : s.lp.part = .running ∨ s.lp.part = .resting) :
    s.stop = (let w := s.accessesStopped.endJobs s.print.jobs .cancelledStop
      { w with store := w.store.forgetPages, van := { w.van with wake := .low }, lp := w.lp.stop }) := by
  unfold State.stop
  rcases h with h | h <;> rw [h] <;> rfl

/-- A Stop is ignored in Self-Test and Broken (R173). -/
theorem State.stop_of_not_linked {s : State} (h : s.lp.part = .selfTest ∨ s.lp.part = .broken) :
    s.stop = s := by
  unfold State.stop
  rcases h with h | h <;> rw [h]

/-- With every delivery abandoned no record stands in one (R132). -/
theorem State.accessesStopped_noneInDelivery (s : State) : NoneInDelivery s.accessesStopped := by
  intro st q hq
  have hm : ∃ x : Queued, { x with inDelivery := false } = q := by
    cases st <;> exact (List.mem_map.mp hq).imp fun _ h => h.2
  obtain ⟨x, rfl⟩ := hm
  rfl

/-- Settles O14: the Stop's own changes are written out, and what the job ends leave comes from
`State.endJobs`. -/
theorem stopEndsTheLink : Obligations.StopEndsTheLink := by
  unfold Obligations.StopEndsTheLink
  intro dt s
  let u := (s.elapse dt).accessesStopped
  let w := u.endJobs s.print.jobs .cancelledStop
  have hstop (h : s.lp.part = .running ∨ s.lp.part = .resting) : exec (.stop dt) s = .next
      { w with store := w.store.forgetPages, van := { w.van with wake := .low }, lp := w.lp.stop } :=
    congrArg Host.Outcome.next (State.stop_of_linked (s := s.elapse dt) h)
  refine ⟨?steps, fun h => ?frame, fun hj h => ?noJobs, fun h => ?ignored⟩
  case steps =>
    rintro _ _ h rfl rfl
    obtain ⟨hpins, hsites, hqueued, hprint⟩ := endJobs_pins .cancelledStop s.print.jobs u w rfl
    exact ⟨hstop h, hpins, hsites, hqueued (State.accessesStopped_noneInDelivery _), hprint⟩
  case frame =>
    have hq : Quiet u w := State.endJobs_quiet _ _ _
    obtain ⟨htails, hdel, hseq, hlevels, hlines⟩ : SameDelivery u w := State.endJobs_delivery _ _ _
    obtain ⟨hfe, hcheck, hwatch, hsag, hinterval⟩ : SameMeasuring u w := State.endJobs_measuring _ _ _
    have hprint : w.print = _ := State.endJobs_print _ _ _
    refine ⟨_, hstop h, ?_, hdel, rfl, rfl, rfl, hseq, State.endJobs_own _ u, ?_, ?_, rfl, hlines.rest, hlines.lines,
      hq.sites, hfe, hcheck, hwatch, hsag, hinterval, hq.steady.time.2.1, hq.steady.time.2.2⟩
    · exact congrArg (fun l : LinkPort => { l.stop with attention := s.lp.attention }) hq.steady.link
    · exact congrArg PrintEngine.read hprint
    · exact congrArg PrintEngine.frame hprint
  case noJobs =>
    have hw : w = u := congrArg (u.endJobs · .cancelledStop) hj
    refine ⟨_, hstop h, ?_⟩
    rw [hw]
    exact ⟨rfl, rfl, rfl⟩
  case ignored =>
    exact congrArg Host.Outcome.next (State.stop_of_not_linked (s := s.elapse dt) h)

/-! ## Back -/

theorem State.back_of_running {s : State} (h : s.lp.part = .running) : s.back = s.backRunning := by
  unfold State.back
  rw [h]

theorem State.back_of_resting {s : State} (h : s.lp.part = .resting) : s.back = s.backResting := by
  unfold State.back
  rw [h]

theorem State.backRunning_of_away {s : State} (h : s.lp.link = .away) : s.backRunning = s.linkBack := by
  unfold State.backRunning
  rw [h]

theorem State.backRunning_of_departure {s : State} {d : Departure} (h : s.lp.link = .attended)
    (hd : s.lp.departure = some d) : s.backRunning = s.dropDeparture := by
  unfold State.backRunning
  rw [h, hd]
  rfl

/-- Back has no effect on a Running part without a link that is away or departing. -/
theorem State.backRunning_ignored {s : State} (h : s.lp.link = .idle ∨ s.lp.link = .halted
    ∨ (s.lp.link = .attended ∧ s.lp.departure = none)) : s.backRunning = s := by
  unfold State.backRunning
  rcases h with h | h | ⟨h, hd⟩
  · rw [h]
  · rw [h]
  · rw [h, hd]
    rfl

theorem State.backResting_exits {s : State} {r : RestRecord} (hp : s.lp.part = .resting)
    (hr : s.van.rest = some r) (he : r.exit = none) : s.backResting = s.modVan fun v =>
      { v with source := .back, rest := some { r with exit := some ⟨.back, s.now, false⟩ } } := by
  unfold State.backResting State.restExit
  rw [hr, hp]
  dsimp only
  rw [he]

theorem State.backResting_remembered {s : State} {r : RestRecord} {e : RestExit}
    (hr : s.van.rest = some r) (he : r.exit = some e) : s.backResting = s.modVan fun v =>
      { v with rest := some { r with exit := some { e with backRemembered := true } } } := by
  unfold State.backResting
  rw [hr]
  dsimp only
  rw [he]

/-- The walker begins to wait at an instant (R176). -/
theorem State.walkerWaits_at {s : State} {n : Nat} (h : s.up = n) :
    s.walkerWaits = { s with lp := { s.lp with walker := .waiting n } } := by
  rw [← h]
  rfl

/-- Settles O15: Back by the state of the part, then by that of the link or of Rest. -/
theorem backBringsTheLinkBack : Obligations.BackBringsTheLinkBack := by
  unfold Obligations.BackBringsTheLinkBack
  intro dt s
  let t := s.elapse dt
  refine ⟨fun away hp hl ha => ?away, fun d hp hl hd hw => ?stopped, fun d hp hl hd hw => ?busy,
    fun r hp hr he => ?exits, fun r e hp hr he => ?remembered, fun h => ?ignored⟩
  case away =>
    refine ⟨_, rfl, congrArg Host.Outcome.next ?_⟩
    rw [State.back_of_running (s := t) hp, State.backRunning_of_away (s := t) hl]
    unfold State.linkBack State.awayTime
    rw [show t.lp.awaySince = some away from ha]
    exact congrArg State.linkReturns (State.walkerWaits_at (State.put_quiet _ _ _).steady.time.2.1)
  case stopped =>
    refine congrArg Host.Outcome.next ?_
    rw [State.back_of_running (s := t) hp, State.backRunning_of_departure (s := t) hl hd]
    exact congrArg State.linkReturns (if_pos hw)
  case busy =>
    refine congrArg Host.Outcome.next ?_
    rw [State.back_of_running (s := t) hp, State.backRunning_of_departure (s := t) hl hd]
    exact congrArg State.linkReturns (if_neg hw)
  case exits =>
    refine congrArg Host.Outcome.next ?_
    rw [State.back_of_resting (s := t) hp, State.backResting_exits (s := t) hp hr he]
    rfl
  case remembered =>
    refine congrArg Host.Outcome.next ?_
    rw [State.back_of_resting (s := t) hp, State.backResting_remembered (s := t) hr he]
    rfl
  case ignored =>
    refine congrArg Host.Outcome.next ?_
    rcases h with h | h | ⟨hp, h⟩
    · unfold State.back
      rw [State.elapse_lp, h]
    · unfold State.back
      rw [State.elapse_lp, h]
    · rw [State.back_of_running (s := t) hp, State.backRunning_ignored (s := t) h]

end Sys2Proof.Machine

/-! # The walker and the faults of a running link (R143, R174 to R177, R181)

What a link must be to be followed, what a fault leaves, how an order record is decoded, and the statements about
the walker's four accesses and about faults. -/

namespace Sys2Proof.Machine

/-! ## The walker at its link -/

theorem State.linkRead_eq (s : State) : s.linkRead = linkPlace s.up s.lp.position := by
  unfold State.linkRead
  cases s.lp.position with
  | none => rfl
  | some p => cases p <;> rfl

theorem State.readLink_eq (s : State) : s.readLink =
    { s with lp := { s.lp with walker := .readingLink (linkPlace s.up s.lp.position) } } := by
  rw [← State.linkRead_eq]
  rfl

theorem State.waitsSince_of {s : State} {n : Nat} (hl : s.lp.link = .attended) (hd : s.lp.departure = none)
    (hw : s.lp.walker = .waiting n) : s.waitsSince = some n := by
  unfold State.waitsSince State.linkOpen
  rw [hw, hl, hd]
  rfl

/-- The walker does not wait on a link that is closed, that departs, or that it works on. -/
theorem State.waitsSince_none {s : State} (h : s.lp.link ≠ .attended ∨ s.lp.departure.isSome = true
    ∨ ∀ n, s.lp.walker ≠ .waiting n) : s.waitsSince = none := by
  unfold State.waitsSince State.linkOpen
  cases hw : s.lp.walker with
  | waiting n =>
    rcases h with h | h | h
    · simp [h]
    · simp [Option.ne_none_iff_isSome.mpr h]
    · exact absurd hw (h n)
  | idle | readingLink | readingOrder | offering | writingResult | writingDone | stopped => rfl

theorem execNudge_eq (dt : Nat) (v : BitVec 32) (s : State) : exec (.nudge dt v) s =
    if (s.elapse dt).waitsSince.isSome then .next (s.elapse dt).readLink else .next (s.elapse dt) := rfl

theorem execSweepExpiry_of_waiting {s : State} {n : Nat} (dt : Nat) (h : (s.elapse dt).waitsSince = some n) :
    exec (.sweepExpiry dt) s = if s.lp.sweep ≠ 0 ∧ (s.elapse dt).passed n s.lp.sweep then
      .next (s.elapse dt).readLink else .next (s.elapse dt) := by
  change execSweepExpiry dt s = _
  unfold execSweepExpiry
  dsimp only
  rw [h]
  rfl

theorem execSweepExpiry_of_busy {s : State} (dt : Nat) (h : (s.elapse dt).waitsSince = none) :
    exec (.sweepExpiry dt) s = .next (s.elapse dt) := by
  change execSweepExpiry dt s = _
  unfold execSweepExpiry
  dsimp only
  rw [h]

/-- A sweep that is off, or not over, has no effect. -/
theorem execSweepExpiry_early {s : State} (dt : Nat) (h : s.lp.sweep = 0
    ∨ ∃ n, s.lp.walker = .waiting n ∧ s.up + dt < n + s.lp.sweep) :
    exec (.sweepExpiry dt) s = .next (s.elapse dt) := by
  cases hw : (s.elapse dt).waitsSince with
  | none => exact execSweepExpiry_of_busy dt hw
  | some n =>
    rw [execSweepExpiry_of_waiting dt hw]
    refine if_neg fun hc => ?_
    obtain ⟨hs, hp⟩ := hc
    have hp : n + s.lp.sweep ≤ s.up + dt := of_decide_eq_true hp
    rcases h with h | ⟨m, hm, hlt⟩
    · exact hs h
    · have hmn := (State.waitsSince_some hw).1
      rw [State.elapse_lp, hm] at hmn
      injection hmn with hmn
      omega

/-! ## The link check (R174) -/

theorem LinkPort.entry_eq_some {lp : LinkPort} {r : WRef} {w : Window} : lp.entry r = some w ↔
    r.reserved = 0 ∧ ∃ h : r.window < 16, lp.windows[r.window] = some w := by
  unfold LinkPort.entry
  constructor
  · intro h
    split at h
    · next hc => exact ⟨hc.2, hc.1, h⟩
    · cases h
  · rintro ⟨hr, hw, h⟩
    rw [dif_pos ⟨hw, hr⟩, h]

theorem LinkPort.valid_iff (lp : LinkPort) (r : WRef) (n : Nat) (write : Bool) : lp.valid r n write = true ↔
    ∃ w, lp.entry r = some w ∧ r.offset + n ≤ w.length ∧ (if write then w.write else w.read) = true := by
  unfold LinkPort.valid
  cases lp.entry r with
  | none => simp
  | some w => simp

/-- A link other than null passes when an order's header could be read and written there. -/
theorem LinkPort.linkPasses_iff {lp : LinkPort} {r : WRef} (h : r ≠ WRef.null) : lp.linkPasses r = true ↔
    r.offset % 16 = 0 ∧ r.reserved = 0 ∧ ∃ h : r.window < 16, ∃ w : Window, lp.windows[r.window] = some w
      ∧ r.offset + 64 ≤ w.length ∧ w.read = true ∧ w.write = true := by
  unfold LinkPort.linkPasses
  rw [decide_eq_false h, Bool.false_or, Bool.and_eq_true, Bool.and_eq_true, beq_iff_eq, LinkPort.valid_iff,
    LinkPort.valid_iff]
  constructor
  · rintro ⟨⟨ho, w, hw, hn, hread⟩, v, hv, -, hwrite⟩
    obtain ⟨hr, hi, hw'⟩ := LinkPort.entry_eq_some.mp hw
    cases hw.symm.trans hv
    exact ⟨ho, hr, hi, w, hw', hn, hread, hwrite⟩
  · rintro ⟨ho, hr, hi, w, hw, hn, hread, hwrite⟩
    have he := LinkPort.entry_eq_some.mpr ⟨hr, hi, hw⟩
    exact ⟨⟨ho, w, he, hn, hread⟩, w, he, hn, hwrite⟩

/-! ## A fault of the running link (R177) -/

/-- The job of a record read in flight ends, or nothing does (R143). -/
theorem State.failRead_cases {P : State → Prop} (s : State) (h : P s)
    (hj : ∀ j o, P ((s.modPrint fun p => { p with read := none }).endJob j o (j.copy - 1))) : P s.failRead := by
  unfold State.failRead
  split
  · exact hj _ _
  · exact h

theorem State.failRead_of_none {s : State} (h : s.print.read = none) : s.failRead = s := by
  unfold State.failRead
  rw [h]

theorem State.failRead_of_job {s : State} {r : RecordRead} {j : Job} (hr : s.print.read = some r)
    (hj : s.print.current = some j) : s.failRead =
      (s.modPrint fun p => { p with read := none }).endJob j (if j.cancelPending then .cancelledOrder else .failedLink)
        (j.copy - 1) := by
  unfold State.failRead
  rw [hr, hj]
  rfl

theorem State.failRead_measuring (s : State) : SameMeasuring s s.failRead :=
  State.failRead_cases s (SameMeasuring.refl s) fun j o =>
    (State.modPrint_only s _).measuring.trans (State.endJob_measuring _ j o _)

theorem State.failRead_delivery (s : State) : SameDelivery s s.failRead :=
  State.failRead_cases s (SameDelivery.refl s) fun j o =>
    SameDelivery.trans (t := s.modPrint fun p => { p with read := none }) ⟨rfl, rfl, rfl, rfl, SameLines.of rfl⟩
      (State.endJob_delivery _ j o _)

/-- With a current job no record read is left in flight. -/
theorem State.failRead_read {s : State} (h : s.print.current.isSome = true) : s.failRead.print.read = none := by
  obtain ⟨j, hj⟩ := Option.isSome_iff_exists.mp h
  cases hr : s.print.read with
  | none => rw [State.failRead_of_none hr, hr]
  | some r => rw [State.failRead_of_job hr hj, State.endJob_print]; rfl

/-- The state of a fault before the job of a record read in flight ends. -/
def State.faulted (s : State) (f : FaultRegister) : State :=
  { s with
    lp := { s.lp with fault := f, walker := .idle, departure := none, waitsAfterDone := false, link := .halted }
    store := s.store.abandonDeliveries }

theorem State.linkFault_eq (s : State) (c : FaultCause) (a : Access) :
    s.linkFault c a = (s.faulted ⟨c, a.kind, a.window, a.offset⟩).failRead.raise .linkHalted := rfl

theorem haltedLink_eq (s : State) (dt : Nat) (f : FaultRegister) :
    haltedLink s dt f = ((s.elapse dt).faulted f).modPrint fun p => { p with read := none } := rfl

theorem PrintEngine.noRead_eq {p : PrintEngine} (h : p.read = none) : { p with read := none } = p := by
  cases p
  cases h
  rfl

/-- Without a record read the fault's own state is the whole effect. -/
theorem haltedLink_of_no_read {s : State} (dt : Nat) (f : FaultRegister) (h : s.print.read = none) :
    haltedLink s dt f = (s.elapse dt).faulted f := by
  rw [haltedLink_eq]
  exact congrArg (fun p => { (s.elapse dt).faulted f with print := p }) (PrintEngine.noRead_eq h)

/-- Every fault of the running link halts it (R177). -/
theorem State.linkFault_halted (s : State) (dt : Nat) (c : FaultCause) (a : Access) :
    HaltedBy s ((s.elapse dt).linkFault c a) dt ⟨c, a.kind, a.window, a.offset⟩ := by
  rw [State.linkFault_eq]
  generalize (⟨c, a.kind, a.window, a.offset⟩ : FaultRegister) = f
  have hq : Quiet ((s.elapse dt).faulted f) (((s.elapse dt).faulted f).failRead.raise .linkHalted) :=
    (State.failRead_quiet _).trans (State.raise_quiet _ _)
  have hl := hq.steady.link
  obtain ⟨hfe, hcheck, hwatch, hsag, hinterval⟩ := ((s.elapse dt).faulted f).failRead_measuring
  have hd := ((s.elapse dt).faulted f).failRead_delivery
  refine ⟨(SameLink.field (·.fault) (fun _ => rfl) hl :), (SameLink.field (·.link) (fun _ => rfl) hl :),
    (SameLink.field (·.walker) (fun _ => rfl) hl :), (SameLink.field (·.departure) (fun _ => rfl) hl :),
    State.raise_attends _ _, (SameLink.field (·.windows) (fun _ => rfl) hl :),
    (SameLink.field (·.position) (fun _ => rfl) hl :), (SameLink.field (·.part) (fun _ => rfl) hl :),
    (SameLink.field (·.mask) (fun _ => rfl) hl :), (SameLink.field (·.anchor) (fun _ => rfl) hl :), hd.deliveries, hd.tails,
    fun h => State.failRead_read (s := (s.elapse dt).faulted f) h, hq.sites, hfe, hcheck, hwatch, hsag, hinterval,
    hq.steady.time.2.1, hq.steady.time.2.2, fun h => ?noRead, fun r j hr hj => ?job⟩
  case noRead =>
    rw [haltedLink_of_no_read dt f h]
    exact congrArg (State.raise · .linkHalted) (State.failRead_of_none (s := (s.elapse dt).faulted f) h)
  case job =>
    rw [haltedLink_eq]
    exact congrArg (State.raise · .linkHalted) (State.failRead_of_job (s := (s.elapse dt).faulted f) hr hj)

/-! ## The link is followed -/

theorem execLinkReadDone_of_reading {s : State} {a : Access} (dt : Nat) (r : WRef) (h : s.lp.walker = .readingLink a) :
    exec (.linkReadDone dt r) s = .next ((s.elapse dt).takeLink a r) := by
  change execLinkReadDone dt r s = _
  unfold execLinkReadDone
  dsimp only
  rw [State.elapse_lp, h]

/-- Settles O16: the two commands that end a wait by whether the walker waits, and the link it has read by
what the link is. -/
theorem theWalkerFollowsTheLink : Obligations.TheWalkerFollowsTheLink := by
  unfold Obligations.TheWalkerFollowsTheLink
  refine ⟨fun dt v s => ⟨fun n hl hd hw => ?nudge, fun n hl hd hw hs hp => ?sweep, fun h => ?noSweep,
      fun n hw hlt => ?early, fun h => ?busy⟩,
    fun dt s a r hw => ⟨?null, fun hn hp => ?passes, fun hn hp => ?bad, fun hn => LinkPort.linkPasses_iff hn⟩⟩
  case nudge =>
    rw [execNudge_eq, State.waitsSince_of (s := s.elapse dt) hl hd hw, State.readLink_eq]
    rfl
  case sweep =>
    rw [execSweepExpiry_of_waiting dt (State.waitsSince_of (s := s.elapse dt) hl hd hw),
      if_pos ⟨hs, decide_eq_true hp⟩, State.readLink_eq]
    rfl
  case noSweep => exact execSweepExpiry_early dt (Or.inl h)
  case early => exact execSweepExpiry_early dt (Or.inr ⟨n, hw, hlt⟩)
  case busy =>
    have hb := State.waitsSince_none (s := s.elapse dt) h
    refine ⟨?_, execSweepExpiry_of_busy dt hb⟩
    rw [execNudge_eq, hb]
    rfl
  case null =>
    rw [execLinkReadDone_of_reading dt _ hw]
    rfl
  case passes =>
    rw [execLinkReadDone_of_reading dt _ hw]
    exact congrArg Host.Outcome.next ((if_neg hn).trans (if_pos hp))
  case bad =>
    refine ⟨_, ?_, State.linkFault_halted s dt .badLink a⟩
    rw [execLinkReadDone_of_reading dt _ hw]
    exact congrArg Host.Outcome.next ((if_neg hn).trans (if_neg (by rw [State.elapse_lp, hp]; decide)))

/-! ## An order record is decoded (R175, R181) -/

theorem fitTo_of_le {n : Nat} {b : List Byte} (h : n ≤ b.length) : fitTo n b = b.take n := by
  unfold fitTo
  rw [List.take_append_of_le_length h]

/-- A field that ends within the leading bytes is read from these alone. -/
theorem field_take {n o k : Nat} (b : List Byte) (h : o + k ≤ n) : field (b.take n) o k = field b o k := by
  unfold field
  rw [List.drop_take, List.take_take, min_eq_left (by omega)]

theorem parseHeader_fitTo {b : List Byte} (h : 64 ≤ b.length) : parseHeader (fitTo 64 b) =
    ⟨field b 0 2, field b 2 2, field b 4 2, field b 6 1⟩ := by
  rw [fitTo_of_le h]
  unfold parseHeader
  simp only [field_take b (show 0 + 2 ≤ 64 by decide), field_take b (show 2 + 2 ≤ 64 by decide),
    field_take b (show 4 + 2 ≤ 64 by decide), field_take b (show 6 + 1 ≤ 64 by decide)]

theorem kindNeeds_none_iff (k : Nat) : kindNeeds k = none ↔ k = 0 ∨ 24 < k := by
  constructor
  · intro h
    by_contra hk
    have hk1 : 1 ≤ k := by omega
    have hk2 : k ≤ 24 := by omega
    interval_cases k <;> cases h
  · rintro (rfl | hk)
    · rfl
    · obtain ⟨n, rfl⟩ : ∃ n, k = n + 25 := ⟨k - 25, by omega⟩
      rfl

/-- Every kind with a need is spelled by some order. -/
theorem parseOrder_isSome {k : Nat} (h : (kindNeeds k).isSome = true) (b : List Byte) (n : Nat) :
    (parseOrder k b n).isSome = true := by
  have hk : ¬ (k = 0 ∨ 24 < k) := fun hn => by
    rw [(kindNeeds_none_iff k).mpr hn] at h
    exact Bool.false_ne_true h
  have hk1 : 1 ≤ k := by omega
  have hk2 : k ≤ 24 := by omega
  interval_cases k <;> rfl

theorem OrderHeader.longEnough_iff (h : OrderHeader) : h.longEnough = true ↔
    ∃ n, kindNeeds h.kind = some n ∧ n.1 ≤ h.bodyLength ∧ 64 + h.bodyLength + n.2 ≤ h.recordLength := by
  unfold OrderHeader.longEnough
  cases kindNeeds h.kind with
  | none => simp
  | some n => simp

/-- A header passes the walker's judgement (R175, R181). -/
theorem OrderHeader.sound_iff (h : OrderHeader) (lp : LinkPort) (r : WRef) : h.sound lp r = true ↔
    (h.state = 1 ∧ 64 ≤ h.recordLength ∧ h.recordLength ≤ 1024 ∧ h.recordLength % 16 = 0)
      ∧ recordFits lp r h.recordLength = true ∧ (h.bodyLength % 4 = 0 ∧ 64 + h.bodyLength ≤ h.recordLength)
      ∧ h.longEnough = true := by
  unfold OrderHeader.sound
  rw [Bool.and_eq_true, Bool.and_eq_true, Bool.and_eq_true, decide_eq_true_iff, decide_eq_true_iff]
  simp only [and_assoc]

theorem listFits_iff (h : OrderHeader) (body : List Byte) : listFits h body = true ↔
    (h.kind = 15 → 4 + 8 * field body 0 1 ≤ h.bodyLength) := by
  unfold listFits
  rw [Bool.or_eq_true, decide_eq_true_iff, bne_iff_ne, ne_eq, imp_iff_not_or]

/-- A record that spells an order has a sound header. -/
theorem sound_of_orderOf {lp : LinkPort} {r : WRef} {b : List Byte} (h : orderOf lp r b ≠ none) :
    (parseHeader (fitTo 64 b)).sound lp r = true := by
  unfold orderOf at h
  dsimp only at h
  split at h
  · next hc => exact (Bool.and_eq_true_iff.mp hc).1
  · exact absurd rfl h

/-- A record whose header and list are sound spells the order of its kind and body. -/
theorem orderOf_of_sound {lp : LinkPort} {r : WRef} {b body : List Byte} {h : OrderHeader}
    (hh : parseHeader (fitTo 64 b) = h) (hb : bodyOf h b = body) (hs : h.sound lp r = true)
    (hl : listFits h body = true) :
    orderOf lp r b = parseOrder h.kind body (h.recordLength - 64 - h.bodyLength) := by
  unfold orderOf
  dsimp only
  rw [hh, hb, hs, hl]
  rfl

theorem execOrderReadDone_of_reading {s : State} {r : WRef} {a : Access} (dt : Nat) (b : List Byte)
    (h : s.lp.walker = .readingOrder r a) :
    exec (.orderReadDone dt b) s = .next ((s.elapse dt).takeRecord r b) := by
  change execOrderReadDone dt b s = _
  unfold execOrderReadDone
  dsimp only
  rw [State.elapse_lp, h]

/-- The walker at its new current order. -/
def State.atOrder (s : State) (r : WRef) : State := s.modLink fun p => { p with position := some (.order r) }

theorem State.takeRecord_done {s : State} {r : WRef} {b : List Byte} (hb : 64 ≤ b.length) (h : field b 6 1 = 2) :
    s.takeRecord r b = (s.atOrder r).readLink := by
  unfold State.takeRecord
  dsimp only
  rw [parseHeader_fitTo hb]
  exact if_pos (beq_iff_eq.mpr h)

theorem State.takeRecord_offered {s : State} {r : WRef} {b : List Byte} {o : Order} (hb : 64 ≤ b.length)
    (h : field b 6 1 ≠ 2) (ho : orderOf s.lp r b = some o) : s.takeRecord r b = (s.atOrder r).offer r b o := by
  unfold State.takeRecord
  dsimp only
  rw [ho, parseHeader_fitTo hb]
  exact if_neg fun hc => h (beq_iff_eq.mp hc)

theorem State.takeRecord_bad {s : State} {r : WRef} {b : List Byte} (hb : 64 ≤ b.length)
    (h : field b 6 1 ≠ 2) (ho : orderOf s.lp r b = none) :
    s.takeRecord r b = (s.atOrder r).writeResult r 0 .badOrder [] := by
  unfold State.takeRecord
  dsimp only
  rw [ho, parseHeader_fitTo hb]
  exact if_neg fun hc => h (beq_iff_eq.mp hc)

theorem State.offer_eq {s : State} {r : WRef} {b : List Byte} (hb : 64 ≤ b.length) (o : Order) : s.offer r b o =
    { s with lp := { s.lp with walker := .offering ⟨r, field b 4 2, o⟩ } } := by
  unfold State.offer
  rw [parseHeader_fitTo hb]
  rfl

/-- Settles O17: the record's three outcomes, what a header must be to be decoded and that this suffices, and
the tables of kinds. -/
theorem theWalkerJudgesTheOrder : Obligations.TheWalkerJudgesTheOrder := by
  unfold Obligations.TheWalkerJudgesTheOrder
  refine ⟨fun dt s r a b hw hb => ⟨fun h => ?done, fun o h ho => ?offered, fun h ho => ?bad, fun ho => ?needed⟩,
    fun p r b n hlen hst hlo hhi hmod hfit hbody hkind hn1 hn2 hlist => ?decoded, kindNeeds_none_iff, rfl,
    fun b n => ⟨rfl, rfl, rfl, rfl, rfl, rfl, rfl, rfl, rfl, rfl, rfl, rfl, rfl, rfl, rfl, rfl, rfl, rfl, rfl, rfl, rfl,
      rfl, rfl, rfl⟩⟩
  case done =>
    rw [execOrderReadDone_of_reading dt _ hw, State.takeRecord_done hb h, State.readLink_eq]
    rfl
  case offered =>
    rw [execOrderReadDone_of_reading dt _ hw, State.takeRecord_offered (s := s.elapse dt) hb h ho,
      State.offer_eq hb]
    rfl
  case bad =>
    rw [execOrderReadDone_of_reading dt _ hw, State.takeRecord_bad (s := s.elapse dt) hb h ho]
    rfl
  case needed =>
    have hs := sound_of_orderOf ho
    rw [parseHeader_fitTo hb, OrderHeader.sound_iff, OrderHeader.longEnough_iff] at hs
    obtain ⟨⟨hst, hlo, hhi, hmod⟩, hfit, ⟨hbody, hin⟩, n, hkind, -⟩ := hs
    have hk : ¬ (field b 0 2 = 0 ∨ 24 < field b 0 2) := fun h => by
      rw [(kindNeeds_none_iff _).mpr h] at hkind
      cases hkind
    exact ⟨hst, hlo, hhi, hmod, hbody, hin, by omega, by omega, hfit⟩
  case decoded =>
    have hb : 64 ≤ b.length := by omega
    have hbo : bodyOf ⟨field b 0 2, field b 2 2, field b 4 2, field b 6 1⟩ b = (b.drop 64).take (field b 4 2) :=
      fitTo_of_le (by rw [List.length_drop]; change field b 4 2 ≤ _; omega)
    obtain ⟨o, ho⟩ := Option.isSome_iff_exists.mp (parseOrder_isSome (by rw [hkind]; rfl) ((b.drop 64).take (field b 4 2))
      (field b 2 2 - 64 - field b 4 2))
    refine ⟨o, (orderOf_of_sound (parseHeader_fitTo hb) hbo ?_ ?_).trans ho, ho⟩
    · rw [OrderHeader.sound_iff, OrderHeader.longEnough_iff]
      exact ⟨⟨hst, hlo, hhi, hmod⟩, hfit, ⟨hbody, by change 64 + field b 4 2 ≤ field b 2 2; omega⟩, n, hkind, hn1, hn2⟩
    · rw [listFits_iff]
      intro h15
      have hfour : 4 ≤ field b 4 2 := by have := hlist h15; omega
      rw [field_take _ (by omega)]
      unfold field
      rw [List.drop_drop]
      exact hlist h15

/-! ## The result and Done -/

theorem execResultWriteDone_of_writing {s : State} {r : WRef} {a : Access} (dt : Nat)
    (h : s.lp.walker = .writingResult r a) :
    exec (.resultWriteDone dt) s = .next ((s.elapse dt).writeDone r) := by
  change execResultWriteDone dt s = _
  unfold execResultWriteDone
  dsimp only
  rw [State.elapse_lp, h]

theorem execDoneWriteDone_of_writing {s : State} {r : WRef} {a : Access} (dt : Nat)
    (h : s.lp.walker = .writingDone r a) :
    exec (.doneWriteDone dt) s = .next ((s.elapse dt).raise .orderDone).afterDone := by
  change execDoneWriteDone dt s = _
  unfold execDoneWriteDone
  dsimp only
  rw [State.elapse_lp, h]

theorem State.afterDone_departing {s : State} (h : s.lp.departure.isSome = true) :
    s.afterDone = s.modLink fun p => { p with walker := .stopped } := if_pos h

theorem State.afterDone_waits {s : State} (hd : s.lp.departure = none) (h : s.lp.waitsAfterDone = true) :
    s.afterDone = (s.modLink fun p => { p with waitsAfterDone := false }).walkerWaits :=
  (if_neg (by rw [hd]; decide)).trans (if_pos h)

theorem State.afterDone_reads {s : State} (hd : s.lp.departure = none) (h : s.lp.waitsAfterDone = false) :
    s.afterDone = s.readLink :=
  (if_neg (by rw [hd]; decide)).trans (if_neg (by rw [h]; decide))

/-- Settles O18: the two last accesses of an order, the second by what the walker does next. -/
theorem theWalkerWritesDone : Obligations.TheWalkerWritesDone := by
  unfold Obligations.TheWalkerWritesDone
  intro dt s r a
  let t := (s.elapse dt).raise .orderDone
  refine ⟨fun hw => ?result, fun hw hd => ?departing, fun hw hd hp => ?waits, fun hw hd hp => ?reads⟩
  case result =>
    rw [execResultWriteDone_of_writing dt hw]
    rfl
  case departing =>
    rw [execDoneWriteDone_of_writing dt hw, State.afterDone_departing (s := t) hd]
    rfl
  case waits =>
    rw [execDoneWriteDone_of_writing dt hw, State.afterDone_waits (s := t) hd hp]
    rfl
  case reads =>
    rw [execDoneWriteDone_of_writing dt hw, State.afterDone_reads (s := t) hd hp, State.readLink_eq]
    rfl

/-! ## Bus errors and timeouts -/

theorem State.linkAccessOf_of_attended {s : State} {sel : AccessSel} {a : Access} (hl : s.lp.link = .attended)
    (ha : s.accessOf sel = some a) : s.linkAccessOf sel = some a := (if_pos hl).trans ha

theorem State.accessOf_elapse (s : State) (dt : Nat) (sel : AccessSel) :
    (s.elapse dt).accessOf sel = s.accessOf sel := by cases sel <;> rfl

theorem execBusError_of_access {s : State} {sel : AccessSel} {a : Access} (dt : Nat)
    (h : (s.elapse dt).linkAccessOf sel = some a) :
    exec (.busError dt sel) s = .next ((s.elapse dt).linkFault .busError a) := by
  change execBusError dt sel s = _
  unfold execBusError
  dsimp only
  rw [h]

theorem execAccessTimeout_of_access {s : State} {sel : AccessSel} {a : Access} (dt : Nat)
    (h : (s.elapse dt).linkAccessOf sel = some a) : exec (.accessTimeout dt sel) s =
      if (s.elapse dt).passed a.issued 50 then .next ((s.elapse dt).linkFault .accessTimeout a)
      else .next (s.elapse dt) := by
  change execAccessTimeout dt sel s = _
  unfold execAccessTimeout
  dsimp only
  rw [h]
  rfl

/-- Settles O19: both commands meet the access in flight, and both faults halt the link alike. -/
theorem faultsHaltTheLink : Obligations.FaultsHaltTheLink := by
  unfold Obligations.FaultsHaltTheLink
  intro dt s sel a hl ha
  have h : (s.elapse dt).linkAccessOf sel = some a :=
    State.linkAccessOf_of_attended (s := s.elapse dt) hl ((s.accessOf_elapse dt sel).trans ha)
  refine ⟨⟨_, execBusError_of_access dt h, State.linkFault_halted s dt .busError a⟩, fun hp => ?timesOut,
    fun hp => ?early⟩
  case timesOut =>
    exact ⟨_, (execAccessTimeout_of_access dt h).trans (if_pos (decide_eq_true hp)),
      State.linkFault_halted s dt .accessTimeout a⟩
  case early =>
    exact (execAccessTimeout_of_access dt h).trans (if_neg fun hc => absurd (of_decide_eq_true hc) (by
      change ¬ a.issued + 50 ≤ s.up + dt
      omega))

end Sys2Proof.Machine

/-! # The Journal and the Record Store under every rule (R104, R105, R117 to R122, R164)

The site with a label under changes of a site record, then an entry's admission and loss, the discard of captures
that makes room for a record, and the requests for WAKE. -/

namespace Sys2Proof.Machine

/-! ## The site with a label -/

theorem State.siteOf_eq_some {s : State} {n : Nat} {x : Site} :
    s.siteOf n = some x ↔ ∃ k, s.findSlot n = some k ∧ s.site k = some x := Option.bind_eq_some_iff

theorem State.siteOf_label {s : State} {n : Nat} {x : Site} (h : s.siteOf n = some x) : x.label = n := by
  obtain ⟨k, hk, hx⟩ := State.siteOf_eq_some.mp h
  obtain ⟨y, hy, hl⟩ := State.findSlot_holds hk
  cases hx.symm.trans hy
  exact hl

theorem State.siteOf_congr {s t : State} (h : t.sites = s.sites) (n : Nat) : t.siteOf n = s.siteOf n := by
  have hs : t.site = s.site := funext fun k => by rw [State.site, State.site, h]
  unfold State.siteOf State.findSlot
  rw [hs]

theorem State.journalOf_congr {s t : State} (h : t.sites = s.sites) (hd : t.device = s.device) (n : Nat) :
    t.journalOf n = s.journalOf n := by
  unfold State.journalOf
  rw [hd, State.siteOf_congr h]

theorem State.findSlot_modSite (s : State) (k : Fin 8) {f : Site → Site} (hf : ∀ x, (f x).label = x.label)
    (n : Nat) : (s.modSite k f).findSlot n = s.findSlot n := by
  refine State.findSlot_congr (fun j => ?_) n
  rw [State.site_modSite]
  split
  · cases s.site j <;> simp [hf]
  · rfl

/-- Slots that hold one label are one slot. -/
theorem State.findSlot_inj {s : State} {m n : Nat} {k : Fin 8} (hm : s.findSlot m = some k)
    (hn : s.findSlot n = some k) : m = n := by
  obtain ⟨x, hx, hxl⟩ := State.findSlot_holds hm
  obtain ⟨y, hy, hyl⟩ := State.findSlot_holds hn
  cases hx.symm.trans hy
  exact hxl.symm.trans hyl

/-- A change of the site with a label, seen by the labels. -/
theorem State.siteOf_modLabel (s : State) (n m : Nat) {f : Site → Site} (hf : ∀ x, (f x).label = x.label) :
    (s.modLabel n f).siteOf m = if m = n then (s.siteOf m).map f else s.siteOf m := by
  cases hk : s.findSlot n with
  | none =>
    have hs : s.modLabel n f = s := by
      unfold State.modLabel
      rw [hk]
    rw [hs]
    split
    · next h => rw [State.siteOf, h, hk]; rfl
    · rfl
  | some k =>
    have hs : s.modLabel n f = s.modSite k f := by
      unfold State.modLabel
      rw [hk]
    unfold State.siteOf
    rw [hs, State.findSlot_modSite s k hf]
    cases hj : s.findSlot m with
    | none => split <;> rfl
    | some j =>
      simp only [Option.bind_some, State.site_modSite]
      by_cases h : m = n
      · subst h
        cases hk.symm.trans hj
        rw [if_pos rfl, if_pos rfl]
      · rw [if_neg h, if_neg fun (hkj : k = j) => h (State.findSlot_inj (hkj ▸ hj) hk)]

@[simp] theorem State.modSite_device (s : State) (k : Fin 8) (f : Site → Site) :
    (s.modSite k f).device = s.device := by
  unfold State.modSite
  split <;> rfl

@[simp] theorem State.modLabel_device (s : State) (n : Nat) (f : Site → Site) :
    (s.modLabel n f).device = s.device := by
  unfold State.modLabel
  split
  · exact State.modSite_device s _ f
  · rfl

@[simp] theorem State.wakeRequest_sites (s : State) (w : WakeSource) : (s.wakeRequest w).sites = s.sites := by
  unfold State.wakeRequest
  split <;> rfl

@[simp] theorem State.wakeRequest_device (s : State) (w : WakeSource) : (s.wakeRequest w).device = s.device := by
  unfold State.wakeRequest
  split <;> rfl

@[simp] theorem State.addRecords_sites (s : State) (st : Stream) (rs : List Record) :
    (s.addRecords st rs).sites = s.sites := by
  unfold State.addRecords State.storeHighTest
  split
  · exact State.wakeRequest_sites _ _
  · rfl

@[simp] theorem State.addRecords_device (s : State) (st : Stream) (rs : List Record) :
    (s.addRecords st rs).device = s.device := by
  unfold State.addRecords State.storeHighTest
  split
  · exact State.wakeRequest_device _ _
  · rfl

/-! ## The journal states under an entry -/

theorem State.setJournal_lostTotal (s : State) (n : Nat) (j : JournalState) :
    (s.setJournal n j).device.lostTotal = s.device.lostTotal := by
  unfold State.setJournal
  split
  · rfl
  · rw [State.modLabel_device]

/-- A journal that exists takes the state that is set. -/
theorem State.journalOf_setJournal {s : State} {n : Nat} {i : JournalState} (h : s.journalOf n = some i)
    (j : JournalState) : (s.setJournal n j).journalOf n = some j := by
  unfold State.setJournal State.journalOf at *
  by_cases hn : n = 0
  · rw [if_pos hn, if_pos hn]
  · rw [if_neg hn] at h
    obtain ⟨x, hx, -⟩ := Option.map_eq_some_iff.mp h
    rw [if_neg hn, if_neg hn, State.siteOf_modLabel, if_pos rfl, hx]
    · rfl
    · exact fun _ => rfl

theorem State.siteOf_setJournal {s : State} {n : Nat} {x : Site} (hn : n ≠ 0) (h : s.siteOf n = some x)
    (j : JournalState) : (s.setJournal n j).siteOf n = some { x with journal := j } := by
  unfold State.setJournal
  rw [if_neg hn, State.siteOf_modLabel, if_pos rfl, h]
  · rfl
  · exact fun _ => rfl

/-- A change of a site's counters leaves its journal state. -/
theorem State.journalOf_modLabel (s : State) (n : Nat) {f : Site → Site} (hf : ∀ x, (f x).label = x.label)
    (hj : ∀ x, (f x).journal = x.journal) (m : Nat) : (s.modLabel n f).journalOf m = s.journalOf m := by
  unfold State.journalOf
  rw [State.modLabel_device, State.siteOf_modLabel s n m hf]
  by_cases h : m = n
  · rw [if_pos h]
    cases s.siteOf m <;> simp [hj]
  · rw [if_neg h]

theorem State.journalOf_countEntry (s : State) (n m : Nat) : (s.countEntry n).journalOf m = s.journalOf m := by
  unfold State.countEntry
  split
  · rfl
  · exact State.journalOf_modLabel s n (f := Site.countEntry) (fun _ => rfl) (fun _ => rfl) m

theorem State.journalOf_countLostEntry (s : State) (n m : Nat) :
    (s.countLostEntry n).journalOf m = s.journalOf m := by
  unfold State.countLostEntry
  split
  · rfl
  · exact State.journalOf_modLabel s n (f := Site.countLostEntry) (fun _ => rfl) (fun _ => rfl) m

theorem State.countEntry_device (s : State) (n : Nat) : (s.countEntry n).device = s.device := by
  unfold State.countEntry
  split
  · rfl
  · rw [State.modLabel_device]

/-! ## An entry is admitted or lost (R104, R105) -/

/-- The state after an admitted entry, part by part. -/
theorem State.enter_of_admits {s : State} {r : EntryRequest} {j : JournalState} (hj : s.journalOf r.site = some j)
    (ha : s.admitsEntry j r.body = true) : s.enter r =
      (((s.setJournal r.site j.taken).addRecords .journal [.journal (s.entryFor j r)]).countEntry r.site,
        some j.next) := by
  unfold State.enter
  rw [hj]
  exact if_pos ha

/-- The state after an entry that is not admitted, part by part. -/
theorem State.enter_of_refused {s : State} {r : EntryRequest} {j : JournalState} (hj : s.journalOf r.site = some j)
    (ha : s.admitsEntry j r.body = false) : s.enter r =
      (((s.setJournal r.site j.lose).countLostEntry r.site).countLost .journal 1, none) := by
  unfold State.enter
  rw [hj]
  exact if_neg (by rw [ha]; decide)

/-- The store after an admitted entry. -/
theorem State.enter_store_of_admits {s : State} {r : EntryRequest} {j : JournalState}
    (hj : s.journalOf r.site = some j) (ha : s.admitsEntry j r.body = true) : (s.enter r).1.store = { s.store with
      queues := { s.store.queues with
        journal := s.store.queues.journal ++ [queued s (.journal (s.entryFor j r))] } } := by
  have hq : queued (s.setJournal r.site j.taken) = queued s :=
    funext fun x => queued_congr (State.setJournal_quiet s _ _).steady.time.2.2 x
  rw [State.enter_of_admits hj ha, State.countEntry_store, State.addRecords_store, State.setJournal_store, hq]
  rfl

theorem State.setJournal_lp (s : State) (n : Nat) (j : JournalState) : (s.setJournal n j).lp = s.lp := by
  unfold State.setJournal
  split
  · rfl
  · exact State.modLabel_lp s n _

theorem State.countLostEntry_lp (s : State) (n : Nat) : (s.countLostEntry n).lp = s.lp := by
  unfold State.countLostEntry
  split
  · rfl
  · exact State.modLabel_lp s n _

/-- The site's count of entries after an admitted one (R18). -/
theorem State.enter_counts_of_admits {s : State} {r : EntryRequest} {j : JournalState} {x : Site}
    (hj : s.journalOf r.site = some j) (ha : s.admitsEntry j r.body = true) (hn : r.site ≠ 0)
    (hx : s.siteOf r.site = some x) : (s.enter r).1.siteOf r.site = some { x with journal := j.taken }.countEntry := by
  rw [State.enter_of_admits hj ha]
  unfold State.countEntry
  rw [if_neg hn, State.siteOf_modLabel, if_pos rfl, State.siteOf_congr (State.addRecords_sites _ _ _),
    State.siteOf_setJournal hn hx]
  · rfl
  · exact fun _ => rfl

/-- The site's count of lost entries after one more (R18). -/
theorem State.enter_counts_of_refused {s : State} {r : EntryRequest} {j : JournalState} {x : Site}
    (hj : s.journalOf r.site = some j) (ha : s.admitsEntry j r.body = false) (hn : r.site ≠ 0)
    (hx : s.siteOf r.site = some x) :
    (s.enter r).1.siteOf r.site = some { x with journal := j.lose }.countLostEntry := by
  rw [State.enter_of_refused hj ha]
  change ((s.setJournal r.site j.lose).countLostEntry r.site).siteOf r.site = _
  unfold State.countLostEntry
  rw [if_neg hn, State.siteOf_modLabel, if_pos rfl, State.siteOf_setJournal hn hx]
  · rfl
  · exact fun _ => rfl

/-- The device's count of lost entries after one more. -/
theorem State.countLostEntry_device (s : State) :
    (s.countLostEntry 0).device.lostTotal = satAdd s.device.lostTotal 1 := rfl

/-- Settles O21: the two outcomes of an entry, each by its journal state, its store, its counts and its frame. -/
theorem theJournalAdmitsOrCountsAnEntry : Obligations.TheJournalAdmitsOrCountsAnEntry := by
  unfold Obligations.TheJournalAdmitsOrCountsAnEntry
  refine ⟨fun s r j hj he hr => ?admitted, fun s r j hj h => ?lost⟩
  case admitted =>
    have ha := (State.admitsEntry_iff s j r.body).mpr ⟨he, hr⟩
    have hq := State.enter_quiet s r
    obtain ⟨hfe, hcheck, hwatch, hsag, hinterval, hprint⟩ := State.enter_aside s r
    refine ⟨(s.enter r).1, ?_, ?_, State.enter_store_of_admits hj ha, ?_,
      fun x hn hx => ⟨_, State.enter_counts_of_admits hj ha hn hx, rfl⟩, hq.steady.time, hq.steady.link, hq.sites, hfe,
      hcheck, hwatch, hsag, hinterval, hprint⟩
    · rw [State.enter_of_admits hj ha]
    · rw [State.enter_of_admits hj ha, State.journalOf_countEntry,
        State.journalOf_congr (State.addRecords_sites _ _ _) (State.addRecords_device _ _ _),
        State.journalOf_setJournal hj]
      rfl
    · rw [State.enter_of_admits hj ha, State.countEntry_device, State.addRecords_device, State.setJournal_lostTotal]
  case lost =>
    have ha : s.admitsEntry j r.body = false := by
      rw [← Bool.not_eq_true, State.admitsEntry_iff, not_and_or, Bool.not_eq_false, not_le]
      exact h
    have hq := State.enter_quiet s r
    obtain ⟨hfe, hcheck, hwatch, hsag, hinterval, hprint⟩ := State.enter_aside s r
    refine ⟨(s.enter r).1, ?_, ?_, ?_, fun hn => ?_,
      fun x hn hx => ⟨_, State.enter_counts_of_refused hj ha hn hx, rfl⟩, hq.steady.time, ?_, hq.sites, hfe,
      hcheck, hwatch, hsag, hinterval, hprint, ?_⟩
    · rw [State.enter_of_refused hj ha]
    · rw [State.enter_of_refused hj ha]
      exact (State.journalOf_countLostEntry _ _ _).trans (State.journalOf_setJournal hj _)
    · rw [State.enter_of_refused hj ha]
      unfold State.countLost
      rw [State.countLostEntry_store, State.setJournal_store]
      rfl
    · rw [State.enter_of_refused hj ha, hn]
      exact (State.countLostEntry_device _).trans (congrArg (satAdd · 1) (State.setJournal_lostTotal s 0 _))
    · rw [State.enter_of_refused hj ha]
      exact (State.countLostEntry_lp _ _).trans (State.setJournal_lp s _ _)
    · rw [State.enter_of_refused hj ha]
      exact (State.countLostEntry_van _ _).trans (State.setJournal_van s _ _)

/-! ## A capture is discarded (R119, R120) -/

theorem State.enter_captures (s : State) (r : EntryRequest) :
    (s.enter r).1.store.queues.captures = s.store.queues.captures := by
  cases hj : s.journalOf r.site with
  | none =>
    unfold State.enter
    rw [hj]
  | some j =>
    cases ha : s.admitsEntry j r.body with
    | false => rw [State.enter_queues_of_refused hj ha]
    | true => rw [State.enter_queues_of_admits hj ha]; rfl

/-- The state of a discard before its Capture Discarded entry (R120). -/
def State.withoutCapture (s : State) (p : CapturePiece) : State :=
  (State.countLost { s with store := { s.store with queues := { s.store.queues with
      captures := s.store.queues.captures.filter fun q => !sameCapture p q } } } .captures
    (s.store.queues.captures.filter (sameCapture p)).length).modLabel p.site (·.countLostRecord .captures)

theorem State.discardCapture_eq (s : State) (c : CapturePiece × Queued) (st : Stream) (site : Nat) :
    s.discardCapture c st site = (s.withoutCapture c.1).putAnchored c.1.site (captureAnchor c.1)
      (.captureDiscarded c.1.capture c.1.event (queueBytes (s.store.queues.captures.filter (sameCapture c.1)))
        (s.store.queues.captures.filter (sameCapture c.1)).length c.1.kind st site c.2.admitted) := rfl

theorem State.withoutCapture_store (s : State) (p : CapturePiece) {n : Nat}
    (hn : n = (s.store.queues.captures.filter (sameCapture p)).length) : (s.withoutCapture p).store = { s.store with
      queues := { s.store.queues with captures := s.store.queues.captures.filter fun q => !sameCapture p q }
      lostTotal := { s.store.lostTotal with captures := satAdd s.store.lostTotal.captures n }
      lostSincePage := { s.store.lostSincePage with captures := satAdd s.store.lostSincePage.captures n } } := by
  subst hn
  exact State.modLabel_store _ _ _

theorem State.withoutCapture_siteOf {s : State} {p : CapturePiece} {x : Site} (h : s.siteOf p.site = some x) :
    (s.withoutCapture p).siteOf p.site = some (x.countLostRecord .captures) := by
  unfold State.withoutCapture
  rw [State.siteOf_modLabel, if_pos rfl]
  · exact congrArg (Option.map (Site.countLostRecord · .captures)) h
  · exact fun _ => rfl

/-- A discard removes the pieces of its capture and no other record. -/
theorem State.discardCapture_captures (s : State) (c : CapturePiece × Queued) (st : Stream) (site : Nat) :
    (s.discardCapture c st site).store.queues.captures
      = s.store.queues.captures.filter fun q => !sameCapture c.1 q := by
  rw [State.discardCapture_eq]
  refine (State.enter_captures _ _).trans ?_
  rw [State.withoutCapture_store s c.1 rfl]

theorem captureAnchor_eq (p : CapturePiece) :
    captureAnchor p = if p.kind = .snapshot then .none else .ownEvent p.event := by
  unfold captureAnchor
  cases p.kind <;> rfl

theorem sameCapture_iff (p : CapturePiece) (q : Queued) :
    sameCapture p q = true ↔ ∃ c, q.record = .piece c ∧ c.site = p.site ∧ c.capture = p.capture := by
  unfold sameCapture
  cases q.record <;> simp

/-! ## Room for a record (R119) -/

theorem State.makeRoom_fits {s : State} {n : Nat} (h : s.store.fits n = true) (fuel : Nat) (st : Stream) (site : Nat) :
    State.makeRoom fuel s st site n = s := by
  cases fuel with
  | zero => rfl
  | succ fuel => exact if_pos h

theorem State.makeRoom_stuck {s : State} (h : oldestEligible s.store.queues.captures = none) (fuel : Nat)
    (st : Stream) (site n : Nat) : State.makeRoom fuel s st site n = s := by
  cases fuel with
  | zero => rfl
  | succ fuel =>
    unfold State.makeRoom
    rw [h, ite_self]

theorem State.makeRoom_discards {s : State} {c : CapturePiece × Queued} {n : Nat} (hf : s.store.fits n = false)
    (h : oldestEligible s.store.queues.captures = some c) (fuel : Nat) (st : Stream) (site : Nat) :
    State.makeRoom (fuel + 1) s st site n = State.makeRoom fuel (s.discardCapture c st site) st site n := by
  rw [State.makeRoom, hf, h]
  rfl

/-- The oldest eligible capture has a piece in the queue. -/
theorem oldestEligible_mem {l : List Queued} {c : CapturePiece × Queued} (h : oldestEligible l = some c) :
    c.2 ∈ l ∧ sameCapture c.1 c.2 = true := by
  obtain ⟨hrec, -, before, after, hl, -⟩ := ((oldestEligible_iff l _ fun _ => Iff.rfl).2 c.1 c.2).mp h
  exact ⟨by rw [hl]; simp, (sameCapture_iff _ _).mpr ⟨c.1, hrec, rfl, rfl⟩⟩

/-- A discard of the oldest eligible capture leaves fewer records. -/
theorem State.discardCapture_shorter {s : State} {c : CapturePiece × Queued}
    (h : oldestEligible s.store.queues.captures = some c) (st : Stream) (site : Nat) :
    (s.discardCapture c st site).store.queues.captures.length < s.store.queues.captures.length := by
  obtain ⟨hmem, hsame⟩ := oldestEligible_mem h
  rw [State.discardCapture_captures]
  exact List.length_filter_lt_length_iff_exists.mpr ⟨c.2, hmem, by simp [hsame]⟩

/-- Fuel for each queued capture piece is enough, and more of it changes nothing. -/
theorem State.makeRoom_fuel (st : Stream) (site n : Nat) : ∀ (fuel more : Nat) (s : State),
    s.store.queues.captures.length ≤ fuel →
    State.makeRoom (fuel + more) s st site n = State.makeRoom fuel s st site n := by
  intro fuel
  induction fuel with
  | zero =>
    intro more s h
    have hnil : s.store.queues.captures = [] := List.length_eq_zero_iff.mp (Nat.le_zero.mp h)
    exact State.makeRoom_stuck (by rw [hnil]; rfl) _ _ _ _
  | succ fuel ih =>
    intro more s h
    cases hf : s.store.fits n with
    | true => rw [State.makeRoom_fits hf, State.makeRoom_fits hf]
    | false =>
      cases hc : oldestEligible s.store.queues.captures with
      | none => rw [State.makeRoom_stuck hc, State.makeRoom_stuck hc]
      | some c =>
        have hlt := State.discardCapture_shorter hc st site
        rw [Nat.add_right_comm, State.makeRoom_discards hf hc, State.makeRoom_discards hf hc, ih more _ (by omega)]

/-- The room that an admission makes begins with the discard of the oldest eligible capture. -/
theorem State.admitRecord_discards {s : State} {st : Stream} {r : Record} {c : CapturePiece × Queued}
    (hf : s.store.fits r.length = false) (h : oldestEligible s.store.queues.captures = some c) :
    s.admitRecord st r = (s.discardCapture c st r.site).admitRecord st r := by
  have hlt := State.discardCapture_shorter h st r.site
  obtain ⟨more, hm⟩ := Nat.exists_eq_add_of_le (show _ + 1 ≤ s.store.queues.captures.length from hlt)
  have hroom : s.makeRoom (s.store.queues.captures.length + 1) st r.site r.length
      = (s.discardCapture c st r.site).makeRoom
          ((s.discardCapture c st r.site).store.queues.captures.length + 1) st r.site r.length := by
    rw [State.makeRoom_discards hf h, hm, State.makeRoom_fuel _ _ _ _ more _ (by omega)]
  unfold State.admitRecord
  dsimp only
  rw [hroom]

theorem State.admitRecord_fits {s : State} {st : Stream} {r : Record} (hf : s.store.fits r.length = true) :
    s.admitRecord st r = (s.addRecords st [r], true) := by
  unfold State.admitRecord
  dsimp only
  rw [State.makeRoom_fits hf, if_pos hf]

theorem State.admitRecord_lost {s : State} {st : Stream} {r : Record} (hf : s.store.fits r.length = false)
    (h : oldestEligible s.store.queues.captures = none) :
    s.admitRecord st r = ((s.countLost st 1).modLabel r.site (·.countLostRecord st), false) := by
  unfold State.admitRecord
  dsimp only
  rw [State.makeRoom_stuck h, if_neg (by rw [hf]; decide)]

theorem RecordStore.fits_eq_false {r : RecordStore} {n : Nat}
    (h : 491520 < r.nonJournalOccupancy + n ∨ 524288 < r.total + n) : r.fits n = false := by
  rw [← Bool.not_eq_true, RecordStore.fits_iff, not_and_or, not_le, not_le]
  exact h

/-- Settles O22: a record's admission by whether it fits and whether a capture is eligible, and what a discard
removes, counts and reports. -/
theorem recordsAreAdmittedOrLost : Obligations.RecordsAreAdmittedOrLost := by
  unfold Obligations.RecordsAreAdmittedOrLost
  intro s st r
  refine ⟨fun h1 h2 => ?fits, fun hc h => State.admitRecord_lost (RecordStore.fits_eq_false h) hc,
    fun c hc h => State.admitRecord_discards (RecordStore.fits_eq_false h) hc, fun c gone hgone => ?discard,
    fun c q => ?keeps, sameCapture_iff, oldestEligible_iff⟩
  case fits =>
    refine ⟨State.admitRecord_fits ((RecordStore.fits_iff _ _).mpr ⟨h1, h2⟩), ?_⟩
    rw [State.addRecords_queues, PerStream.get_set, if_pos rfl]
    rfl
  case discard =>
    subst hgone
    refine ⟨s.withoutCapture c.1, ?_, State.withoutCapture_store s c.1 rfl,
      fun x hx => ⟨_, State.withoutCapture_siteOf hx, rfl⟩⟩
    rw [← captureAnchor_eq]
    exact State.discardCapture_eq s c st r.site
  case keeps =>
    rw [State.discardCapture_captures, List.mem_filter, Bool.not_eq_true']

/-! ## WAKE is asked for (R122, R164) -/

theorem State.wakeRequest_raises {s : State} (w : WakeSource) (hl : s.lp.link = .away) (hw : s.van.wake = .low) :
    s.wakeRequest w = { s with van := { s.van with wake := .high, source := w } } := if_pos ⟨hl, hw⟩

theorem State.wakeRequest_dropped {s : State} (w : WakeSource) (h : s.lp.link ≠ .away ∨ s.van.wake = .high) :
    s.wakeRequest w = s := by
  refine if_neg fun hc => ?_
  obtain ⟨hl, hw⟩ := hc
  rcases h with h | h
  · exact h hl
  · rw [hw] at h
    cases h

/-- The store with records at the tail of a queue, before the store high test. -/
def State.withRecords (s : State) (st : Stream) (rs : List Record) : State :=
  { s with store := { s.store with
      queues := s.store.queues.set st (s.store.queues.get st ++ rs.map (queued s)) } }

theorem State.addRecords_eq (s : State) (st : Stream) (rs : List Record) :
    s.addRecords st rs = (s.withRecords st rs).storeHighTest s.store.total := rfl

/-- The store high test finds a crossing of the mark. -/
theorem State.storeHighTest_crosses {s : State} {n : Nat} (h1 : n < s.store.highMark)
    (h2 : s.store.highMark ≤ s.store.total) : s.storeHighTest n = (s.raise .storeHigh).wakeRequest .storeHigh :=
  if_pos ⟨h1, h2⟩

/-- Settles O23: WAKE by the state of the link and its own, and the store high test by the two occupancies. -/
theorem wakeIsRaisedWhenAway : Obligations.WakeIsRaisedWhenAway := by
  unfold Obligations.WakeIsRaisedWhenAway
  refine ⟨fun s w => ⟨State.wakeRequest_raises w, State.wakeRequest_dropped w⟩,
    fun s st rs => ⟨_, rfl, fun h1 h2 => ?crosses, fun h => ?quiet⟩⟩
  all_goals have hstore : (s.addRecords st rs).store = (s.withRecords st rs).store := State.storeHighTest_store _ _
  case crosses =>
    rw [hstore] at h2
    rw [State.addRecords_eq, State.storeHighTest_crosses (s := s.withRecords st rs) h1 h2]
    refine ⟨?_, fun hl hw => ?_⟩
    · rw [State.attends_of_lp (State.wakeRequest_lp _ _)]
      exact State.raise_attends _ _
    · rw [State.wakeRequest_raises (s := (s.withRecords st rs).raise .storeHigh) _ hl hw]
      exact ⟨rfl, rfl⟩
  case quiet =>
    have hsame : s.addRecords st rs = s.withRecords st rs := by
      refine if_neg fun hc => ?_
      obtain ⟨hlow, hhigh⟩ := hc
      rw [hstore] at h
      exact h.elim (fun h => absurd hlow (not_lt.mpr h)) fun h => absurd hhigh (not_le.mpr h)
    rw [hsame]
    exact ⟨rfl, rfl⟩

end Sys2Proof.Machine

/-! # The orders that fill, map and limit a site (R2 to R4, R6 to R11)

What the fields of Create Site, Set Map and Set Limits must be, what the three orders answer, and the statements
about them. -/

namespace Sys2Proof.Machine

/-! ## The common judgement -/

/-- A label or another field out of its range is Bad Value (R9). -/
theorem State.judgeSite_badValue {s : State} {n : Nat} {b : Bool} (f : Fin 8 → Site → Answer)
    (h : labelOk n = false ∨ b = false) : s.judgeSite n b f = refuse s .badValue := by
  refine if_pos fun hc => ?_
  obtain ⟨hl, hb⟩ := hc
  rcases h with h | h
  · exact Bool.false_ne_true (h.symm.trans hl)
  · exact Bool.false_ne_true (h.symm.trans hb)

/-- A label in range that no slot holds is Unknown Site (R9). -/
theorem State.judgeSite_unknownSite {s : State} {n : Nat} {b : Bool} (f : Fin 8 → Site → Answer)
    (hl : labelOk n = true) (hb : b = true) (h : ∀ k x, s.site k = some x → x.label ≠ n) :
    s.judgeSite n b f = refuse s .unknownSite := by
  unfold State.judgeSite
  rw [if_neg fun hc => hc ⟨hl, hb⟩, State.findSlot_none.mpr h]

theorem labelOk_iff (n : Nat) : labelOk n = true ↔ 1 ≤ n ∧ n ≤ 65535 := decide_eq_true_iff

theorem labelOk_of_out {n : Nat} (h : n = 0 ∨ 65535 < n) : labelOk n = false := by
  rw [← Bool.not_eq_true, labelOk_iff]
  omega

/-! ## The slots in order -/

theorem slotNumbers_getElem (n : Nat) (h : n < slotNumbers.length) : slotNumbers[n] = ⟨n, h⟩ := by
  have all : ∀ k : Fin 8, slotNumbers[k.val] = k := by decide
  exact all ⟨n, h⟩

/-- The first slot with a property is the lowest one. -/
theorem slotNumbers_find {p : Fin 8 → Bool} {k : Fin 8} (hk : p k = true) (hl : ∀ j, j < k → p j = false) :
    slotNumbers.find? p = some k := by
  rw [List.find?_eq_some_iff_getElem]
  refine ⟨hk, k.val, k.isLt, slotNumbers_getElem _ _, fun j hj => ?_⟩
  exact (congrArg (fun q => !p q) (slotNumbers_getElem j _)).trans (congrArg (!·) (hl ⟨j, _⟩ hj))

theorem State.emptySlot_lowest {s : State} {k : Fin 8} (hk : s.site k = none)
    (hl : ∀ j, j < k → (s.site j).isSome = true) : s.emptySlot = some k := by
  refine slotNumbers_find (by rw [hk]; rfl) fun j hj => ?_
  rw [Option.isNone_eq_false_iff]
  exact hl j hj

theorem State.emptySlot_none {s : State} (h : ∀ k, (s.site k).isSome = true) : s.emptySlot = none := by
  refine List.find?_eq_none.mpr fun k _ => ?_
  rw [Bool.not_eq_true, Option.isNone_eq_false_iff]
  exact h k

/-! ## The fields of Create Site (R2, R6) -/

theorem parseWiring_iff (n : Nat) (w : Wiring) : parseWiring n = some w ↔
    (n = 0 ∧ w = .single) ∨ (n = 1 ∧ w = .wye) ∨ (n = 2 ∧ w = .delta) := by
  unfold parseWiring
  split <;> cases w <;> simp_all

/-- The Slip rule of an options byte (11.4). -/
def slipRuleOf (n : Nat) : Option SlipRule :=
  match n / 4 % 4 with
  | 0 => some .off
  | 1 => some .interruptions
  | 2 => some .depth
  | _ => none

theorem slipRuleOf_iff (n : Nat) (r : SlipRule) : slipRuleOf n = some r ↔
    (n / 4 % 4 = 0 ∧ r = .off) ∨ (n / 4 % 4 = 1 ∧ r = .interruptions) ∨ (n / 4 % 4 = 2 ∧ r = .depth) := by
  unfold slipRuleOf
  split <;> cases r <;> simp_all

theorem parseOptions_eq (n d : Nat) : parseOptions n d = (slipRuleOf n).map fun r =>
    ⟨bit n 0, bit n 1, r, if r = .depth then d else 0, bit n 4⟩ := rfl

theorem parseOptions_iff (n d : Nat) (o : SiteOptions) : parseOptions n d = some o ↔
    o.autoCorrect = n.testBit 0 ∧ o.exportFlow = n.testBit 1
      ∧ ((n / 4 % 4 = 0 ∧ o.slipRule = .off) ∨ (n / 4 % 4 = 1 ∧ o.slipRule = .interruptions)
        ∨ (n / 4 % 4 = 2 ∧ o.slipRule = .depth))
      ∧ o.slipDepth = (if o.slipRule = .depth then d else 0) ∧ o.wakeOnInterruption = n.testBit 4 := by
  rw [parseOptions_eq, Option.map_eq_some_iff, ← slipRuleOf_iff]
  constructor
  · rintro ⟨r, hr, rfl⟩
    exact ⟨rfl, rfl, hr, rfl, rfl⟩
  · intro ⟨ha, he, hr, hd, hw⟩
    refine ⟨o.slipRule, hr, ?_⟩
    rw [← hd]
    unfold bit
    rw [← ha, ← he, ← hw]

theorem slipOk_iff (o : SiteOptions) :
    slipOk o = true ↔ (o.slipRule = .depth → 100 ≤ o.slipDepth ∧ o.slipDepth ≤ 9800) := by
  unfold slipOk
  rw [Bool.or_eq_true, bne_iff_ne, decide_eq_true_iff, imp_iff_not_or]

/-- The ranges of Create Site beside its wiring and its options' Slip rule (R2, R6, R9). -/
def CreateInRange (b : CreateSiteBody) (o : SiteOptions) : Prop :=
  labelOk b.label ∧ 50 ≤ b.nominalVoltage ∧ b.nominalVoltage ≤ 800 ∧ (b.frequency = 50 ∨ b.frequency = 60)
    ∧ b.limitsGiven ≤ 1 ∧ slipOk o ∧ (b.limitsGiven = 1 → limitsValid b.limits = true)

theorem judgeCreate_iff (b : CreateSiteBody) (w : Wiring) (o : SiteOptions) : judgeCreate b = some (w, o) ↔
    parseWiring b.wiring = some w ∧ parseOptions b.options b.slipDepth = some o ∧ CreateInRange b o := by
  unfold judgeCreate CreateInRange
  cases parseWiring b.wiring with
  | none => simp
  | some w' =>
    cases parseOptions b.options b.slipDepth with
    | none => simp
    | some o' =>
      dsimp only
      split
      · next h =>
        refine ⟨fun e => ?_, fun ⟨hw, ho, _⟩ => ?_⟩
        · cases e
          exact ⟨rfl, rfl, h⟩
        · cases hw
          cases ho
          rfl
      · next h =>
        refine ⟨nofun, fun ⟨_, ho, hr⟩ => absurd ?_ h⟩
        cases ho
        exact hr

/-- The fields of a Create Site that is not a Bad Value. -/
theorem judgeCreate_ne_none_iff (b : CreateSiteBody) : judgeCreate b ≠ none ↔
    1 ≤ b.label ∧ b.label ≤ 65535 ∧ 50 ≤ b.nominalVoltage ∧ b.nominalVoltage ≤ 800
      ∧ (b.frequency = 50 ∨ b.frequency = 60) ∧ b.wiring ≤ 2 ∧ b.options / 4 % 4 ≤ 2
      ∧ (b.options / 4 % 4 = 2 → 100 ≤ b.slipDepth ∧ b.slipDepth ≤ 9800) ∧ b.limitsGiven ≤ 1
      ∧ (b.limitsGiven = 1 → limitsValid b.limits = true) := by
  rw [Option.ne_none_iff_exists']
  constructor
  · rintro ⟨⟨w, o⟩, h⟩
    obtain ⟨hw, ho, hlabel, hv1, hv2, hf, hg, hs, hlim⟩ := (judgeCreate_iff b w o).mp h
    obtain ⟨hl1, hl2⟩ := (labelOk_iff _).mp hlabel
    obtain ⟨-, -, hrule, hdepth, -⟩ := (parseOptions_iff _ _ o).mp ho
    refine ⟨hl1, hl2, hv1, hv2, hf, ?_, ?_, fun h2 => ?_, hg, hlim⟩
    · rcases (parseWiring_iff _ _).mp hw with ⟨h, -⟩ | ⟨h, -⟩ | ⟨h, -⟩ <;> omega
    · rcases hrule with ⟨h, -⟩ | ⟨h, -⟩ | ⟨h, -⟩ <;> omega
    · have hr : o.slipRule = .depth := by
        rcases hrule with ⟨h, -⟩ | ⟨h, -⟩ | ⟨-, h⟩
        · omega
        · omega
        · exact h
      rw [if_pos hr] at hdepth
      rw [← hdepth]
      exact (slipOk_iff o).mp hs hr
  · intro ⟨hl1, hl2, hv1, hv2, hf, hw, hr, hd, hg, hlim⟩
    obtain ⟨w, hw'⟩ : ∃ w, parseWiring b.wiring = some w := by
      interval_cases b.wiring <;> exact ⟨_, rfl⟩
    obtain ⟨r, hr'⟩ : ∃ r, slipRuleOf b.options = some r := by
      unfold slipRuleOf
      interval_cases b.options / 4 % 4 <;> exact ⟨_, rfl⟩
    refine ⟨(w, ⟨_, _, r, _, _⟩), (judgeCreate_iff b _ _).mpr ⟨hw', by rw [parseOptions_eq, hr']; rfl,
      (labelOk_iff _).mpr ⟨hl1, hl2⟩, hv1, hv2, hf, hg, (slipOk_iff _).mpr fun h => ?_, hlim⟩⟩
    dsimp only at h ⊢
    subst h
    rw [if_pos rfl]
    refine hd ?_
    rcases (slipRuleOf_iff _ _).mp hr' with ⟨-, h⟩ | ⟨-, h⟩ | ⟨h, -⟩
    · cases h
    · cases h
    · exact h

/-! ## Create Site -/

theorem takes_createSite {s u : State} {b : CreateSiteBody} {code : ResultCode} {area : List Byte}
    (h : s.createSite b = ⟨u, code, area⟩) : Takes (.createSite b) (.createSite b) s u code area :=
  takes_of_answer (g := (·.createSite b)) rfl h

theorem State.createSite_badValue {s : State} {b : CreateSiteBody} (h : judgeCreate b = none) :
    s.createSite b = refuse s .badValue := by
  unfold State.createSite
  rw [h]

theorem State.createSite_duplicate {s : State} {b : CreateSiteBody} {k : Fin 8} {x : Site}
    (h : judgeCreate b ≠ none) (hx : s.site k = some x) (hl : x.label = b.label) :
    s.createSite b = refuse s .duplicateSite := by
  obtain ⟨⟨w, o⟩, ho⟩ := Option.ne_none_iff_exists'.mp h
  unfold State.createSite
  rw [ho]
  exact if_pos (State.findSlot_isSome hx hl)

theorem State.createSite_full {s : State} {b : CreateSiteBody} (h : judgeCreate b ≠ none)
    (hk : ∀ k, ∃ x, s.site k = some x ∧ x.label ≠ b.label) : s.createSite b = refuse s .siteTableFull := by
  obtain ⟨⟨w, o⟩, ho⟩ := Option.ne_none_iff_exists'.mp h
  have hf : s.findSlot b.label = none := State.findSlot_none.mpr fun k x hx => by
    obtain ⟨y, hy, hl⟩ := hk k
    cases hx.symm.trans hy
    exact hl
  have he : s.emptySlot = none := State.emptySlot_none fun k => by
    obtain ⟨y, hy, -⟩ := hk k
    rw [hy]
    rfl
  unfold State.createSite
  rw [ho]
  dsimp only
  rw [hf, he]
  rfl

theorem State.createSite_accepted {s : State} {b : CreateSiteBody} {w : Wiring} {o : SiteOptions} {k : Fin 8}
    (h : judgeCreate b = some (w, o)) (hl : ∀ j x, s.site j = some x → x.label ≠ b.label)
    (hk : s.emptySlot = some k) : s.createSite b =
      accept ((s.setSlot k (some (Site.create b w o s.clock))).put b.label
        (.created b.nominalVoltage b.frequency w o)) (byte k.val ++ zeros 3) := by
  unfold State.createSite
  rw [h]
  dsimp only
  rw [State.findSlot_none.mpr hl, hk]
  rfl

/-- Settles O24: the answers of Create Site in the order of its judgement, and what each of its fields must be. -/
theorem createSiteFillsTheLowestSlot : Obligations.CreateSiteFillsTheLowestSlot := by
  unfold Obligations.CreateSiteFillsTheLowestSlot
  refine ⟨fun s b w o k hl1 hl2 hv1 hv2 hf hw ho hs hg hlim hnew hk hlow => ?accepted,
    fun s b => ⟨fun h => takes_createSite (State.createSite_badValue h),
      fun k x h hx hl => takes_createSite (State.createSite_duplicate h hx hl),
      fun h hk => takes_createSite (State.createSite_full h hk), judgeCreate_ne_none_iff b, parseWiring_iff,
      parseOptions_iff, slipOk_iff⟩⟩
  case accepted =>
    have hj : judgeCreate b = some (w, o) :=
      (judgeCreate_iff b w o).mpr ⟨hw, ho, (labelOk_iff _).mpr ⟨hl1, hl2⟩, hv1, hv2, hf, hg, hs, hlim⟩
    exact takes_createSite (State.createSite_accepted hj hnew (State.emptySlot_lowest hk hlow))

/-! ## Limits (R6 to R8) -/

theorem limitsValid_iff (l : Limits) : limitsValid l = true ↔
    5000 ≤ l.sag ∧ l.sag ≤ 9800 ∧ 100 ≤ l.hysteresis ∧ l.hysteresis ≤ 1000 ∧ 100 ≤ l.interruption
    ∧ l.interruption ≤ 2000 ∧ 10 ≤ l.settle ∧ l.settle ≤ 500 ∧ 1 ≤ l.longLimit ∧ l.longLimit ≤ 600
    ∧ 8 ≤ l.depth ∧ l.depth ≤ 50 ∧ l.intervalLength ∈ [1, 2, 3, 5, 10, 15, 30, 60] ∧ l.leadHoldoff ≤ 15
    ∧ l.clampHoldoff ≤ 15 ∧ l.anchorWindow ≤ 300 ∧ l.interruption < l.sag ∧ l.sag + l.hysteresis ≤ 10000 := by
  unfold limitsValid
  rw [Bool.and_eq_true, Bool.and_eq_true, Bool.and_eq_true, decide_eq_true_iff, decide_eq_true_iff,
    decide_eq_true_iff, List.contains_iff_mem]
  constructor
  · intro ⟨⟨⟨⟨s1, s2, h1, h2, i1, i2, t1, t2⟩, g1, g2, d1, d2, lead, clamp, window⟩, len⟩, order, top⟩
    exact ⟨s1, s2, h1, h2, i1, i2, t1, t2, g1, g2, d1, d2, len, lead, clamp, window, order, top⟩
  · intro ⟨s1, s2, h1, h2, i1, i2, t1, t2, g1, g2, d1, d2, len, lead, clamp, window, order, top⟩
    exact ⟨⟨⟨⟨s1, s2, h1, h2, i1, i2, t1, t2⟩, g1, g2, d1, d2, lead, clamp, window⟩, len⟩, order, top⟩

theorem takes_setLimits {s u : State} {b : SetLimitsBody} {code : ResultCode} {area : List Byte}
    (h : s.setLimits b = ⟨u, code, area⟩) : Takes (.setLimits b) (.setLimits b) s u code area :=
  takes_of_answer (g := (·.setLimits b)) rfl h

/-- Settles O25: the ranges of a limits set, its two refusals and the default set. -/
theorem limitsAreChecked : Obligations.LimitsAreChecked := by
  unfold Obligations.LimitsAreChecked
  refine ⟨limitsValid_iff, fun s b h => takes_setLimits (State.judgeSite_badValue _ (Or.inr h)),
    fun s b hg h => takes_createSite (State.createSite_badValue ?refused), rfl, fun b w o now hg => ?default⟩
  case refused =>
    by_contra hn
    obtain ⟨-, -, -, -, -, -, -, -, -, hlim⟩ := (judgeCreate_ne_none_iff b).mp hn
    exact Bool.false_ne_true (h.symm.trans (hlim hg))
  case default =>
    exact if_neg (by rw [hg]; decide)

/-- A limits set that is applied advances the version, which wraps from 65,535 to 1 (R7). -/
theorem State.applyLimits_at {s : State} {k : Fin 8} {x : Site} (hx : s.site k = some x) (l : Limits) :
    s.applyLimits k l = (s.setSlot k (some (x.applyLimits l))).put x.label
      (.limitsApplied (nextFrom1 x.version) l) := by
  unfold State.applyLimits
  rw [hx]
  dsimp only
  rw [State.modSite_at _ hx]

section

variable {s : State} {b : SetLimitsBody} {k : Fin 8} {x : Site} (h : Holds s b.label k x)
  (hb : limitsValid b.limits = true)

include h hb

theorem State.setLimits_applies (hx : x.state = .drafted ∨ x.state = .ready) :
    s.setLimits b = accept (s.applyLimits k b.limits) [] := by
  obtain ⟨hl, hk, hs⟩ := h
  refine (State.judgeSite_pass _ hl hb hk hs).trans ?_
  rcases hx with hx | hx <;> rw [hx]

theorem State.setLimits_waits (hx : x.state = .surveying ∨ x.state = .paused ∨ x.state = .checking) :
    s.setLimits b = accept (s.modSite k fun y => { y with pendingSet := some b.limits }) [] := by
  obtain ⟨hl, hk, hs⟩ := h
  refine (State.judgeSite_pass _ hl hb hk hs).trans ?_
  rcases hx with hx | hx | hx <;> rw [hx]

theorem State.setLimits_wrongState (hx : x.state = .closed) : s.setLimits b = refuse s .wrongState := by
  obtain ⟨hl, hk, hs⟩ := h
  refine (State.judgeSite_pass _ hl hb hk hs).trans ?_
  rw [hx]

end

/-- Settles O27: Set Limits by the state of the site it finds. -/
theorem setLimitsAppliesOrWaits : Obligations.SetLimitsAppliesOrWaits := by
  unfold Obligations.SetLimitsAppliesOrWaits
  intro s b k x h hb
  obtain ⟨-, -, hs⟩ := id h
  refine ⟨fun hx => takes_setLimits ?applies, fun hx => takes_setLimits ?waits,
    fun hx => takes_setLimits (State.setLimits_wrongState h hb hx)⟩
  case applies =>
    rw [State.setLimits_applies h hb hx, State.applyLimits_at hs]
    rfl
  case waits =>
    rw [State.setLimits_waits h hb hx, State.modSite_at _ hs]
    rfl

/-! ## Maps (R3, R4, R11) -/

theorem PerInput.ext_get {α : Type} {a b : PerInput α} (h : ∀ i, a.get i = b.get i) : a = b := by
  cases a
  cases b
  have h1 := h .v1
  have h2 := h .v2
  have h3 := h .v3
  have h4 := h .v4
  have h5 := h .i1
  have h6 := h .i2
  have h7 := h .i3
  have h8 := h .i4
  simp only [PerInput.get] at h1 h2 h3 h4 h5 h6 h7 h8
  rw [h1, h2, h3, h4, h5, h6, h7, h8]

theorem Input.all_all {p : Input → Bool} : Input.all.all p = true ↔ ∀ i, p i = true := by
  rw [List.all_eq_true]
  refine ⟨fun h i => h i ?_, fun h i _ => h i⟩
  cases i <;> decide

theorem roleOfNumber_isSome (n : Nat) : (Role.ofNumber n).isSome = true ↔ n ≤ 5 := by
  constructor
  · intro h
    by_contra hn
    obtain ⟨m, rfl⟩ : ∃ m, n = m + 6 := ⟨n - 6, by omega⟩
    cases h
  · intro h
    interval_cases n <;> rfl

theorem entryOk_iff (i : Input) (e : MapEntryBody) : entryOk i e = true ↔
    e.role ≤ 5 ∧ 1 ≤ e.scale ∧ e.scale ≤ if i.isVoltage then 1000 else 3000 := by
  unfold entryOk
  rw [Bool.and_eq_true, decide_eq_true_iff, roleOfNumber_isSome]

/-- A role number of the list names the role of its entry. -/
theorem roleOfNumber_eq {e : MapEntryBody} (h : e.role ≤ 5) : Role.ofNumber e.role = some (entryRole e) := by
  unfold entryRole
  obtain ⟨r, hr⟩ := Option.isSome_iff_exists.mp ((roleOfNumber_isSome _).mpr h)
  rw [hr]
  rfl

theorem onlyRoles_iff (m : PerInput MapEntryBody) (is : List Input) (rs : List Role) : onlyRoles m is rs = true ↔
    ∀ i, i ∈ is → entryRole (m.get i) = .unused ∨ entryRole (m.get i) ∈ rs := by
  unfold onlyRoles
  simp only [List.all_eq_true, Bool.or_eq_true, decide_eq_true_iff, List.contains_iff_mem]

/-- Among three inputs that hold each line role once there is no other role. -/
theorem roles_of_three (a b c : Role) :
    (∀ r, r ∈ [Role.l1, .l2, .l3] → ([a, b, c].filter fun x => decide (x = r)).length = 1) →
      ∀ x, x ∈ [a, b, c] → x ∈ [Role.l1, .l2, .l3] := by
  cases a <;> cases b <;> cases c <;> decide

/-- Each line role once among the voltage inputs leaves them no other (R4). -/
theorem voltages_hold_lines {m : PerInput MapEntryBody}
    (h : ∀ r, r ∈ [Role.l1, .l2, .l3] → holders m [.v1, .v2, .v3] r = 1) :
    ∀ i, i ∈ [Input.v1, .v2, .v3] → entryRole (m.get i) ∈ [Role.l1, .l2, .l3] := by
  intro i hi
  refine roles_of_three (entryRole (m.get .v1)) (entryRole (m.get .v2)) (entryRole (m.get .v3)) (fun r hr => ?_) _
    (List.mem_map_of_mem (f := fun i => entryRole (m.get i)) hi)
  have hmap : [entryRole (m.get .v1), entryRole (m.get .v2), entryRole (m.get .v3)]
      = [Input.v1, .v2, .v3].map fun i => entryRole (m.get i) := rfl
  rw [← h r hr, hmap, List.filter_map, List.length_map]
  rfl

/-- The line roles of a wiring. -/
def lineRoles (w : Wiring) : List Role := if w = .single then [.l1] else [.l1, .l2, .l3]

/-- A map that is well formed for a wiring (R4). -/
def WellFormedMap (w : Wiring) (m : PerInput MapEntryBody) : Prop :=
  (∀ r, r ∈ lineRoles w → holders m [.v1, .v2, .v3] r = 1 ∧ holders m [.i1, .i2, .i3] r ≤ 1)
    ∧ (∀ i, i ∈ [Input.v1, .v2, .v3, .i1, .i2, .i3] →
        entryRole (m.get i) = .unused ∨ entryRole (m.get i) ∈ lineRoles w)
    ∧ (entryRole (m.get .v4) = .unused ∨ (w ≠ .delta ∧ entryRole (m.get .v4) = .ne))
    ∧ (entryRole (m.get .i4) = .unused ∨ (w ≠ .delta ∧ entryRole (m.get .i4) = .n))

theorem mapFits_iff (w : Wiring) (m : PerInput MapEntryBody) : mapFits w m = true ↔ WellFormedMap w m := by
  have six : ∀ P : Input → Prop, (∀ i, i ∈ [Input.v1, .v2, .v3, .i1, .i2, .i3] → P i) ↔
      (∀ i, i ∈ [Input.v1, .v2, .v3] → P i) ∧ ∀ i, i ∈ [Input.i1, .i2, .i3] → P i := by
    intro P
    rw [← List.forall_mem_append]
    rfl
  unfold mapFits WellFormedMap
  rw [six]
  cases w with
  | single =>
    simp only [Bool.and_eq_true, beq_iff_eq, decide_eq_true_iff, onlyRoles_iff, lineRoles, if_pos, List.mem_singleton,
      forall_eq, ne_eq, reduceCtorEq, not_false_eq_true, true_and]
    exact ⟨fun ⟨⟨⟨⟨⟨hv, ov⟩, o4⟩, hc⟩, oc⟩, on⟩ => ⟨⟨hv, hc⟩, ⟨ov, oc⟩, o4, on⟩,
      fun ⟨⟨hv, hc⟩, ⟨ov, oc⟩, o4, on⟩ => ⟨⟨⟨⟨⟨hv, ov⟩, o4⟩, hc⟩, oc⟩, on⟩⟩
  | wye =>
    simp only [Bool.and_eq_true, List.all_eq_true, beq_iff_eq, decide_eq_true_iff, onlyRoles_iff, lineRoles, reduceCtorEq,
      if_false, List.mem_singleton, forall_eq, ne_eq, not_false_eq_true, true_and]
    exact ⟨fun ⟨⟨⟨hr, o4⟩, oc⟩, on⟩ =>
        ⟨hr, ⟨fun i hi => Or.inr (voltages_hold_lines (fun r h => (hr r h).1) i hi), oc⟩, o4, on⟩,
      fun ⟨hr, ⟨_, oc⟩, o4, on⟩ => ⟨⟨⟨hr, o4⟩, oc⟩, on⟩⟩
  | delta =>
    simp only [Bool.and_eq_true, List.all_eq_true, beq_iff_eq, decide_eq_true_iff, onlyRoles_iff, lineRoles, reduceCtorEq,
      if_false, List.mem_singleton, forall_eq, ne_eq, not_true_eq_false, false_and, List.not_mem_nil, or_false]
    exact ⟨fun ⟨⟨⟨hr, o4⟩, oc⟩, on⟩ =>
        ⟨hr, ⟨fun i hi => Or.inr (voltages_hold_lines (fun r h => (hr r h).1) i hi), oc⟩, o4, on⟩,
      fun ⟨hr, ⟨_, oc⟩, o4, on⟩ => ⟨⟨⟨hr, o4⟩, oc⟩, on⟩⟩

/-- The map of a Set Map, from what it must be entry by entry (R11). -/
theorem newMap_eq {e : PerInput MapEntryBody} {x : Site} {m : ChannelMap}
    (h : ∀ i, (m.get i).scale = (e.get i).scale ∧ (m.get i).invert = (e.get i).invert
      ∧ Role.ofNumber (e.get i).role = some (m.get i).role ∧ (m.get i).verified = false
      ∧ (m.get i).presence = if x.state = .paused then (x.map.get i).presence else .unknown) : newMap e x = m := by
  refine PerInput.ext_get fun i => ?_
  obtain ⟨hs, hi, hr, hv, hp⟩ := h i
  unfold newMap newEntry entryRole
  rw [PerInput.get_of, hr, ← hs, ← hi, ← hp, ← hv]
  rfl

theorem takes_setMap {s u : State} {b : SetMapBody} {code : ResultCode} {area : List Byte}
    (h : s.setMap b = ⟨u, code, area⟩) : Takes (.setMap b) (.setMap b) s u code area :=
  takes_of_answer (g := (·.setMap b)) rfl h

section

variable {s : State} {b : SetMapBody} {k : Fin 8} {x : Site} (h : Holds s b.label k x)
  (he : ∀ i, entryOk i (b.entries.get i) = true)

include h he

theorem State.setMap_malformed (hm : mapFits x.wiring b.entries = false) : s.setMap b = refuse s .badValue := by
  obtain ⟨hl, hk, hs⟩ := h
  refine (State.judgeSite_pass _ hl (Input.all_all.mpr he) hk hs).trans (if_pos ?_)
  rw [hm]
  exact Bool.false_ne_true

theorem State.setMap_accepted (hm : mapFits x.wiring b.entries = true)
    (hx : x.state = .drafted ∨ x.state = .ready ∨ x.state = .paused) : s.setMap b =
      accept (((s.modSite k (·.setMap (newMap b.entries x))).liveMapChanges x (newMap b.entries x)).put x.label
        (.mapChanged (newMap b.entries x))) [] := by
  obtain ⟨hl, hk, hs⟩ := h
  refine (State.judgeSite_pass _ hl (Input.all_all.mpr he) hk hs).trans ((if_neg fun hn => hn hm).trans ?_)
  rcases hx with hx | hx | hx <;> rw [hx]

theorem State.setMap_wrongState (hm : mapFits x.wiring b.entries = true)
    (hx : x.state = .checking ∨ x.state = .surveying ∨ x.state = .closed) : s.setMap b = refuse s .wrongState := by
  obtain ⟨hl, hk, hs⟩ := h
  refine (State.judgeSite_pass _ hl (Input.all_all.mpr he) hk hs).trans ((if_neg fun hn => hn hm).trans ?_)
  rcases hx with hx | hx | hx <;> rw [hx]

end

/-- A site that is not live takes a map into its record alone (R11). -/
theorem Site.setMap_idle {x : Site} (m : ChannelMap) (h : x.state = .drafted ∨ x.state = .ready) :
    x.setMap m = { x with map := m, checkStatus := .never, unusable := none, state := .drafted } := by
  unfold Site.setMap
  rcases h with h | h <;> rw [h] <;> rfl

theorem Site.setMap_paused {x : Site} (m : ChannelMap) (h : x.state = .paused) :
    x.setMap m = { x with map := m, checkStatus := .never, unusable := none } := by
  unfold Site.setMap
  rw [if_neg (by rw [h]; decide)]

theorem State.liveMapChanges_idle {s : State} {x : Site} (m : ChannelMap) (h : x.state ≠ .paused) :
    s.liveMapChanges x m = s := if_neg h

theorem State.liveMapChanges_paused {s : State} {x : Site} (m : ChannelMap) (h : x.state = .paused) :
    s.liveMapChanges x m = ((s.noteMapChange x.map m).changeWatch m).rechoose m .mapChanged := if_pos h

/-- Settles O26: Set Map by the state of the site it finds, and what an entry and a map must be. -/
theorem setMapReplacesTheMap : Obligations.SetMapReplacesTheMap := by
  unfold Obligations.SetMapReplacesTheMap
  refine ⟨fun s b k x m h he hm hmap => ?sound, fun s b => ⟨fun h => takes_setMap ?badEntry, fun k x h hm =>
    takes_setMap ?malformed⟩, entryOk_iff, fun w m lines hr hlines => ?wellFormed⟩
  case sound =>
    obtain ⟨-, -, hs⟩ := id h
    have hn := newMap_eq hmap
    refine ⟨fun hx => takes_setMap ?idle, fun hx => takes_setMap ?paused,
      fun hx => takes_setMap (State.setMap_wrongState h he hm hx)⟩
    case idle =>
      rw [State.setMap_accepted h he hm (hx.imp_right Or.inl), hn, State.modSite_at _ hs, Site.setMap_idle m hx,
        State.liveMapChanges_idle m (by rcases hx with hx | hx <;> rw [hx] <;> decide)]
      rfl
    case paused =>
      rw [State.setMap_accepted h he hm (Or.inr (Or.inr hx)), hn, State.modSite_at _ hs, Site.setMap_paused m hx,
        State.liveMapChanges_paused m hx]
      rfl
  case badEntry =>
    obtain ⟨i, hi⟩ := h
    refine State.judgeSite_badValue _ (Or.inr ?_)
    rw [← Bool.not_eq_true, Input.all_all]
    exact fun hc => Bool.false_ne_true (hi.symm.trans (hc i))
  case malformed =>
    by_cases he : ∀ i, entryOk i (b.entries.get i) = true
    · exact State.setMap_malformed h he hm
    · refine State.judgeSite_badValue _ (Or.inr ?_)
      rw [← Bool.not_eq_true, Input.all_all]
      exact he
  case wellFormed =>
    have hrole : ∀ i, Role.ofNumber (m.get i).role = some (entryRole (m.get i)) := fun i => roleOfNumber_eq (hr i)
    have hlr : lineRoles w = lines := hlines.symm
    have hcount : ∀ is r, (is.filter fun i => Role.ofNumber (m.get i).role == some r).length = holders m is r := by
      intro is r
      unfold holders
      congr 2
      funext i
      rw [hrole]
      rfl
    rw [mapFits_iff]
    unfold WellFormedMap
    simp only [hcount]
    simp only [hrole, hlr, Option.some.injEq, forall_eq']
    exact and_congr Iff.rfl (and_congr ⟨fun h i r hi e => e ▸ h i hi, fun h i hi => h i _ hi rfl⟩ Iff.rfl)

end Sys2Proof.Machine

/-! # Surveys begin, pause, resume and hand on their records (R12 to R14, R16, R75, R9)

What no entry and no admission changes of a site record, the hand-on of the records that wait for nothing more,
and the statements about Start, Pause, Resume and Discard and about the refusals that the site orders share. -/

namespace Sys2Proof.Machine

/-! ## What no entry and no admission changes of a site record -/

/-- A site record without its counters, its journal state and its pins. -/
def Site.bare (x : Site) : Site :=
  { x with counters := ⟨0, 0, 0, 0, 0, 0, 0, 0⟩, journal := JournalState.fresh, pins := 0 }

/-- Every slot holds the same record but for counters, journal state and pins. -/
def SameRecords (s t : State) : Prop := ∀ k : Fin 8, (t.site k).map Site.bare = (s.site k).map Site.bare

theorem SameRecords.refl (s : State) : SameRecords s s := fun _ => rfl

theorem SameRecords.trans {s t u : State} (a : SameRecords s t) (b : SameRecords t u) : SameRecords s u :=
  fun k => (b k).trans (a k)

theorem SameRecords.of {s t : State} (h : t.sites = s.sites) : SameRecords s t := fun k => by
  rw [State.site, State.site, h]

theorem SameRecords.ite {s a b : State} {c : Prop} [Decidable c] (ha : SameRecords s a) (hb : SameRecords s b) :
    SameRecords s (if c then a else b) := by split <;> assumption

/-- A part of the record that the counters, the journal state and the pins do not touch. -/
theorem SameRecords.field {α : Type} {s t : State} (g : Site → α) (hg : ∀ x, g x.bare = g x) (h : SameRecords s t)
    (k : Fin 8) : (t.site k).map g = (s.site k).map g := by
  have hk := congrArg (Option.map g) (h k)
  rw [Option.map_map, Option.map_map] at hk
  simpa only [Function.comp_def, hg] using hk

theorem SameRecords.findSlot {s t : State} (h : SameRecords s t) (n : Nat) : t.findSlot n = s.findSlot n :=
  State.findSlot_congr (h.field Site.label fun _ => rfl) n

theorem SameRecords.siteOf {α : Type} {s t : State} (g : Site → α) (hg : ∀ x, g x.bare = g x) (h : SameRecords s t)
    (n : Nat) : (t.siteOf n).map g = (s.siteOf n).map g := by
  unfold State.siteOf
  rw [h.findSlot]
  cases s.findSlot n with
  | none => rfl
  | some k => exact h.field g hg k

theorem State.modSite_records (s : State) (k : Fin 8) {f : Site → Site} (h : ∀ x, (f x).bare = x.bare) :
    SameRecords s (s.modSite k f) := by
  intro j
  rw [State.site_modSite]
  split
  · cases s.site j <;> simp [h]
  · rfl

theorem State.modLabel_records (s : State) (n : Nat) {f : Site → Site} (h : ∀ x, (f x).bare = x.bare) :
    SameRecords s (s.modLabel n f) := by
  unfold State.modLabel
  split
  · exact State.modSite_records s _ h
  · exact SameRecords.refl s

theorem State.setJournal_records (s : State) (n : Nat) (j : JournalState) : SameRecords s (s.setJournal n j) := by
  unfold State.setJournal
  exact SameRecords.ite (SameRecords.of rfl) (State.modLabel_records s n fun _ => rfl)

theorem State.countEntry_records (s : State) (n : Nat) : SameRecords s (s.countEntry n) := by
  unfold State.countEntry
  exact SameRecords.ite (SameRecords.refl s) (State.modLabel_records s n fun _ => rfl)

theorem State.countLostEntry_records (s : State) (n : Nat) : SameRecords s (s.countLostEntry n) := by
  unfold State.countLostEntry
  exact SameRecords.ite (SameRecords.of rfl) (State.modLabel_records s n fun _ => rfl)

theorem State.addRecords_records (s : State) (st : Stream) (rs : List Record) : SameRecords s (s.addRecords st rs) :=
  SameRecords.of (State.addRecords_sites s st rs)

theorem State.enter_records (s : State) (r : EntryRequest) : SameRecords s (s.enter r).1 := by
  unfold State.enter
  split
  · exact SameRecords.refl s
  · split
    · exact ((State.setJournal_records s _ _).trans (State.addRecords_records _ _ _)).trans
        (State.countEntry_records _ _)
    · exact ((State.setJournal_records s _ _).trans (State.countLostEntry_records _ _)).trans (SameRecords.of rfl)

theorem State.putAnchored_records (s : State) (n : Nat) (a : Anchor) (b : EntryBody) :
    SameRecords s (s.putAnchored n a b) := State.enter_records s _

theorem State.put_records (s : State) (n : Nat) (b : EntryBody) : SameRecords s (s.put n b) :=
  State.enter_records s _

theorem Site.countLostRecord_bare (st : Stream) (x : Site) : (x.countLostRecord st).bare = x.bare := by
  cases st <;> rfl

theorem State.countLost_records (s : State) (st : Stream) (n : Nat) : SameRecords s (s.countLost st n) :=
  SameRecords.of rfl

theorem State.discardCapture_records (s : State) (c : CapturePiece × Queued) (st : Stream) (n : Nat) :
    SameRecords s (s.discardCapture c st n) := by
  rw [State.discardCapture_eq]
  refine SameRecords.trans ?_ (State.putAnchored_records _ _ _ _)
  refine SameRecords.trans ?_ (State.modLabel_records _ _ (Site.countLostRecord_bare _))
  exact SameRecords.of rfl

theorem State.makeRoom_records (fuel : Nat) (s : State) (st : Stream) (site length : Nat) :
    SameRecords s (State.makeRoom fuel s st site length) := by
  induction fuel generalizing s with
  | zero => exact SameRecords.refl s
  | succ n ih =>
    unfold State.makeRoom
    refine SameRecords.ite (SameRecords.refl s) ?_
    split
    · exact SameRecords.refl s
    · exact (State.discardCapture_records s _ st site).trans (ih _)

/-- The admission of a record leaves the records of the sites alone but for their counters (R119). -/
theorem State.admitRecord_records (s : State) (st : Stream) (r : Record) : SameRecords s (s.admitRecord st r).1 := by
  unfold State.admitRecord
  dsimp only
  split
  · exact (State.makeRoom_records _ s _ _ _).trans (State.addRecords_records _ _ _)
  · exact ((State.makeRoom_records _ s _ _ _).trans (State.countLost_records _ _ _)).trans
      (State.modLabel_records _ _ (Site.countLostRecord_bare _))

theorem State.modLabels_records {f : Site → Site} (h : ∀ x, (f x).bare = x.bare) (ns : List Nat) (s : State) :
    SameRecords s (ns.foldl (fun t n => t.modLabel n f) s) := by
  induction ns generalizing s with
  | nil => exact SameRecords.refl s
  | cons n ns ih => exact (State.modLabel_records s n h).trans (ih _)

theorem State.createJob_records (s : State) (o : JobOwner) (c : Nat) (is : List Item) (ns : List Nat)
    (ps : List Page) (e : Nat) : SameRecords s (s.createJob o c is ns ps e) :=
  (State.modLabels_records (f := Site.takePin) (fun _ => rfl) ns s).trans (SameRecords.of rfl)

theorem State.skipSlip_records (s : State) (x : Site) (r : EventRecord) : SameRecords s (s.skipSlip x r) :=
  (State.modLabel_records s r.site (f := Site.countSlip) fun _ => rfl).trans (State.putAnchored_records _ _ _ _)

theorem State.requestSlip_records {s t : State} {n : Nat} {r : EventRecord} (h : s.requestSlip n r = some t) :
    SameRecords s t := by
  unfold State.requestSlip at h
  split at h
  · cases h
    exact State.createJob_records _ _ _ _ _ _ _
  · cases h

theorem State.testSlip_records (s : State) (r : EventRecord) : SameRecords s (s.testSlip r) := by
  unfold State.testSlip
  split
  · exact SameRecords.refl s
  · refine SameRecords.ite ?_ (SameRecords.refl s)
    split
    · next h => exact State.requestSlip_records h
    · exact State.skipSlip_records _ _ _

/-! ## The records that wait for nothing more (R75) -/

theorem State.readyRecord_eq_some {s : State} {n : Nat} {r : EventRecord} : s.readyRecord n = some r ↔
    ∃ x, s.siteOf n = some x ∧ x.sag.admission.head? = some r ∧ (r.onset.final && r.recovery.final) = true := by
  unfold State.readyRecord
  rw [Option.filter_eq_some_iff, Option.bind_eq_some_iff]
  exact ⟨fun ⟨⟨x, hx, hr⟩, hf⟩ => ⟨x, hx, hr, hf⟩, fun ⟨x, hx, hr, hf⟩ => ⟨⟨x, hx, hr⟩, hf⟩⟩

/-- The list of a site's waiting records. -/
def State.admissionOf (s : State) (n : Nat) : Option (List EventRecord) := (s.siteOf n).map (·.sag.admission)

theorem SameRecords.admissionOf {s t : State} (h : SameRecords s t) (n : Nat) : t.admissionOf n = s.admissionOf n :=
  h.siteOf (·.sag.admission) (fun _ => rfl) n

/-- A change of a site's waiting records, seen by the labels. -/
theorem State.admissionOf_modLabel (s : State) (n : Nat) {f : Site → Site} {g : List EventRecord → List EventRecord}
    (hl : ∀ x, (f x).label = x.label) (hf : ∀ x, (f x).sag.admission = g x.sag.admission) :
    (s.modLabel n f).admissionOf n = (s.admissionOf n).map g := by
  unfold State.admissionOf
  rw [State.siteOf_modLabel s n n hl, if_pos rfl]
  cases s.siteOf n with
  | none => rfl
  | some x => exact congrArg some (hf x)

/-- A record that is handed on leaves the head of its site's list (R75). -/
theorem State.admissionOf_handOn (s : State) (r : EventRecord) :
    (s.handOn r).admissionOf r.site = (s.admissionOf r.site).map (·.drop 1) := by
  have hpop : (s.modLabel r.site Site.popAdmission).admissionOf r.site = (s.admissionOf r.site).map (·.drop 1) :=
    State.admissionOf_modLabel s _ (fun _ => rfl) fun _ => rfl
  have hadmit : ∀ t : State, (t.modLabel r.site (·.admitEvent r)).admissionOf r.site = t.admissionOf r.site := fun t =>
    (State.admissionOf_modLabel t _ (f := (·.admitEvent r)) (g := id) (fun _ => rfl) fun _ => rfl).trans
      (by rw [Option.map_id]; rfl)
  have ha := (State.admitRecord_records (s.modLabel r.site Site.popAdmission) .events (.event r)).admissionOf r.site
  unfold State.handOn
  dsimp only
  split
  · rw [(State.testSlip_records _ r).admissionOf, hadmit, ha, hpop]
  · rw [ha, hpop]

theorem State.handOnAll_none {s : State} {n : Nat} (h : s.readyRecord n = none) (fuel : Nat) :
    State.handOnAll fuel s n = s := by
  cases fuel with
  | zero => rfl
  | succ fuel =>
    unfold State.handOnAll
    rw [h]

theorem State.handOnAll_some {s : State} {n : Nat} {r : EventRecord} (h : s.readyRecord n = some r) (fuel : Nat) :
    State.handOnAll (fuel + 1) s n = State.handOnAll fuel (s.handOn r) n := by
  rw [State.handOnAll, h]

theorem State.handOnWaiting_eq (s : State) (n : Nat) :
    s.handOnWaiting n = State.handOnAll (((s.admissionOf n).map List.length).getD 0) s n := by
  unfold State.handOnWaiting State.admissionOf
  rw [Option.map_map]
  rfl

/-- The hand-on takes the head of the list and goes on with the rest (R75). -/
theorem State.handOnWaiting_some {s : State} {n : Nat} {r : EventRecord} (h : s.readyRecord n = some r)
    (hr : r.site = n) : s.handOnWaiting n = (s.handOn r).handOnWaiting n := by
  subst hr
  obtain ⟨x, hx, hhead, -⟩ := State.readyRecord_eq_some.mp h
  obtain ⟨rest, hl⟩ := List.head?_eq_some_iff.mp hhead
  have ha : s.admissionOf r.site = some (r :: rest) := by
    unfold State.admissionOf
    rw [hx, Option.map_some, hl]
  rw [State.handOnWaiting_eq, State.handOnWaiting_eq, State.admissionOf_handOn, ha]
  exact State.handOnAll_some h _

/-! ## Start Survey (R12) -/

section

variable {s : State} {label : Nat} {k : Fin 8} {x : Site} (h : Holds s label k x)

theorem State.otherLive_of_none {s : State} (hl : s.liveSlot = none) (k : Fin 8) : s.otherLive k = false := by
  unfold State.otherLive
  rw [hl]

theorem State.otherLive_of_other {s : State} {j k : Fin 8} (hl : s.liveSlot = some j) (hj : j ≠ k) :
    s.otherLive k = true := by
  unfold State.otherLive
  rw [hl]
  exact decide_eq_true hj

theorem startable_iff (st : SiteState) (u : Bool) : startable st u = true ↔ st = .ready ∨ (st = .drafted ∧ u = true) := by
  cases st <;> simp [startable]

/-- The state of Start Survey before its entry (steps 1 to 5 of R12). -/
def State.surveyStarted (s : State) (k : Fin 8) (x : Site) : State :=
  { s.setSlot k (some (x.start s.clock)) with
    fe := FrontEnd.begin x.map s.now, watch := freshWatch x.map
    sag := { s.sag with detectors := buildDetectors x.map, lostAhead := PerInput.same none }
    interval := some (Interval.opened k (x.start s.clock) s.clock) }

theorem State.site_setSlot_same (s : State) (k : Fin 8) (x : Option Site) : (s.setSlot k x).site k = x := by
  rw [State.site_setSlot, if_pos rfl]

theorem State.openInterval_at {s : State} {k : Fin 8} {x : Site} (hx : s.site k = some x) (t : Time) :
    s.openInterval k t = { s with interval := some (Interval.opened k x t) } := by
  unfold State.openInterval
  rw [hx]

theorem State.beginSurvey_eq (hx : s.site k = some x) (l : PerClamp Nat) : s.beginSurvey k x l =
    ((s.surveyStarted k x).put x.label (.started x.version (decide (x.state = .drafted)))).firstPulse x l := by
  unfold State.beginSurvey
  dsimp only
  rw [State.modSite_at _ hx]
  let y := x.start s.clock
  let t := (((s.setSlot k (some y)).startFrontEnd x.map).startWatch x.map).startDetectors x.map
  exact congrArg (fun t : State => (t.put x.label _).firstPulse x l)
    (State.openInterval_at (s := t) (State.site_setSlot_same s k (some y)) s.clock)

theorem takes_startSurvey {u : Bool} {l : PerClamp Nat} {t : State} {code : ResultCode} {area : List Byte}
    (h : s.startSurvey label u l = ⟨t, code, area⟩) :
    Takes (.startSurvey label u l) (.startSurvey label u) s t code area :=
  takes_of_answer (g := (·.startSurvey label u l)) rfl h

include h

/-- Start Survey once its site is found (R12). -/
theorem State.startSurvey_holds (u : Bool) (l : PerClamp Nat) : s.startSurvey label u l =
    if ¬ startable x.state u then refuse s .wrongState
    else if s.otherLive k then refuse s .siteLive else accept (s.beginSurvey k x l) [] := by
  obtain ⟨hl, hk, hx⟩ := h
  exact State.judgeSite_pass _ hl rfl hk hx

end

/-- Settles O28: Start Survey by the state of the site and by another live site. -/
theorem startSurveyBeginsTheSurvey : Obligations.StartSurveyBeginsTheSurvey := by
  unfold Obligations.StartSurveyBeginsTheSurvey
  refine ⟨fun s label u l k x h hl hx => ⟨s.surveyStarted k x, _, rfl, rfl, takes_startSurvey ?starts⟩,
    fun s label u l k x h => ⟨fun hr hd => takes_startSurvey ?wrong, fun j hx hl hj => takes_startSurvey ?live⟩⟩
  case starts =>
    rw [State.startSurvey_holds h, if_neg (not_not.mpr ((startable_iff _ _).mpr hx)), State.otherLive_of_none hl,
      State.beginSurvey_eq h.2.2]
    rfl
  case wrong =>
    rw [State.startSurvey_holds h, if_pos ?_]
    · rfl
    · rw [startable_iff]
      exact fun hs => hs.elim hr hd
  case live =>
    rw [State.startSurvey_holds h, if_neg (not_not.mpr ((startable_iff _ _).mpr hx)), State.otherLive_of_other hl hj]
    rfl

/-! ## Pause and Resume (R13, R14) -/

theorem Detector.hold_eq (d : Detector) : d.hold = if d = .absent then .absent else .settling 0 false := by
  cases d <;> rfl

section

variable {s : State} {label : Nat} {k : Fin 8} {x : Site} (h : Holds s label k x)

theorem takes_pauseSurvey {t : State} {code : ResultCode} {area : List Byte}
    (h : s.pauseSurvey label = ⟨t, code, area⟩) : Takes (.pauseSurvey label) (.pauseSurvey label) s t code area :=
  takes_of_answer (g := (·.pauseSurvey label)) rfl h

theorem takes_resumeSurvey {t : State} {code : ResultCode} {area : List Byte}
    (h : s.resumeSurvey label = ⟨t, code, area⟩) : Takes (.resumeSurvey label) (.resumeSurvey label) s t code area :=
  takes_of_answer (g := (·.resumeSurvey label)) rfl h

include h

theorem State.pauseSurvey_holds : s.pauseSurvey label =
    if x.state ≠ .surveying then refuse s .wrongState else accept (s.pause k x.label none) [] := by
  obtain ⟨hl, hk, hx⟩ := h
  exact State.judgeSite_pass _ hl rfl hk hx

theorem State.resumeSurvey_holds : s.resumeSurvey label =
    if x.state ≠ .paused then refuse s .wrongState else accept (s.resume k x) [] := by
  obtain ⟨hl, hk, hx⟩ := h
  exact State.judgeSite_pass _ hl rfl hk hx

end

/-- Settles O29: Pause and Resume on a found site, and the hand-on of a site's records one by one. -/
theorem pauseAndResumeMoveTheSurvey : Obligations.PauseAndResumeMoveTheSurvey := by
  unfold Obligations.PauseAndResumeMoveTheSurvey
  refine ⟨fun s label k x h => ⟨fun hx => ⟨_, _, _, rfl, rfl, rfl, takes_pauseSurvey ?pauses⟩,
      fun hx => takes_pauseSurvey ((State.pauseSurvey_holds h).trans (if_pos hx))⟩,
    fun s label k x h => ⟨fun hx => ?resumes,
      fun hx => takes_resumeSurvey ((State.resumeSurvey_holds h).trans (if_pos hx))⟩,
    fun s label => ⟨fun hn => State.handOnAll_none hn _, fun r hr hs => State.handOnWaiting_some hr hs⟩⟩
  case pauses =>
    rw [State.pauseSurvey_holds h, if_neg (not_not.mpr hx), ← funext Detector.hold_eq]
    unfold State.pause
    rw [State.modSite_at _ h.2.2]
    rfl
  case resumes =>
    let s1 := ((s.setSlot k (some { x with state := .surveying })).put x.label .resumed).applyPending k
    refine ⟨s1, s1.startDetectors x.map, rfl, fun i => PerInput.get_of _ i, rfl, rfl, takes_resumeSurvey ?_⟩
    rw [State.resumeSurvey_holds h, if_neg (not_not.mpr hx)]
    unfold State.resume
    rw [State.modSite_at _ h.2.2]
    rfl

/-! ## Discard Site (R16) -/

theorem RecordStore.holdsSite_iff (r : RecordStore) (n : Nat) :
    r.holdsSite n = true ↔ ∃ st q, q ∈ r.queues.get st ∧ q.site = n := by
  unfold RecordStore.holdsSite
  simp only [List.any_eq_true, beq_iff_eq]
  refine exists_congr fun st => ⟨fun h => h.2, fun h => ⟨?_, h⟩⟩
  cases st <;> decide

section

variable {s : State} {label : Nat} {k : Fin 8} {x : Site} (h : Holds s label k x)

theorem takes_discardSite {t : State} {code : ResultCode} {area : List Byte}
    (h : s.discardSite label = ⟨t, code, area⟩) : Takes (.discardSite label) (.discardSite label) s t code area :=
  takes_of_answer (g := (·.discardSite label)) rfl h

include h

theorem State.discardSite_holds : s.discardSite label =
    if x.state ≠ .drafted ∧ x.state ≠ .closed then refuse s .wrongState
    else if x.pins ≠ 0 then refuse s .siteInUse
    else if s.store.holdsSite label then refuse s .recordsPending else accept (s.setSlot k none) [] := by
  obtain ⟨hl, hk, hx⟩ := h
  exact State.judgeSite_pass _ hl rfl hk hx

end

/-- Settles O31: Discard by the state of the site, its pins and its held records. -/
theorem discardSiteEmptiesTheSlot : Obligations.DiscardSiteEmptiesTheSlot := by
  unfold Obligations.DiscardSiteEmptiesTheSlot
  intro s label k x h
  have hidle (hx : x.state = .drafted ∨ x.state = .closed) : ¬ (x.state ≠ .drafted ∧ x.state ≠ .closed) :=
    fun hn => hx.elim hn.1 hn.2
  refine ⟨fun hx hp hq => takes_discardSite ?empties, fun h1 h2 => takes_discardSite ?wrongState,
    fun hx hp => takes_discardSite ?inUse, fun st q hx hp hq hs => takes_discardSite ?pending⟩
  case empties =>
    rw [State.discardSite_holds h, if_neg (hidle hx), if_neg (not_not.mpr hp), if_neg ?_]
    · rfl
    · rw [RecordStore.holdsSite_iff]
      rintro ⟨st, q, hmem, hs⟩
      exact hq st q hmem hs
  case wrongState =>
    rw [State.discardSite_holds h, if_pos ⟨h1, h2⟩]
    rfl
  case inUse =>
    rw [State.discardSite_holds h, if_neg (hidle hx), if_pos hp]
    rfl
  case pending =>
    rw [State.discardSite_holds h, if_neg (hidle hx), if_neg (not_not.mpr hp),
      if_pos ((RecordStore.holdsSite_iff _ _).mpr ⟨st, q, hq, hs⟩)]
    rfl

/-! ## The common refusals (R9) -/

/-- A command that judges its site first, with no other field to range. -/
def JudgesSite (c : Instr) (o : Order) (label : Nat) : Prop :=
  ∃ f : State → Fin 8 → Site → Answer, ∀ s, exec c s = s.answer o fun t => t.judgeSite label true (f t)

theorem JudgesSite.refusals {c : Instr} {o : Order} {label : Nat} (h : JudgesSite c o label) (s : State) :
    (label = 0 ∨ 65535 < label → Takes c o s s .badValue [])
    ∧ (1 ≤ label → label ≤ 65535 → (∀ k x, s.site k = some x → x.label ≠ label) → Takes c o s s .unknownSite []) := by
  obtain ⟨f, hf⟩ := h
  exact ⟨fun hout => takes_of_answer (hf s) (State.judgeSite_badValue _ (Or.inl (labelOk_of_out hout))),
    fun h1 h2 hk => takes_of_answer (hf s) (State.judgeSite_unknownSite _ ((labelOk_iff _).mpr ⟨h1, h2⟩) rfl hk)⟩

theorem takes_readSite {s t : State} {label r : Nat} {code : ResultCode} {area : List Byte}
    (h : s.readSite label r = ⟨t, code, area⟩) : Takes (.readSite label r) (.readSite label r) s t code area :=
  takes_of_answer (g := (·.readSite label r)) rfl h

/-- Read Site of a label other than 0 judges its site like the other site orders (R17). -/
theorem State.readSite_site {s : State} {label : Nat} (h : label ≠ 0) (r : Nat) : s.readSite label r =
    s.judgeSite label true fun k x => if r < 192 then refuse s .badOrder else accept s (s.siteSummary k x) :=
  if_neg h

/-- Settles O33: eight orders share one judgement; Set Map, Set Limits and Read Site add their own fields to it. -/
theorem siteOrdersMeetTheCommonRefusals : Obligations.SiteOrdersMeetTheCommonRefusals := by
  unfold Obligations.SiteOrdersMeetTheCommonRefusals
  refine ⟨fun s label l u c o hco => ?eight, fun s b => ⟨fun h => takes_setMap ?mapBad, fun h1 h2 he hk => takes_setMap ?mapUnknown⟩,
    fun s b => ⟨fun h => takes_setLimits ?limitsBad, fun h1 h2 hv hk => takes_setLimits ?limitsUnknown⟩,
    fun s label r => ⟨fun h => takes_readSite ?readBad, fun h1 h2 hk => takes_readSite ?readUnknown⟩⟩
  case eight =>
    refine JudgesSite.refusals ?_ s
    simp only [List.mem_cons, Prod.mk.injEq, List.not_mem_nil, or_false] at hco
    rcases hco with ⟨rfl, rfl⟩ | ⟨rfl, rfl⟩ | ⟨rfl, rfl⟩ | ⟨rfl, rfl⟩ | ⟨rfl, rfl⟩ | ⟨rfl, rfl⟩ | ⟨rfl, rfl⟩
      | ⟨rfl, rfl⟩ <;> exact ⟨_, fun _ => rfl⟩
  case mapBad => exact State.judgeSite_badValue _ (Or.inl (labelOk_of_out h))
  case mapUnknown =>
    exact State.judgeSite_unknownSite _ ((labelOk_iff _).mpr ⟨h1, h2⟩) (Input.all_all.mpr he) hk
  case limitsBad => exact State.judgeSite_badValue _ (Or.inl (labelOk_of_out h))
  case limitsUnknown => exact State.judgeSite_unknownSite _ ((labelOk_iff _).mpr ⟨h1, h2⟩) hv hk
  case readBad =>
    rw [State.readSite_site (by omega)]
    exact State.judgeSite_badValue _ (Or.inl (labelOk_of_out (Or.inr h)))
  case readUnknown =>
    rw [State.readSite_site (by omega)]
    exact State.judgeSite_unknownSite _ ((labelOk_iff _).mpr ⟨h1, h2⟩) rfl hk

end Sys2Proof.Machine

/-! # Checks begin and end early, snapshots and notes (R39, R40, R43, R47, R50, R76, R80, R110, R111)

Start Check and Cancel Check on a found site, the blocks that break a run, the claim of a tracker by a snapshot,
and a note's judgement with its anchor. -/

namespace Sys2Proof.Machine

/-! ## Start Check (R39) -/

section

variable {s : State} {label : Nat} {k : Fin 8} {x : Site} (h : Holds s label k x)

theorem takes_startCheck {l : PerClamp Nat} {t : State} {code : ResultCode} {area : List Byte}
    (h : s.startCheck label l = ⟨t, code, area⟩) : Takes (.startCheck label l) (.startCheck label) s t code area :=
  takes_of_answer (g := (·.startCheck label l)) rfl h

/-- A state that Start Check refuses (R39). -/
def SiteState.barsCheck (st : SiteState) : Prop := st = .checking ∨ st = .surveying ∨ st = .closed

include h

theorem State.startCheck_wrongState (hx : x.state.barsCheck) (l : PerClamp Nat) :
    s.startCheck label l = refuse s .wrongState := by
  obtain ⟨hl, hk, hs⟩ := h
  rw [show s.startCheck label l = _ from State.judgeSite_pass _ hl rfl hk hs]
  rcases hx with hx | hx | hx <;> rw [hx]

theorem State.startCheck_idle (hx : x.state = .drafted ∨ x.state = .ready ∨ x.state = .paused) (l : PerClamp Nat) :
    s.startCheck label l = if s.otherLive k then refuse s .siteLive else accept (s.beginCheck k x l) [] := by
  obtain ⟨hl, hk, hs⟩ := h
  rw [show s.startCheck label l = _ from State.judgeSite_pass _ hl rfl hk hs]
  rcases hx with hx | hx | hx <;> rw [hx]

end

/-- The check record and its Check Started entry, from the state that the pulse leaves (steps 4 and 5 of R39). -/
def State.withFreshCheck (s : State) (k : Fin 8) (x : Site) (ret : ReturnState) (l : PerClamp Nat) (now : Stamp) :
    State :=
  { s with check := some (CheckRecord.fresh k x.map s.fe.sense l now) }.put x.label
    (.checkStarted ret x.wiring x.options x.version)

theorem State.beginCheck_of_not_paused {s : State} {k : Fin 8} {x : Site} (hx : s.site k = some x)
    (hp : x.state ≠ .paused) (l : PerClamp Nat) : s.beginCheck k x l =
      State.withFreshCheck ({ s.setSlot k (some { x with state := .checking, returnState := some .drafted }) with
        fe := (FrontEnd.begin x.map s.now).pulse x.map l, watch := freshWatch x.map }.watchPulse x l)
        k x .drafted l s.now := by
  have hr : returnFor x.state = .drafted := if_neg hp
  unfold State.beginCheck State.checkStarts State.checkPulse
  dsimp only
  rw [if_neg hp, if_neg hp, hr, State.modSite_at _ hx]
  rfl

theorem State.beginCheck_of_paused {s : State} {k : Fin 8} {x : Site} (hx : s.site k = some x)
    (hp : x.state = .paused) (l : PerClamp Nat) : s.beginCheck k x l =
      State.withFreshCheck { s.setSlot k (some { x with state := .checking, returnState := some .paused }) with
        fe := s.fe.pulse x.map l } k x .paused l s.now := by
  have hr : returnFor x.state = .paused := if_pos hp
  unfold State.beginCheck State.checkStarts State.checkPulse
  dsimp only
  rw [if_pos hp, if_pos hp, hr, State.modSite_at _ hx]
  rfl

theorem State.otherLive_of_self {s : State} {k : Fin 8} (hl : s.liveSlot = some k) : s.otherLive k = false := by
  unfold State.otherLive
  rw [hl]
  exact decide_eq_false fun hne => hne rfl

/-- Settles O34: Start Check by the state of the site and by another live site. -/
theorem startCheckBeginsTheCheck : Obligations.StartCheckBeginsTheCheck := by
  unfold Obligations.StartCheckBeginsTheCheck
  intro s label l k x h
  refine ⟨fun hx hl => ⟨_, rfl, takes_startCheck ?fresh⟩, fun hx hl => ⟨_, rfl, takes_startCheck ?again⟩,
    fun hx => takes_startCheck (State.startCheck_wrongState h hx l),
    fun j hx hl hj => takes_startCheck ((State.startCheck_idle h hx l).trans
      (if_pos (State.otherLive_of_other hl hj)))⟩
  case fresh =>
    have hp : x.state ≠ .paused := by rcases hx with hx | hx <;> rw [hx] <;> decide
    rw [State.startCheck_idle h (by rw [← or_assoc]; exact Or.inl hx), State.otherLive_of_none hl,
      State.beginCheck_of_not_paused h.2.2 hp]
    rfl
  case again =>
    rw [State.startCheck_idle h (Or.inr (Or.inr hx)), State.otherLive_of_self hl,
      State.beginCheck_of_paused h.2.2 hx]
    rfl

/-! ## Cancel Check and the other early ends (R40, R43, R47) -/

theorem takes_cancelCheck {s t : State} {label : Nat} {code : ResultCode} {area : List Byte}
    (h : s.cancelCheck label = ⟨t, code, area⟩) : Takes (.cancelCheck label) (.cancelCheck label) s t code area :=
  takes_of_answer (g := (·.cancelCheck label)) rfl h

theorem State.cancelCheck_checking {s : State} {label : Nat} {k : Fin 8} {y : Site} {c : CheckRecord}
    (h : Holds s label k y) (hy : y.state = .checking) (hc : s.check = some c) :
    s.cancelCheck label = accept (s.breakCheck c .cancelled) [] := by
  obtain ⟨hl, hk, hs⟩ := h
  rw [show s.cancelCheck label = _ from State.judgeSite_pass _ hl rfl hk hs]
  rw [hy, hc]

theorem State.cancelCheck_wrongState {s : State} {label : Nat} {k : Fin 8} {y : Site}
    (h : Holds s label k y) (hy : y.state ≠ .checking) : s.cancelCheck label = refuse s .wrongState := by
  obtain ⟨hl, hk, hs⟩ := h
  rw [show s.cancelCheck label = _ from State.judgeSite_pass _ hl rfl hk hs]
  split
  · next hst _ => exact absurd hst hy
  · rfl

theorem exec_lockWaitExpiry {s : State} {c : CheckRecord} (hc : s.check = some c) (hd : c.lockWaitDue = true) :
    exec .lockWaitExpiry s = .next (s.breakCheck c (.unusable .noReference)) := by
  change execLockWaitExpiry s = _
  unfold execLockWaitExpiry
  rw [hc]
  exact if_pos hd

theorem exec_leadsMoved {s : State} {c : CheckRecord} (hc : s.check = some c) (hm : c.leadsMoved = true) :
    exec .leadsMoved s = .next (s.breakCheck c (.unusable .leadsMoved)) := by
  change execLeadsMoved s = _
  unfold execLeadsMoved
  rw [hc]
  exact if_pos hm

theorem CheckRecord.leadsMoved_iff (c : CheckRecord) : c.leadsMoved = true ↔ c.phase ≠ .presence
    ∧ (10 ≤ c.inputs.v1.moved ∨ 10 ≤ c.inputs.v2.moved ∨ 10 ≤ c.inputs.v3.moved ∨ 10 ≤ c.inputs.v4.moved) := by
  simp only [CheckRecord.leadsMoved, Input.voltages, Bool.and_eq_true, decide_eq_true_eq, List.any_cons, List.any_nil,
    Bool.or_false, Bool.or_eq_true]
  rfl

/-! ## Blocks that do not count (R43) -/

theorem isLVoltage_isVoltage {m : ChannelMap} {i : Input} (h : isLVoltage m i = true) : i.isVoltage = true :=
  (Bool.and_eq_true_iff.mp h).1

theorem Input.mem_voltages (i : Input) : i ∈ Input.voltages ↔ i.isVoltage = true := by cases i <;> decide

theorem mem_lVoltages (m : ChannelMap) (i : Input) : i ∈ lVoltages m ↔ isLVoltage m i = true := by
  unfold lVoltages
  rw [List.mem_filter, Input.mem_voltages]
  exact and_iff_right_of_imp isLVoltage_isVoltage

theorem anglesComplete_iff (m : ChannelMap) (b : BlockResult) :
    anglesComplete m b = true ↔ ∀ i, isLVoltage m i = true → (b.angle i).isSome = true := by
  unfold anglesComplete
  rw [List.all_eq_true]
  exact forall_congr' fun i => imp_congr_left (mem_lVoltages m i)

theorem anglesComplete_of_none {m : ChannelMap} {b : BlockResult} {i : Input} (hi : isLVoltage m i = true)
    (ha : b.angle i = none) : anglesComplete m b = false := by
  rw [← Bool.not_eq_true, anglesComplete_iff]
  intro h
  have hs := h i hi
  rw [ha] at hs
  exact Bool.false_ne_true hs

theorem BlockResult.fullyLocked_iff (b : BlockResult) : b.fullyLocked = true ↔ b.lockedCycles = b.cycles := beq_iff_eq

theorem CheckRecord.takeBlock_early {c : CheckRecord} {began : Stamp} (h : began.up < c.phaseStart.up) (x : Site)
    (b : BlockResult) (fin : Stamp) : c.takeBlock x b began fin = c := if_neg (Nat.not_le.mpr h)

theorem CheckRecord.takeBlock_counts {c : CheckRecord} {began : Stamp} (h : c.phaseStart.up ≤ began.up) (x : Site)
    (b : BlockResult) (fin : Stamp) : c.takeBlock x b began fin = c.takeCounted x b fin := if_pos h

theorem CheckRecord.takeCounted_complete {c : CheckRecord} (h : 5 ≤ c.run) (x : Site) (b : BlockResult)
    (fin : Stamp) : c.takeCounted x b fin = c := if_pos h

theorem CheckRecord.takeCounted_presence {c : CheckRecord} (h : c.phase = .presence) (x : Site) (b : BlockResult)
    (fin : Stamp) : c.takeCounted x b fin = c := by
  unfold CheckRecord.takeCounted
  rw [h, ite_self]

theorem CheckRecord.takeCounted_rotation {c : CheckRecord} (hr : c.run < 5) (h : c.phase = .rotation) (x : Site)
    (b : BlockResult) (fin : Stamp) : c.takeCounted x b fin =
      if b.fullyLocked ∧ anglesComplete x.map b then c.takeRotation x.map b fin else c.breakRun fin := by
  unfold CheckRecord.takeCounted
  rw [if_neg (by omega), h]

theorem CheckRecord.takeCounted_association {c : CheckRecord} (hr : c.run < 5) (h : c.phase = .association) (x : Site)
    (b : BlockResult) (fin : Stamp) : c.takeCounted x b fin =
      if b.fullyLocked ∧ b.reference.isSome ∧ anglesComplete x.map b then c.takeAssociation x b fin
      else c.breakRun fin := by
  unfold CheckRecord.takeCounted
  rw [if_neg (by omega), h]

/-- What keeps a counted block from qualifying (R43 to R45). -/
def CheckRecord.Disqualifies (c : CheckRecord) (m : ChannelMap) (b : BlockResult) : Prop :=
  b.lockedCycles ≠ b.cycles ∨ (∃ i, isLVoltage m i = true ∧ b.angle i = none)
    ∨ (c.phase = .association ∧ b.reference = none)

theorem CheckRecord.takeCounted_breaks {c : CheckRecord} {x : Site} {b : BlockResult} (hr : c.run < 5)
    (hp : c.phase ≠ .presence) (h : c.Disqualifies x.map b) (fin : Stamp) :
    c.takeCounted x b fin = c.breakRun fin := by
  have hangle : (∃ i, isLVoltage x.map i = true ∧ b.angle i = none) → ¬ anglesComplete x.map b = true :=
    fun ⟨i, hi, ha⟩ => Bool.eq_false_iff.mp (anglesComplete_of_none hi ha)
  have hlock : b.lockedCycles ≠ b.cycles → ¬ b.fullyLocked = true := fun hne => by rwa [BlockResult.fullyLocked_iff]
  cases hph : c.phase with
  | presence => exact absurd hph hp
  | rotation =>
    rw [CheckRecord.takeCounted_rotation hr hph]
    refine if_neg fun hq => ?_
    rcases h with h | h | ⟨ha, -⟩
    · exact hlock h hq.1
    · exact hangle h hq.2
    · rw [hph] at ha
      cases ha
  | association =>
    rw [CheckRecord.takeCounted_association hr hph]
    refine if_neg fun hq => ?_
    obtain ⟨hq1, hq2, hq3⟩ := hq
    rcases h with h | h | ⟨-, hn⟩
    · exact hlock h hq1
    · exact hangle h hq3
    · rw [hn] at hq2
      cases hq2

/-- Settles O35: each early end is one `breakCheck`, and a block that does not count keeps or breaks the run. -/
theorem checksEndEarly : Obligations.ChecksEndEarly := by
  unfold Obligations.ChecksEndEarly
  refine ⟨fun s c x hc hx => ?ends, fun c x b began fin => ⟨?keeps, ?breaks⟩⟩
  case ends =>
    have hunusable (r : UnusableReason) := State.breakCheck_broken s c x (.unusable r) hx (Or.inr ⟨r, rfl⟩)
    exact ⟨fun label y k h hy => ⟨_, takes_cancelCheck (State.cancelCheck_checking h hy hc),
        State.breakCheck_broken s c x .cancelled hx (Or.inl rfl)⟩,
      fun label y k h hy => takes_cancelCheck (State.cancelCheck_wrongState h hy),
      fun hd => ⟨_, exec_lockWaitExpiry hc hd, hunusable .noReference⟩,
      fun hm => ⟨_, exec_leadsMoved hc hm, hunusable .leadsMoved⟩, c.leadsMoved_iff⟩
  case keeps =>
    intro h
    rcases Nat.lt_or_ge began.up c.phaseStart.up with hb | hb
    · exact CheckRecord.takeBlock_early hb x b fin
    · rw [CheckRecord.takeBlock_counts hb]
      rcases h with h | h | h
      · exact absurd h (Nat.not_lt.mpr hb)
      · exact CheckRecord.takeCounted_complete h x b fin
      · exact CheckRecord.takeCounted_presence h x b fin
  case breaks =>
    intro start hb hr hp hq hstart
    subst hstart
    rw [CheckRecord.takeBlock_counts hb, CheckRecord.takeCounted_breaks hr hp hq]
    rfl

/-! ## Snapshot (R76, R80) -/

theorem takes_snapshot {s t : State} {label : Nat} {code : ResultCode} {area : List Byte}
    (h : s.snapshot label = ⟨t, code, area⟩) : Takes (.snapshot label) (.snapshot label) s t code area :=
  takes_of_answer (g := (·.snapshot label)) rfl h

theorem snapshotAllowed_iff (x : Site) : snapshotAllowed x = true ↔
    x.state = .surveying ∨ x.state = .paused ∨ (x.state = .checking ∧ x.returnState = some .paused) := by
  unfold snapshotAllowed
  cases x.state <;> simp

theorem snapshotAllowed_not {x : Site} (h : x.state = .drafted ∨ x.state = .ready ∨ x.state = .closed
    ∨ (x.state = .checking ∧ x.returnState ≠ some .paused)) : snapshotAllowed x = false := by
  unfold snapshotAllowed
  rcases h with h | h | h | ⟨h, hr⟩ <;> rw [h]
  exact decide_eq_false hr

theorem trackerNumbers_getElem (n : Nat) (h : n < trackerNumbers.length) : trackerNumbers[n] = ⟨n, h⟩ := by
  have all : ∀ k : Fin 4, trackerNumbers[k.val] = k := by decide
  exact all ⟨n, h⟩

theorem SagMonitor.freeTracker_lowest {m : SagMonitor} {f : Fin 4} (hf : m.trackers[f] = none)
    (hl : ∀ j : Fin 4, j < f → m.trackers[j] ≠ none) : m.freeTracker = some f := by
  unfold SagMonitor.freeTracker
  rw [List.find?_eq_some_iff_getElem]
  refine ⟨by rw [hf]; rfl, f.val, f.isLt, trackerNumbers_getElem _ _, fun j hj => ?_⟩
  rw [trackerNumbers_getElem, Bool.not_eq_true', Option.isNone_eq_false_iff, Option.isSome_iff_ne_none]
  exact hl ⟨j, _⟩ hj

theorem SagMonitor.freeTracker_none {m : SagMonitor} (h : ∀ f : Fin 4, m.trackers[f] ≠ none) :
    m.freeTracker = none := by
  refine List.find?_eq_none.mpr fun f _ => ?_
  rw [Bool.not_eq_true, Option.isNone_eq_false_iff, Option.isSome_iff_ne_none]
  exact h f

/-- The state after a claim of a tracker (R76). -/
def State.claimed (s : State) (kind : CaptureKind) (site event : Nat) (f : Fin 4) : State :=
  { s with sag := { s.sag with
      trackers := s.sag.trackers.set f (some (s.newTracker kind site event)), claims := s.sag.claims + 1 } }

theorem State.claim_free {s : State} {f : Fin 4} (h : s.sag.freeTracker = some f) (kind : CaptureKind)
    (site event : Nat) : s.claim kind site event = (s.claimed kind site event f, some f) := by
  unfold State.claim
  rw [h]
  rfl

theorem State.claim_busy {s : State} (h : s.sag.freeTracker = none) (kind : CaptureKind) (site event : Nat) :
    s.claim kind site event = (s, none) := by
  unfold State.claim
  rw [h]

section

variable {s : State} {label : Nat} {k : Fin 8} {x : Site} (h : Holds s label k x)
include h

theorem State.snapshot_free (hx : snapshotAllowed x = true) {f : Fin 4} (hf : s.sag.freeTracker = some f) :
    s.snapshot label = accept (s.claimed .snapshot x.label 0 f) (byte f.val ++ zeros 3 ++ timeBlock s.clock) := by
  obtain ⟨hl, hk, hs⟩ := h
  rw [show s.snapshot label = _ from State.judgeSite_pass _ hl rfl hk hs]
  rw [if_neg (not_not.mpr hx), State.claim_free hf]

theorem State.snapshot_busy (hx : snapshotAllowed x = true) (hf : s.sag.freeTracker = none) :
    s.snapshot label = refuse s .trackerBusy := by
  obtain ⟨hl, hk, hs⟩ := h
  rw [show s.snapshot label = _ from State.judgeSite_pass _ hl rfl hk hs]
  rw [if_neg (not_not.mpr hx), State.claim_busy hf]

theorem State.snapshot_wrongState (hx : snapshotAllowed x = false) : s.snapshot label = refuse s .wrongState := by
  obtain ⟨hl, hk, hs⟩ := h
  rw [show s.snapshot label = _ from State.judgeSite_pass _ hl rfl hk hs]
  rw [if_pos (Bool.eq_false_iff.mp hx)]

end

/-! ## Add Note (R110, R111) -/

theorem takes_addNote {s t : State} {b : AddNoteBody} {code : ResultCode} {area : List Byte}
    (h : s.addNote b = ⟨t, code, area⟩) : Takes (.addNote b) (.addNote b) s t code area :=
  takes_of_answer (g := (·.addNote b)) rfl h

theorem State.addNote_refused {s : State} {b : AddNoteBody} {c : ResultCode} (h : s.judgeNote b = .error c) :
    s.addNote b = refuse s c := by
  unfold State.addNote
  rw [h]

/-- The entry of a note with its anchor (R111). -/
def State.noteEntry (s : State) (b : AddNoteBody) (a : Anchor) : State × Option Nat :=
  s.enter ⟨b.label, a, b.author, s.isClosed b.label, .note ((b.text.take b.textLength).map textByte)⟩

theorem State.addNote_entered {s : State} {b : AddNoteBody} {a : Anchor} {n : Nat} (h : s.judgeNote b = .ok a)
    (he : (s.noteEntry b a).2 = some n) : s.addNote b =
      accept (s.noteEntry b a).1 (noteArea n a s.clock ((s.noteEntry b a).1.lostTotal b.label)) := by
  unfold State.noteEntry at he
  unfold State.addNote
  rw [h]
  dsimp only
  rw [he]
  rfl

theorem State.addNote_full {s : State} {b : AddNoteBody} {a : Anchor} (h : s.judgeNote b = .ok a)
    (he : (s.noteEntry b a).2 = none) : s.addNote b =
      ⟨(s.noteEntry b a).1, .journalFull, noteArea 0 .none s.clock ((s.noteEntry b a).1.lostTotal b.label)⟩ := by
  unfold State.noteEntry at he
  unfold State.addNote
  rw [h]
  dsimp only
  rw [he]
  rfl

theorem parseNoteAnchor_ne_none_iff (r e : Nat) : parseNoteAnchor r e ≠ none ↔ r ∈ [0, 1, 255] := by
  unfold parseNoteAnchor
  split <;> simp_all

/-- The text of a note stands within its body (step 1 of R110). -/
def noteTextFits (b : AddNoteBody) : Prop := b.textLength ≤ 480 ∧ b.textLength ≤ b.text.length

/-- A note is for the device or for a site that is there (step 2 of R110). -/
def State.noteSiteKnown (s : State) (b : AddNoteBody) : Prop := b.label = 0 ∨ (s.siteOf b.label).isSome = true

section

variable {s : State} {b : AddNoteBody}

theorem State.judgeNote_badValue (h : 480 < b.textLength ∨ b.text.length < b.textLength ∨ b.request ∉ [0, 1, 255]) :
    s.judgeNote b = .error .badValue := by
  unfold State.judgeNote
  cases hp : parseNoteAnchor b.request b.event with
  | none => rfl
  | some a =>
    have hr := (parseNoteAnchor_ne_none_iff b.request b.event).mp (by rw [hp]; exact Option.some_ne_none a)
    rw [← or_assoc] at h
    exact if_pos (h.resolve_right (not_not.mpr hr))

theorem State.noteSiteKnown.not_missing (h : s.noteSiteKnown b) :
    ¬ (b.label ≠ 0 ∧ (s.findSlot b.label).isNone = true) := fun ⟨hl, hn⟩ => by
  have hs := h.resolve_left hl
  unfold State.siteOf at hs
  rw [Option.isNone_iff_eq_none.mp hn] at hs
  cases hs

theorem State.judgeNote_unknownSite {a : NoteAnchor} (hp : parseNoteAnchor b.request b.event = some a)
    (ht : noteTextFits b) (hl : b.label ≠ 0) (hf : s.findSlot b.label = none) :
    s.judgeNote b = .error .unknownSite := by
  obtain ⟨ht1, ht2⟩ := ht
  unfold State.judgeNote
  rw [hp]
  dsimp only
  rw [if_neg (by omega), if_pos ⟨hl, by rw [hf]; rfl⟩]

/-- The last step of a note's judgement: a named event must be there (step 3 of R110). -/
theorem State.judgeNote_anchored {a : NoteAnchor} (hp : parseNoteAnchor b.request b.event = some a)
    (ht : noteTextFits b) (hs : s.noteSiteKnown b) (he : ∀ n, a = .event n → s.eventNamed b.label n = true) :
    s.judgeNote b = .ok (s.noteAnchor b.label a) := by
  obtain ⟨ht1, ht2⟩ := ht
  unfold State.judgeNote
  rw [hp]
  dsimp only
  rw [if_neg (by omega), if_neg hs.not_missing]
  cases a with
  | none => rfl
  | auto => rfl
  | event n => exact if_pos (he n rfl)

theorem State.judgeNote_badAnchor (ht : noteTextFits b) (hr : b.request = 1) (hs : s.noteSiteKnown b)
    (he : s.eventNamed b.label b.event = false) : s.judgeNote b = .error .badAnchor := by
  obtain ⟨ht1, ht2⟩ := ht
  unfold State.judgeNote
  rw [hr, show parseNoteAnchor 1 b.event = some (.event b.event) from rfl]
  dsimp only
  rw [if_neg (by omega), if_neg hs.not_missing]
  exact if_neg (Bool.eq_false_iff.mp he)

theorem State.eventNamed_iff (s : State) (label n : Nat) : s.eventNamed label n = true ↔
    ∃ x, s.siteOf label = some x ∧ label ≠ 0 ∧ 1 ≤ n ∧ n < x.sag.nextEvent := by
  unfold State.eventNamed
  cases s.siteOf label <;> simp

/-- The anchors that an accepted note can have (R110, R111). -/
theorem State.judgeNote_ok {a : Anchor} (ht : noteTextFits b) (hs : s.noteSiteKnown b)
    (h : (b.request = 255 ∧ a = .none) ∨ (b.request = 0 ∧ a = s.autoAnchor b.label)
      ∨ (b.request = 1 ∧ a = .namedEvent b.event ∧ s.eventNamed b.label b.event = true)) :
    s.judgeNote b = .ok a := by
  have hnever (n : Nat) (a : NoteAnchor) (ha : a = .none ∨ a = .auto) : a ≠ .event n := by
    rcases ha with rfl | rfl <;> exact NoteAnchor.noConfusion
  rcases h with ⟨hr, rfl⟩ | ⟨hr, rfl⟩ | ⟨hr, rfl, he⟩
  · exact State.judgeNote_anchored (a := .none) (by rw [hr]; rfl) ht hs
      fun n hn => absurd hn (hnever n _ (Or.inl rfl))
  · exact State.judgeNote_anchored (a := .auto) (by rw [hr]; rfl) ht hs
      fun n hn => absurd hn (hnever n _ (Or.inr rfl))
  · exact State.judgeNote_anchored (a := .event b.event) (by rw [hr]; rfl) ht hs fun n hn => by
      cases hn
      exact he

end

/-! ## The Auto anchor (R108) -/

theorem State.autoAnchor_none {s : State} {n : Nat} (h : s.siteOf n = none) : s.autoAnchor n = .none := by
  unfold State.autoAnchor
  rw [h]

section

variable {s : State} {n : Nat} {x : Site} (h : s.siteOf n = some x)
include h

theorem State.autoAnchor_closed (hx : x.state = .closed) : s.autoAnchor n = .none := by
  unfold State.autoAnchor
  rw [h]
  exact if_pos hx

theorem State.autoAnchor_open (hx : x.state ≠ .closed) (he : x.openEvent ≠ 0) :
    s.autoAnchor n = .openEvent x.openEvent := by
  unfold State.autoAnchor
  rw [h]
  exact (if_neg hx).trans (if_pos he)

theorem State.autoAnchor_no_event (hx : x.state ≠ .closed) (he : x.openEvent = 0) (hc : x.sag.lastClosed = none) :
    s.autoAnchor n = .none := by
  unfold State.autoAnchor
  rw [h]
  dsimp only
  rw [if_neg hx, if_neg (not_not.mpr he), hc]

theorem State.autoAnchor_recent {c : LastClosed} (hx : x.state ≠ .closed) (he : x.openEvent = 0)
    (hc : x.sag.lastClosed = some c) : s.autoAnchor n =
      if s.clock.total ≤ c.endTime.total + 1000 * x.active.anchorWindow then .recentEvent c.number else .none := by
  unfold State.autoAnchor
  rw [h]
  dsimp only
  rw [if_neg hx, if_neg (not_not.mpr he), hc, Nat.mul_comm 1000]

end

/-- Settles O38: a snapshot by the state of its site and its trackers, a note by its judgement and its entry. -/
theorem snapshotsAndNotesAreTaken : Obligations.SnapshotsAndNotesAreTaken := by
  unfold Obligations.SnapshotsAndNotesAreTaken
  refine ⟨fun s label k x h => ⟨fun f hx hf hl => takes_snapshot (State.snapshot_free h
        ((snapshotAllowed_iff x).mpr hx) (SagMonitor.freeTracker_lowest hf hl)),
      fun hx hf => takes_snapshot (State.snapshot_busy h ((snapshotAllowed_iff x).mpr hx)
        (SagMonitor.freeTracker_none hf)),
      fun hx => takes_snapshot (State.snapshot_wrongState h (snapshotAllowed_not hx))⟩,
    fun s b => ⟨fun a ht1 ht2 hs ha => ?entered,
      fun h => takes_addNote (State.addNote_refused (State.judgeNote_badValue h)),
      fun ht1 ht2 hr hl hk => takes_addNote (State.addNote_refused ?unknown),
      fun ht1 ht2 hr hs => takes_addNote (State.addNote_refused ?badAnchor), State.autoAnchor_none,
      fun x hx => ⟨State.autoAnchor_closed hx, State.autoAnchor_open hx, State.autoAnchor_no_event hx,
        fun c => State.autoAnchor_recent hx⟩⟩⟩
  case entered =>
    simp only [← State.eventNamed_iff] at ha
    have hj : s.judgeNote b = .ok a := State.judgeNote_ok ⟨ht1, ht2⟩ hs ha
    exact ⟨_, _, rfl, fun m hm => takes_addNote (State.addNote_entered hj hm),
      fun hn => takes_addNote (State.addNote_full hj hn)⟩
  case unknown =>
    obtain ⟨a, hp⟩ := Option.ne_none_iff_exists'.mp ((parseNoteAnchor_ne_none_iff b.request b.event).mpr hr)
    exact State.judgeNote_unknownSite hp ⟨ht1, ht2⟩ hl (State.findSlot_none.mpr hk)
  case badAnchor =>
    have hknown : s.noteSiteKnown b := hs.imp_right fun ⟨x, hx, _⟩ => by rw [hx]; rfl
    refine State.judgeNote_badAnchor ⟨ht1, ht2⟩ hr hknown (Bool.eq_false_iff.mpr fun he => ?_)
    obtain ⟨x, hx, hl, h1, h2⟩ := (State.eventNamed_iff _ _ _).mp he
    rcases hs with hl0 | ⟨y, hy, hout⟩
    · exact hl hl0
    · cases hx.symm.trans hy
      omega

end Sys2Proof.Machine

/-! # The orders that read (R17, R157)

The lengths of the blocks of 11.4, what stands at a place of a run of equal blocks, and the answers of Read Site
and Read Print Queue. -/

namespace Sys2Proof.Machine

/-! ## The lengths of blocks (11.4) -/

@[simp] theorem le_length (n v : Nat) : (le n v).length = n := by
  induction n generalizing v with
  | zero => rfl
  | succ n ih => exact congrArg (· + 1) (ih _)

@[simp] theorem byte_length (v : Nat) : (byte v).length = 1 := rfl

@[simp] theorem zeros_length (n : Nat) : (zeros n).length = n := List.length_replicate

@[simp] theorem timeBlock_length (t : Time) : (timeBlock t).length = 8 := rfl

@[simp] theorem timeBlockOr_length (t : Option Time) : (timeBlockOr t).length = 8 := by cases t <;> rfl

@[simp] theorem limitsBlock_length (v : Nat) (l : Limits) : (limitsBlock v l).length = 20 := rfl

@[simp] theorem pendingBlock_length (x : Site) : (pendingBlock x).length = 20 := by
  unfold pendingBlock
  split <;> rfl

@[simp] theorem countersBytes_length (c : Counters) : (countersBytes c).length = 32 := rfl

@[simp] theorem fitTo_length (n : Nat) (b : List Byte) : (fitTo n b).length = n := by
  unfold fitTo
  rw [List.length_take, List.length_append, zeros_length]
  omega

@[simp] theorem jobBlock_length (j : Job) : (jobBlock j).length = 48 := by
  unfold jobBlock
  simp only [List.length_append, le_length, byte_length, timeBlock_length, zeros_length, fitTo_length]

theorem length_flatMap_of_const {α β : Type} {f : α → List β} {n : Nat} (h : ∀ x, (f x).length = n) (l : List α) :
    (l.flatMap f).length = n * l.length := by
  rw [List.length_flatMap]
  simp only [h, List.map_const', List.sum_replicate, smul_eq_mul, Nat.mul_comm]

/-! ## Runs of equal blocks -/

/-- The block at a place of a run of equal blocks. -/
theorem flatMap_block {α β : Type} {f : α → List β} {n : Nat} (h : ∀ x, (f x).length = n) {l : List α} {i : Nat}
    {a : α} (hi : l[i]? = some a) : ((l.flatMap f).drop (n * i)).take n = f a := by
  induction l generalizing i with
  | nil => cases hi
  | cons x xs ih =>
    rw [List.flatMap_cons]
    cases i with
    | zero =>
      cases hi
      rw [Nat.mul_zero, List.drop_zero, List.take_append_of_le_length (h a).ge, List.take_of_length_le (h a).le]
    | succ i =>
      rw [show n * (i + 1) = (f x).length + n * i by rw [h]; ring, List.drop_length_add_append]
      exact ih hi

theorem fitTo_eq (n : Nat) (b : List Byte) : fitTo n b = b.take n ++ zeros (n - b.length) := by
  unfold fitTo
  rw [List.take_append, List.take_of_length_le (l := zeros _) (zeros_length _).le]

/-- A part of a fitted run that the run itself holds. -/
theorem fitTo_part {n o k : Nat} {b : List Byte} (hn : o + k ≤ n) (hb : o + k ≤ b.length) :
    ((fitTo n b).drop o).take k = (b.drop o).take k := by
  unfold fitTo
  rw [List.drop_take, List.take_take, List.drop_append_of_le_length (by omega),
    List.take_append_of_le_length (by rw [List.length_drop]; omega), Nat.min_eq_left (by omega)]

/-- What follows the run in a fitted run is 0. -/
theorem fitTo_rest {n : Nat} {b : List Byte} (h : b.length ≤ n) : (fitTo n b).drop b.length = zeros (n - b.length) := by
  rw [fitTo_eq, List.take_of_length_le h, List.drop_left]

/-! ## The slot list and the site summary (R17) -/

/-- A slot's four bytes of the slot list. -/
def State.slotEntry (s : State) (k : Fin 8) : List Byte :=
  (s.site k).elim (zeros 4) fun x => le 2 x.label ++ byte x.state.number ++ zeros 1

theorem State.slotEntry_length (s : State) (k : Fin 8) : (s.slotEntry k).length = 4 := by
  unfold State.slotEntry
  cases s.site k <;> rfl

theorem State.slotList_eq (s : State) : s.slotList = slotNumbers.flatMap s.slotEntry ++ zeros 160 := by
  unfold State.slotList
  refine congrArg (fun f => slotNumbers.flatMap f ++ zeros 160) (funext fun k => ?_)
  unfold State.slotEntry
  cases s.site k <;> rfl

theorem State.slotEntries_length (s : State) : (slotNumbers.flatMap s.slotEntry).length = 32 :=
  length_flatMap_of_const s.slotEntry_length slotNumbers

theorem State.slotList_length (s : State) : s.slotList.length = 192 := by
  rw [State.slotList_eq, List.length_append, s.slotEntries_length, zeros_length]

theorem State.slotList_rest (s : State) : s.slotList.drop 32 = zeros 160 := by
  rw [State.slotList_eq, ← s.slotEntries_length, List.drop_left]

theorem State.slotList_entry (s : State) (k : Fin 8) : (s.slotList.drop (4 * k.val)).take 4 = s.slotEntry k := by
  have hlen := s.slotEntries_length
  have hk : slotNumbers[k.val]? = some k := List.getElem?_eq_some_iff.mpr ⟨k.isLt, slotNumbers_getElem _ _⟩
  rw [State.slotList_eq, List.drop_append_of_le_length (by omega),
    List.take_append_of_le_length (by rw [List.length_drop]; omega)]
  exact flatMap_block s.slotEntry_length hk

theorem State.siteSummary_length (s : State) (k : Fin 8) (x : Site) : (s.siteSummary k x).length = 192 := by
  have hmap : (x.map.toList.flatMap mapEntryBytes).length = 64 :=
    length_flatMap_of_const (n := 8) (fun _ => rfl) x.map.toList
  unfold State.siteSummary
  simp only [List.length_append, hmap, le_length, byte_length, zeros_length, limitsBlock_length, pendingBlock_length,
    countersBytes_length, timeBlock_length, timeBlockOr_length]

/-- The first four bytes of the site summary: the slot, the label and the state. -/
theorem State.siteSummary_head (s : State) (k : Fin 8) (x : Site) : ∃ rest, s.siteSummary k x =
    BitVec.ofNat 8 k.val :: BitVec.ofNat 8 x.label :: BitVec.ofNat 8 (x.label / 256)
      :: BitVec.ofNat 8 x.state.number :: rest := by
  unfold State.siteSummary
  simp only [byte, le, List.append_assoc, List.cons_append, List.nil_append]
  exact ⟨_, rfl⟩

theorem SiteState.number_lt (st : SiteState) : st.number < 256 := by cases st <;> decide

section

variable (s : State) (k : Fin 8) (x : Site)

theorem State.siteSummary_slot : field (s.siteSummary k x) 0 1 = k.val := by
  obtain ⟨rest, h⟩ := s.siteSummary_head k x
  simp only [h, field, List.drop_zero, List.take_succ_cons, List.take_zero, fromLe, BitVec.toNat_ofNat]
  omega

theorem State.siteSummary_label (hl : x.label < 65536) : field (s.siteSummary k x) 1 2 = x.label := by
  obtain ⟨rest, h⟩ := s.siteSummary_head k x
  simp only [h, field, List.drop_succ_cons, List.drop_zero, List.take_succ_cons, List.take_zero, fromLe,
    BitVec.toNat_ofNat]
  omega

theorem State.siteSummary_state : field (s.siteSummary k x) 3 1 = x.state.number := by
  obtain ⟨rest, h⟩ := s.siteSummary_head k x
  have hst := x.state.number_lt
  simp only [h, field, List.drop_succ_cons, List.drop_zero, List.take_succ_cons, List.take_zero, fromLe,
    BitVec.toNat_ofNat]
  omega

end

/-! ## The queue summary (R157) -/

/-- The first eight bytes of the queue summary. -/
def PrintEngine.summaryHead (p : PrintEngine) : List Byte :=
  byte p.line.number ++ byte p.timeout ++ le 2 p.nextJob ++ byte p.jobs.length ++ zeros 3

theorem PrintEngine.summary_eq (p : PrintEngine) :
    p.summary = p.summaryHead ++ fitTo 384 (p.jobs.flatMap jobBlock) := rfl

theorem PrintEngine.summaryHead_length (p : PrintEngine) : p.summaryHead.length = 8 := rfl

theorem PrintEngine.summary_length (p : PrintEngine) : p.summary.length = 392 := by
  rw [PrintEngine.summary_eq, List.length_append, p.summaryHead_length, fitTo_length]

theorem PrintEngine.summary_drop (p : PrintEngine) (n : Nat) :
    p.summary.drop (8 + n) = (fitTo 384 (p.jobs.flatMap jobBlock)).drop n := by
  rw [PrintEngine.summary_eq, ← p.summaryHead_length, List.drop_length_add_append]

theorem PrintEngine.jobBlocks_length (p : PrintEngine) : (p.jobs.flatMap jobBlock).length = 48 * p.jobs.length :=
  length_flatMap_of_const jobBlock_length p.jobs

theorem PrintEngine.summary_rest {p : PrintEngine} (h : p.jobs.length ≤ 8) :
    p.summary.drop (8 + 48 * p.jobs.length) = zeros (48 * (8 - p.jobs.length)) := by
  have hlen := p.jobBlocks_length
  rw [PrintEngine.summary_drop, ← hlen, fitTo_rest (by omega), hlen]
  exact congrArg zeros (by omega)

theorem PrintEngine.summary_job {p : PrintEngine} {i : Nat} {j : Job} (hi : i < 8) (hj : p.jobs[i]? = some j) :
    (p.summary.drop (8 + 48 * i)).take 48 = jobBlock j := by
  have hlen := p.jobBlocks_length
  obtain ⟨hlt, -⟩ := List.getElem?_eq_some_iff.mp hj
  rw [PrintEngine.summary_drop, fitTo_part (by omega) (by omega)]
  exact flatMap_block jobBlock_length hj

/-! ## The two orders -/

theorem takes_readPrintQueue {s t : State} {r : Nat} {code : ResultCode} {area : List Byte}
    (h : s.readPrintQueue r = ⟨t, code, area⟩) : Takes (.readPrintQueue r) (.readPrintQueue r) s t code area :=
  takes_of_answer (g := (·.readPrintQueue r)) rfl h

theorem State.readPrintQueue_short {s : State} {r : Nat} (h : r < 392) : s.readPrintQueue r = refuse s .badOrder :=
  if_pos h

theorem State.readPrintQueue_answers {s : State} {r : Nat} (h : 392 ≤ r) :
    s.readPrintQueue r = accept s s.print.summary := if_neg (Nat.not_lt.mpr h)

theorem State.readSite_holds {s : State} {label : Nat} {k : Fin 8} {x : Site} (h : Holds s label k x) (r : Nat) :
    s.readSite label r = if r < 192 then refuse s .badOrder else accept s (s.siteSummary k x) := by
  obtain ⟨hl, hk, hx⟩ := h
  have h1 := ((labelOk_iff label).mp hl).1
  rw [State.readSite_site (by omega)]
  exact State.judgeSite_pass _ hl rfl hk hx

theorem State.readSite_zero (s : State) (r : Nat) :
    s.readSite 0 r = if r < 192 then refuse s .badOrder else accept s s.slotList := rfl

/-- Settles O32: the answers of the two reading orders, and the bytes of their lists. -/
theorem readOrdersChangeNothing : Obligations.ReadOrdersChangeNothing := by
  unfold Obligations.ReadOrdersChangeNothing
  refine ⟨fun s label r k x => ⟨fun h hr => ⟨takes_readSite ?site, s.siteSummary_length k x, s.siteSummary_slot k x,
        s.siteSummary_label k x, s.siteSummary_state k x⟩,
      fun h hr => takes_readSite ((State.readSite_holds h r).trans (if_pos hr)),
      fun hr => ⟨takes_readSite ((s.readSite_zero r).trans (if_neg (Nat.not_lt.mpr hr))), s.slotList_length⟩,
      fun hr => ⟨takes_readPrintQueue (State.readPrintQueue_answers hr), s.print.summary_length⟩,
      fun hr => takes_readSite ((s.readSite_zero r).trans (if_pos hr)),
      fun hr => takes_readPrintQueue (State.readPrintQueue_short hr)⟩,
    fun s k => ⟨fun x hx => ?slot, fun hx => ?empty, s.slotList_rest⟩,
    fun p => ⟨rfl, PrintEngine.summary_rest, fun i j hi hj => ?job⟩⟩
  case site => exact (State.readSite_holds h r).trans (if_neg (Nat.not_lt.mpr hr))
  case slot =>
    rw [State.slotList_entry]
    unfold State.slotEntry
    rw [hx]
    rfl
  case empty =>
    rw [State.slotList_entry]
    unfold State.slotEntry
    rw [hx]
    rfl
  case job =>
    rw [PrintEngine.summary_job hi hj]
    rfl

end Sys2Proof.Machine

/-! # The Record Store's orders and deliveries (R123 to R134)

The judgement of a page by the first condition that holds, the three orders, and a delivery from its start through
its stages to its publication. -/

namespace Sys2Proof.Machine

/-! ## The judgement of a page (R125, R126) -/

theorem holdsPage_iff (ps : List Page) (p : Page) : holdsPage ps p = true ↔ ∃ q, q ∈ ps ∧ q.bus = p.bus := by
  unfold holdsPage
  simp only [List.any_eq_true, beq_iff_eq]

theorem RecordStore.pinned_iff (m : RecordStore) (p : Page) :
    m.pinned p = true ↔ ∃ e, e ∈ m.pins ∧ e.page.bus = p.bus := by
  unfold RecordStore.pinned
  simp only [List.any_eq_true, beq_iff_eq]

/-- The store holds a page in the pool, the waiting list or a delivery. -/
def RecordStore.holds (m : RecordStore) (p : Page) : Bool :=
  holdsPage m.pool p || holdsPage m.waiting p || m.inFlight p

/-- The page that a reference names on the link. -/
def State.pageOf (s : State) (r : WRef) : Page := ⟨r, s.lp.bus r⟩

theorem State.judgePage_bad {s : State} {r : WRef} (h : r = WRef.null ∨ s.lp.pageSound r true = false) :
    s.judgePage r = (s, .badReference) := if_pos (h.imp_right Bool.eq_false_iff.mp)

section

variable {s : State} {r : WRef} (hn : r ≠ WRef.null) (hs : s.lp.pageSound r true = true)
include hn hs

/-- A sound reference is judged by the conditions that follow it. -/
theorem State.judgePage_sound : s.judgePage r =
    if s.store.holds (s.pageOf r) then (s, .duplicate)
    else if s.store.isTail (s.pageOf r) then (s, .isTail)
    else if s.store.pinned (s.pageOf r) ∧ s.store.waiting.length < 64 then
      ({ s with store := { s.store with waiting := s.store.waiting ++ [s.pageOf r] } }, .waiting)
    else if s.store.pinned (s.pageOf r) ∨ 256 ≤ s.store.pool.length then (s, .poolFull)
    else ({ s with store := { s.store with pool := s.store.pool ++ [s.pageOf r] } }, .accepted) :=
  if_neg (not_or.mpr ⟨hn, not_not.mpr hs⟩)

theorem State.judgePage_duplicate (hh : s.store.holds (s.pageOf r) = true) : s.judgePage r = (s, .duplicate) :=
  (State.judgePage_sound hn hs).trans (if_pos hh)

variable (hh : s.store.holds (s.pageOf r) = false)
include hh

theorem State.judgePage_tail (ht : s.store.isTail (s.pageOf r) = true) : s.judgePage r = (s, .isTail) :=
  (State.judgePage_sound hn hs).trans ((if_neg (Bool.eq_false_iff.mp hh)).trans (if_pos ht))

variable (ht : s.store.isTail (s.pageOf r) = false)
include ht

theorem State.judgePage_waits (hp : s.store.pinned (s.pageOf r) = true) (hw : s.store.waiting.length < 64) :
    s.judgePage r =
      ({ s with store := { s.store with waiting := s.store.waiting ++ [s.pageOf r] } }, .waiting) := by
  rw [State.judgePage_sound hn hs, if_neg (Bool.eq_false_iff.mp hh), if_neg (Bool.eq_false_iff.mp ht), if_pos ⟨hp, hw⟩]

theorem State.judgePage_full (hf : (s.store.pinned (s.pageOf r) = true ∧ 64 ≤ s.store.waiting.length)
    ∨ (s.store.pinned (s.pageOf r) = false ∧ 256 ≤ s.store.pool.length)) : s.judgePage r = (s, .poolFull) := by
  rw [State.judgePage_sound hn hs, if_neg (Bool.eq_false_iff.mp hh), if_neg (Bool.eq_false_iff.mp ht)]
  rcases hf with ⟨hp, hw⟩ | ⟨hp, hw⟩
  · rw [if_neg fun h => Nat.not_lt.mpr hw h.2, if_pos (Or.inl hp)]
  · rw [if_neg fun h => Bool.eq_false_iff.mp hp h.1, if_pos (Or.inr hw)]

theorem State.judgePage_accepted (hp : s.store.pinned (s.pageOf r) = false) (hw : s.store.pool.length < 256) :
    s.judgePage r =
      ({ s with store := { s.store with pool := s.store.pool ++ [s.pageOf r] } }, .accepted) := by
  rw [State.judgePage_sound hn hs, if_neg (Bool.eq_false_iff.mp hh), if_neg (Bool.eq_false_iff.mp ht),
    if_neg fun h => Bool.eq_false_iff.mp hp h.1, if_neg (not_or.mpr ⟨Bool.eq_false_iff.mp hp, Nat.not_le.mpr hw⟩)]

end

theorem State.judgePages_length (rs : List WRef) (s : State) : (s.judgePages rs).2.length = rs.length := by
  induction rs generalizing s with
  | nil => rfl
  | cons r rs ih => exact congrArg (· + 1) (ih (s.judgePage r).1)

/-! ## The three orders (R125, R133, R134) -/

section

variable {s t : State} {code : ResultCode} {area : List Byte}

theorem takes_givePages {n r : Nat} {ps : List WRef} (h : s.givePages n ps r = ⟨t, code, area⟩) :
    Takes (.givePages n ps r) (.givePages n ps r) s t code area := takes_of_answer (g := (·.givePages n ps r)) rfl h

theorem takes_flushStreams {m r : Nat} (h : s.flushStreams m r = ⟨t, code, area⟩) :
    Takes (.flushStreams m r) (.flushStreams m r) s t code area := takes_of_answer (g := (·.flushStreams m r)) rfl h

theorem takes_setStoreLevels {l : StoreLevels} {r : Nat} (h : s.setStoreLevels l r = ⟨t, code, area⟩) :
    Takes (.setStoreLevels l r) (.setStoreLevels l r) s t code area :=
  takes_of_answer (g := (·.setStoreLevels l r)) rfl h

end

section

variable {s : State} {n r : Nat} {ps : List WRef}

theorem State.givePages_badValue (h : n = 0 ∨ 64 < n) : s.givePages n ps r = refuse s .badValue :=
  if_pos (by omega)

theorem State.givePages_short (h1 : 1 ≤ n) (h2 : n ≤ 64) (h : r < pad4 n + 4) :
    s.givePages n ps r = refuse s .badOrder := (if_neg (by omega)).trans (if_pos h)

theorem State.givePages_judges (h1 : 1 ≤ n) (h2 : n ≤ 64) (h : pad4 n + 4 ≤ r) :
    s.givePages n ps r = accept (s.judgePages ps).1 (givePagesArea (s.judgePages ps).1.store (s.judgePages ps).2) :=
  (if_neg (by omega)).trans (if_neg (by omega))

theorem givePagesArea_eq (m : RecordStore) (codes : List PageCode) : givePagesArea m codes =
    padded (codes.map fun c => BitVec.ofNat 8 c.number) ++ le 2 m.pool.length ++ le 2 m.waiting.length := by
  unfold givePagesArea
  rw [List.map_eq_flatMap]
  rfl

theorem RecordStore.flush_queue (m : RecordStore) (mask : Nat) (st : Stream) : (m.flush mask).queues.get st =
    if mask.testBit st.number then (m.queues.get st).map (fun q => { q with due := true }) else m.queues.get st := by
  cases st <;> rfl

theorem StoreLevels.inRange_iff (l : StoreLevels) :
    StoreLevels.inRange l = true ↔ (∀ st, l.hold.get st ≤ 60) ∧ l.pagesLow ≤ 255 ∧ l.storeHigh ≤ 100 := by
  unfold StoreLevels.inRange
  rw [decide_eq_true_iff]
  constructor
  · rintro ⟨h1, h2, h3, h4, h5, h6⟩
    exact ⟨fun st => by cases st <;> assumption, h5, h6⟩
  · rintro ⟨h, h5, h6⟩
    exact ⟨h .events, h .intervals, h .journal, h .captures, h5, h6⟩

theorem StoreLevels.not_inRange {l : StoreLevels} (h : (∃ st, 60 < l.hold.get st) ∨ 255 < l.pagesLow ∨ 100 < l.storeHigh) :
    ¬ StoreLevels.inRange l = true := by
  rw [StoreLevels.inRange_iff]
  rintro ⟨hh, h1, h2⟩
  rcases h with ⟨st, h⟩ | h | h
  · exact absurd (hh st) (Nat.not_le.mpr h)
  · exact absurd h1 (Nat.not_le.mpr h)
  · exact absurd h2 (Nat.not_le.mpr h)

theorem State.setStoreLevels_inRange {l : StoreLevels} (h : StoreLevels.inRange l = true) : s.setStoreLevels l r =
    if r < 88 then refuse s .badOrder
    else accept { s with store := s.store.setLevels l } (s.store.setLevels l).summary := if_neg (not_not.mpr h)

end

/-- Settles O39: the answers of the three orders, and the page judgement condition by condition. -/
theorem storeOrdersAreTaken : Obligations.StoreOrdersAreTaken := by
  unfold Obligations.StoreOrdersAreTaken
  refine ⟨⟨fun s n r ps => ⟨fun h1 h2 hr => ⟨_, _, rfl, State.judgePages_length ps s, takes_givePages ?gives⟩,
      fun h => takes_givePages (State.givePages_badValue h),
      fun h1 h2 hr => takes_givePages (State.givePages_short h1 h2 hr)⟩,
    fun s m r => ⟨fun hr => ⟨{ s with store := s.store.flush m },
        takes_flushStreams (if_neg (Nat.not_lt.mpr hr)), rfl, s.store.flush_queue m⟩,
      fun hr => takes_flushStreams (if_pos hr)⟩,
    fun s l r => ⟨fun hh hp hs hr => ⟨_, rfl, takes_setStoreLevels ?sets⟩,
      fun h => takes_setStoreLevels (if_pos (StoreLevels.not_inRange h)),
      fun hh hp hs hr => takes_setStoreLevels ((State.setStoreLevels_inRange
        ((StoreLevels.inRange_iff l).mpr ⟨hh, hp, hs⟩)).trans (if_pos hr))⟩⟩,
    fun s r p held hp hheld => ?page, fun s r rs => ⟨rfl, rfl⟩, fun lp r => pageSound_iff lp r true,
    fun m ps p => ⟨holdsPage_iff ps p, inFlight_iff m p, isTail_iff m p, m.pinned_iff p⟩⟩
  case gives =>
    rw [State.givePages_judges h1 h2 hr, givePagesArea_eq]
    rfl
  case sets =>
    exact (State.setStoreLevels_inRange ((StoreLevels.inRange_iff l).mpr ⟨hh, hp, hs⟩)).trans (if_neg (Nat.not_lt.mpr hr))
  case page =>
    subst hp hheld
    exact ⟨State.judgePage_bad, fun hn hs => ⟨State.judgePage_duplicate hn hs, State.judgePage_tail hn hs,
      State.judgePage_waits hn hs, fun hh ht hp hw => State.judgePage_full hn hs hh ht (Or.inl ⟨hp, hw⟩),
      fun hh ht hp hw => State.judgePage_full hn hs hh ht (Or.inr ⟨hp, hw⟩), State.judgePage_accepted hn hs⟩⟩

/-! ## The conditions of a delivery (R123, R129) -/

theorem fitCount_le (q : List Queued) (room : Nat) : fitCount room q ≤ q.length := by
  induction q generalizing room with
  | nil => exact Nat.le_refl 0
  | cons h q ih =>
    unfold fitCount
    split
    · exact Nat.succ_le_succ (ih _)
    · exact Nat.zero_le _

theorem pageFull_iff (q : List Queued) : pageFull q = true ↔ fitCount 8128 q < q.length
    ∨ ((q.take (fitCount 8128 q)).map Queued.length).sum = 8128 := by
  unfold pageFull queueBytes
  rw [Bool.or_eq_true, decide_eq_true_iff, beq_iff_eq]
  rfl

theorem headDue_iff (q : List Queued) : headDue q = true ↔ ∃ h, q.head? = some h ∧ h.due = true := by
  cases q <;> simp [headDue]

theorem hasWaited_iff (now : Time) (hold : Nat) (q : Queued) : hasWaited now hold q = true ↔
    now.total < q.admitted.total ∨ 1000 * hold ≤ now.total - q.admitted.total := by
  unfold hasWaited
  rw [Bool.or_eq_true, decide_eq_true_iff, decide_eq_true_iff]
  omega

theorem State.headWaited_iff (s : State) (st : Stream) : s.headWaited st = true ↔
    ∃ h, (s.store.queues.get st).head? = some h ∧ (s.clock.total < h.admitted.total
      ∨ 1000 * s.store.levels.hold.get st ≤ s.clock.total - h.admitted.total) := by
  unfold State.headWaited
  cases s.store.queues.get st with
  | nil => simp
  | cons q qs => simp [hasWaited_iff]

theorem State.linkOpen_iff (s : State) : s.linkOpen = true ↔ s.lp.link = .attended ∧ s.lp.departure = none := by
  unfold State.linkOpen
  rw [Bool.and_eq_true, decide_eq_true_iff, Option.isNone_iff_eq_none]

theorem State.canDeliver_iff (s : State) (st : Stream) : s.canDeliver st = true ↔
    s.lp.link = .attended ∧ s.lp.departure = none ∧ s.store.pool ≠ [] ∧ s.store.deliveries.get st = none
      ∧ s.store.queues.get st ≠ [] ∧ (fitCount 8128 (s.store.queues.get st) < (s.store.queues.get st).length
        ∨ (((s.store.queues.get st).take (fitCount 8128 (s.store.queues.get st))).map Queued.length).sum = 8128
        ∨ s.headWaited st = true ∨ ∃ h, (s.store.queues.get st).head? = some h ∧ h.due = true) := by
  unfold State.canDeliver
  simp only [Bool.and_eq_true, Bool.or_eq_true, Bool.not_eq_true', List.isEmpty_eq_false_iff,
    Option.isNone_iff_eq_none, s.linkOpen_iff, pageFull_iff, headDue_iff, and_assoc, or_assoc, ne_eq]

theorem State.startDelivery_refused {s : State} {st : Stream} (h : s.canDeliver st = false) :
    s.startDelivery st = s := if_neg (Bool.eq_false_iff.mp h)

theorem State.startDelivery_starts {s : State} {st : Stream} {p : Page} {ps : List Page} (h : s.canDeliver st = true)
    (hp : s.store.pool = p :: ps) : s.startDelivery st = s.beginDelivery st p ps := by
  unfold State.startDelivery
  rw [if_pos h, hp]

/-! ## What the start of a delivery leaves (R128 to R130) -/

section

variable (s : State) (n : Nat)

theorem State.pagesLowTest_store : (s.pagesLowTest n).store = s.store := by
  unfold State.pagesLowTest
  split <;> rfl

theorem State.pagesLowTest_sites : (s.pagesLowTest n).sites = s.sites := by
  unfold State.pagesLowTest
  split <;> rfl

theorem State.pagesLowTest_print : (s.pagesLowTest n).print = s.print := by
  unfold State.pagesLowTest
  split <;> rfl

theorem State.pagesLowTest_van : (s.pagesLowTest n).van = s.van := by
  unfold State.pagesLowTest
  split <;> rfl

theorem State.pagesLowTest_attends : (s.pagesLowTest n).attends .pagesLow = true ↔ s.attends .pagesLow = true
    ∨ (s.store.levels.pagesLow ≤ n ∧ n - 1 < s.store.levels.pagesLow) := by
  unfold State.pagesLowTest
  split
  · next h => simp only [State.raise_attends, h, and_self, or_true]
  · next h => exact (or_iff_left h).symm

end

/-- The delivery that starts with a page (R129, R130). -/
def State.newDelivery (s : State) (st : Stream) (p : Page) : Delivery :=
  { page := p, stage := .records, count := fitCount 8128 (s.store.queues.get st)
    full := pageFull (s.store.queues.get st), held := s.headWaited st, lostInHeader := 0
    access := ⟨.pageWrite, p.ref.window, p.ref.offset + 64,
      [(0, ((s.store.queues.get st).take (fitCount 8128 (s.store.queues.get st))).flatMap fun x => x.record.bytes)],
      s.up⟩ }

/-- The state of a starting delivery before the test of R128. -/
def State.withDelivery (s : State) (st : Stream) (p : Page) (ps : List Page) : State :=
  { s with store := { s.store with
      pool := ps
      queues := s.store.queues.set st (markTaken (fitCount 8128 (s.store.queues.get st)) (s.store.queues.get st))
      deliveries := s.store.deliveries.set st (some (s.newDelivery st p)) }.releaseWaiting }

theorem State.beginDelivery_eq (s : State) (st : Stream) (p : Page) (ps : List Page) :
    s.beginDelivery st p ps = (s.withDelivery st p ps).pagesLowTest (ps.length + 1) := rfl

theorem RecordStore.releaseWaiting_empty {r : RecordStore} (h : r.waiting = []) : r.releaseWaiting.pool = r.pool := by
  unfold RecordStore.releaseWaiting
  rw [h]
  rfl

theorem markTaken_record (n : Nat) (q : List Queued) : (markTaken n q).map Queued.record = q.map Queued.record := by
  unfold markTaken
  rw [List.map_append, List.map_map, show Queued.record ∘ (fun x : Queued => { x with inDelivery := true }) = Queued.record from rfl,
    ← List.map_append, List.take_append_drop]

theorem markTaken_inDelivery {n : Nat} {q : List Queued} (h : n ≤ q.length) : (markTaken n q).map Queued.inDelivery =
    List.replicate n true ++ (q.drop n).map Queued.inDelivery := by
  unfold markTaken
  rw [List.map_append, List.map_map,
    show Queued.inDelivery ∘ (fun x : Queued => { x with inDelivery := true }) = fun _ => true from rfl, List.map_const',
    List.length_take, Nat.min_eq_left h]

/-- Settles O40: the start of a delivery, its conditions, and the count of the records that fit. -/
theorem deliveriesStart : Obligations.DeliveriesStart := by
  unfold Obligations.DeliveriesStart
  refine ⟨fun s st p ps hc hp => ⟨?starts, fun dt s0 h hw => ?expires⟩, fun s st q n hq hn => ?conditions,
    fun room h q => ⟨rfl, rfl⟩⟩
  case starts =>
    refine ⟨_, s.newDelivery st p, congrArg Host.Outcome.next (State.startDelivery_starts hc hp), ?_⟩
    obtain ⟨htime, hlink⟩ := (State.startDelivery_starts hc hp ▸ State.startDelivery_quiet s st).steady
    rw [State.beginDelivery_eq] at htime hlink ⊢
    rw [State.pagesLowTest_store, State.pagesLowTest_sites, State.pagesLowTest_print, State.pagesLowTest_van,
      State.pagesLowTest_attends]
    refine ⟨(PerStream.get_set _ st st _).trans (if_pos rfl), rfl, rfl, rfl, rfl, rfl,
      fun h => RecordStore.releaseWaiting_empty h, fun o ho => ⟨(PerStream.get_set _ st o _).trans (if_neg ho.symm),
        (PerStream.get_set _ st o _).trans (if_neg ho.symm)⟩, ?_, ?_, Iff.rfl, htime, hlink, rfl, rfl, rfl⟩
    · exact (congrArg (List.map Queued.record) ((PerStream.get_set _ st st _).trans (if_pos rfl))).trans
        (markTaken_record _ _)
    · exact (congrArg (List.map Queued.inDelivery) ((PerStream.get_set _ st st _).trans (if_pos rfl))).trans
        (markTaken_inDelivery (fitCount_le _ _))
  case expires =>
    subst h
    exact if_pos hw
  case conditions =>
    subst hq hn
    refine ⟨s.canDeliver_iff st, s.headWaited_iff st,
      fun hc => congrArg Host.Outcome.next (State.startDelivery_refused hc), fun dt h => ?_⟩
    cases hw : (s.elapse dt).headWaited st with
    | false => exact if_neg (Bool.eq_false_iff.mp hw)
    | true =>
      refine (if_pos hw).trans (congrArg Host.Outcome.next (State.startDelivery_refused ?_))
      exact h.resolve_left (Bool.eq_false_iff.not_left.mpr hw)

/-! ## The stages of a delivery (R130, R131) -/

section

variable (dt : Nat) {s : State} {st : Stream} {d : Delivery} (h : s.store.deliveries.get st = some d)
include h

theorem exec_pageWriteDone : exec (.pageWriteDone dt st) s = .next ((s.elapse dt).nextStage st d) := by
  change execPageWriteDone dt st s = _
  unfold execPageWriteDone
  dsimp only
  rw [show (s.elapse dt).store.deliveries.get st = some d from h]

theorem exec_pageLinkWriteDone (hd : d.stage = .link) :
    exec (.pageLinkWriteDone dt st) s = .next ((s.elapse dt).publish st d) := by
  change execPageLinkWriteDone dt st s = _
  unfold execPageLinkWriteDone
  dsimp only
  rw [show (s.elapse dt).store.deliveries.get st = some d from h]
  exact if_pos hd

end

theorem State.nextStage_records (s : State) (st : Stream) {d : Delivery} (h : d.stage = .records) :
    s.nextStage st d = s.setDelivery st (some { d with
      stage := .header, lostInHeader := s.store.lostSincePage.get st
      access := ⟨.pageWrite, d.page.ref.window, d.page.ref.offset, [(0, s.pageHeader st d)], s.up⟩ }) := by
  unfold State.nextStage
  rw [h]

theorem State.nextStage_header (s : State) (st : Stream) {d : Delivery} (h : d.stage = .header) :
    s.nextStage st d = s.setDelivery st (some { d with stage := .link, access := s.linkAccess st d.page }) := by
  unfold State.nextStage
  rw [h]

theorem State.linkAccess_tail {s : State} {st : Stream} {t : Page} (h : s.store.tails.get st = some t) (p : Page) :
    s.linkAccess st p = ⟨.pageLinkWrite, t.ref.window, t.ref.offset + 20, [(0, refBytes p.ref)], s.up⟩ := by
  unfold State.linkAccess
  rw [h]

theorem State.linkAccess_start {s : State} {st : Stream} (h : s.store.tails.get st = none) (p : Page) :
    s.linkAccess st p = ⟨.streamStartWrite, 255, 24 + 8 * st.number, [(0, refBytes p.ref)], s.up⟩ := by
  unfold State.linkAccess
  rw [h]

/-- Settles O41: each stage of a delivery ends with one command, and the link's publishes the page. -/
theorem deliveriesRunToPublication : Obligations.DeliveriesRunToPublication := by
  unfold Obligations.DeliveriesRunToPublication
  refine fun dt s st d h => ⟨fun hd => ?records, fun a hd htail hstart => ?header, fun hd => ?link⟩
  case records =>
    rw [exec_pageWriteDone dt h, State.nextStage_records _ st hd]
    rfl
  case header =>
    have ha : (s.elapse dt).linkAccess st d.page = a := by
      cases ht : s.store.tails.get st with
      | none => exact (State.linkAccess_start (s := s.elapse dt) ht d.page).trans (hstart ht).symm
      | some t => exact (State.linkAccess_tail (s := s.elapse dt) ht d.page).trans (htail t ht).symm
    rw [exec_pageWriteDone dt h, State.nextStage_header _ st hd, ha]
    rfl
  case link =>
    rw [exec_pageLinkWriteDone dt h hd]
    rfl

end Sys2Proof.Machine

/-! # Jobs end, and the printer line (R126, R127, R149, R154)

A pin more or less on each site of a list, the waiting pages that the end of a job releases, what the end of a job
does block by block, and the table of the printer line. -/

namespace Sys2Proof.Machine

/-! ## One change for each time a site is named -/

section

variable {f : Site → Site} (hf : ∀ x, (f x).label = x.label)
include hf

theorem State.findSlot_modLabel (s : State) (n m : Nat) : (s.modLabel n f).findSlot m = s.findSlot m := by
  unfold State.modLabel
  split
  · exact State.findSlot_modSite s _ hf m
  · rfl

theorem modLabels_findSlot (ns : List Nat) (s : State) (m : Nat) :
    (ns.foldl (fun t n => t.modLabel n f) s).findSlot m = s.findSlot m := by
  induction ns generalizing s with
  | nil => rfl
  | cons n ns ih => exact (ih _).trans (State.findSlot_modLabel hf s n m)

theorem modLabels_siteOf (ns : List Nat) (s : State) (m : Nat) :
    (ns.foldl (fun t n => t.modLabel n f) s).siteOf m = (s.siteOf m).map f^[ns.count m] := by
  induction ns generalizing s with
  | nil => exact (congrFun Option.map_id _).symm
  | cons n ns ih =>
    rw [List.foldl_cons, ih, State.siteOf_modLabel s n m hf]
    by_cases h : m = n
    · rw [if_pos h, h, List.count_cons_self, Option.map_map]
      exact congrArg (Option.map · _) (Function.iterate_succ f _).symm
    · rw [if_neg h, List.count_cons_of_ne (Ne.symm h)]

/-- The site in a slot that its label finds. -/
theorem modLabels_site (ns : List Nat) {s : State} {k : Fin 8} {x : Site} (hx : s.site k = some x)
    (hk : s.findSlot x.label = some k) :
    (ns.foldl (fun t n => t.modLabel n f) s).site k = some (f^[ns.count x.label] x) := by
  have hsite := modLabels_siteOf hf ns s x.label
  unfold State.siteOf at hsite
  rw [modLabels_findSlot hf, hk, Option.bind_some, Option.bind_some, hx] at hsite
  exact hsite

end

/-- Nothing but the site table changes. -/
theorem State.modLabel_rest (s : State) (n : Nat) (f : Site → Site) : { s.modLabel n f with sites := s.sites } = s := by
  unfold State.modLabel State.modSite
  split
  · split <;> rfl
  · rfl

theorem modLabels_rest (f : Site → Site) (ns : List Nat) (s : State) :
    { ns.foldl (fun t n => t.modLabel n f) s with sites := s.sites } = s := by
  induction ns generalizing s with
  | nil => rfl
  | cons n ns ih =>
    have h := congrArg (fun t : State => { t with sites := s.sites }) (ih (s.modLabel n f))
    exact h.trans (State.modLabel_rest s n f)

theorem Site.dropPin_iterate (n : Nat) (x : Site) : Site.dropPin^[n] x = { x with pins := x.pins - n } := by
  induction n generalizing x with
  | zero => rfl
  | succ n ih =>
    rw [Function.iterate_succ_apply, ih]
    exact congrArg (fun p => { x with pins := p }) (show x.pins - 1 - n = x.pins - (n + 1) by omega)

theorem Site.takePin_iterate (n : Nat) (x : Site) : Site.takePin^[n] x = { x with pins := x.pins + n } := by
  induction n generalizing x with
  | zero => rfl
  | succ n ih =>
    rw [Function.iterate_succ_apply, ih]
    exact congrArg (fun p => { x with pins := p }) (show x.pins + 1 + n = x.pins + (n + 1) by omega)

/-! ## The waiting pages that go to the pool (R126) -/

theorem moveReleased_pinned {pinned : Page → Bool} {ps : List Page} (h : ∀ p, p ∈ ps → pinned p = true)
    (pool : List Page) : moveReleased pinned ps pool = (ps, pool) := by
  induction ps with
  | nil => rfl
  | cons p ps ih =>
    unfold moveReleased
    rw [if_pos (by rw [h p List.mem_cons_self]; rfl), ih fun q hq => h q (List.mem_cons_of_mem p hq)]

theorem RecordStore.releaseWaiting_pinned {r : RecordStore} (h : ∀ p, p ∈ r.waiting → r.pinned p = true) :
    r.releaseWaiting = r := by
  unfold RecordStore.releaseWaiting
  rw [moveReleased_pinned h]

theorem RecordStore.releaseWaiting_released {r : RecordStore} {p : Page} {ps : List Page} (hw : r.waiting = p :: ps)
    (hp : r.pinned p = false) (hl : r.pool.length < 256) :
    r.releaseWaiting = ({ r with waiting := ps, pool := r.pool ++ [p] } : RecordStore).releaseWaiting := by
  have hm : moveReleased r.pinned (p :: ps) r.pool = moveReleased r.pinned ps (r.pool ++ [p]) := by
    rw [moveReleased, if_neg]
    rw [hp, Bool.false_or, decide_eq_true_iff]
    exact Nat.not_le.mpr hl
  unfold RecordStore.releaseWaiting
  rw [hw, hm]
  rfl

/-! ## The end of a job (R154) -/

/-- The state after a job's pins are released. -/
def State.withoutPins (s : State) (j : Job) : State :=
  j.sites.foldl (fun t n => t.modLabel n Site.dropPin) { s with store := s.store.releasePins j.pages }

section

variable (s : State) (j : Job)

theorem State.withoutPins_store : (s.withoutPins j).store = s.store.releasePins j.pages := dropSitePins_store _ _

theorem State.withoutPins_rest : { s.withoutPins j with sites := s.sites, store := s.store } = s :=
  congrArg (fun t : State => { t with store := s.store })
    (modLabels_rest Site.dropPin j.sites { s with store := s.store.releasePins j.pages })

theorem State.withoutPins_print : (s.withoutPins j).print = s.print := (congrArg State.print (s.withoutPins_rest j) :)

theorem State.withoutPins_device : (s.withoutPins j).device = s.device :=
  (congrArg State.device (s.withoutPins_rest j) :)

theorem State.withoutPins_site {k : Fin 8} {x : Site} (hx : s.site k = some x) (hk : s.findSlot x.label = some k) :
    (s.withoutPins j).site k = some { x with pins := x.pins - j.sites.count x.label } :=
  (modLabels_site (f := Site.dropPin) (fun _ => rfl) j.sites (s := { s with store := s.store.releasePins j.pages })
    hx hk).trans (congrArg some (Site.dropPin_iterate _ x))

theorem State.endJob_eq (o : JobOutcome) (n : Nat) : s.endJob j o n =
    { ((s.withoutPins j).put 0 (.printEnded (printEnded j o n))).raise .print with
      print := { s.print with jobs := s.print.jobs.filter fun k => k.number != j.number } } := by
  have hp : (((s.withoutPins j).put 0 (.printEnded (printEnded j o n))).raise .print).print = s.print := by
    rw [State.raise_print, (State.put_aside _ _ _).print, State.withoutPins_print]
  rw [← hp]
  rfl

end

theorem RecordStore.releasePins_total (r : RecordStore) (ps : List Page) : (r.releasePins ps).total = r.total := rfl

theorem entryLength_printEnded (e : PrintEnded) : entryLength (.printEnded e) = 48 := by
  simp [entryLength, EntryBody.variablePart, pad4]

theorem JournalState.taken_next (j : JournalState) :
    j.taken.next = if j.next = 4294967295 then 4294967295 else j.next + 1 :=
  ite_congr rfl id fun _ => rfl

/-- The device journal after an admitted entry of its own (R104). -/
theorem State.put_device_next {s : State} {b : EntryBody} (ha : s.admitsEntry s.device.state b = true) :
    (s.put 0 b).device.state = s.device.state.taken := by
  rw [State.put_device, State.enter_of_admits (s.journalOf_device b) ha, State.countEntry_device,
    State.addRecords_device]
  rfl

theorem State.endJob_next {s : State} (he : s.device.state.exhausted = false) (hr : s.store.total + 48 ≤ 524288)
    (j : Job) (o : JobOutcome) (n : Nat) : (s.endJob j o n).device.state = s.device.state.taken := by
  have hd := s.withoutPins_device j
  rw [State.endJob_eq, ← hd]
  refine State.put_device_next ((State.admitsEntry_iff _ _ _).mpr ?_)
  rw [hd, State.withoutPins_store, RecordStore.releasePins_total, entryLength_printEnded]
  exact ⟨he, hr⟩

/-- Settles O43: the end of a job part by part, and the waiting pages one by one. -/
theorem jobsEndWhole : Obligations.JobsEndWhole := by
  unfold Obligations.JobsEndWhole
  refine ⟨fun s j o n => ⟨s.withoutPins j, _, s.withoutPins_rest j, s.withoutPins_store j,
      fun k x hx hk => s.withoutPins_site j hx hk, rfl, s.endJob_eq j o n⟩,
    fun s j o n => ⟨_, rfl, s.endJob_print j o n, ?_⟩,
    fun r => ⟨RecordStore.releaseWaiting_pinned, fun p ps => RecordStore.releaseWaiting_released⟩⟩
  obtain ⟨hpages, hsites, -, hattends⟩ := s.endJob_pins j o n
  obtain ⟨⟨htime, hlink⟩, hcores⟩ := s.endJob_quiet j o n
  obtain ⟨hfe, hcheck, hwatch, hsag, hinterval⟩ := s.endJob_measuring j o n
  refine ⟨hattends, hpages, htime, hlink, hcores, hfe, hcheck, hwatch, hsag, hinterval, fun k x hx hk => ?_,
    fun he hr => (congrArg JournalState.next (State.endJob_next he hr j o n)).trans (JournalState.taken_next _)⟩
  obtain ⟨y, hy, -, -, hpins⟩ := hsites k x hx hk
  exact ⟨y, hy, hpins⟩

/-! ## The printer line (R149) -/

section

variable {p : PrintEngine}

theorem PrintEngine.judge_absent (h : p.judged = false ∨ p.present = false) : p.judge = .absent :=
  if_pos (h.imp Bool.eq_false_iff.mp Bool.eq_false_iff.mp)

variable (hj : p.judged = true) (hp : p.present = true)
include hj hp

theorem PrintEngine.judge_paper (h : p.paperOut = true ∨ p.paperHold.isSome = true) : p.judge = .heldPaper :=
  (if_neg (by simp [hj, hp])).trans (if_pos h)

variable (ho : p.paperOut = false) (hh : p.paperHold = none)
include ho hh

theorem PrintEngine.judge_heat (h : p.headHot = true ∨ p.heatHold.isSome = true) : p.judge = .heldHeat :=
  (if_neg (by simp [hj, hp])).trans ((if_neg (by simp [ho, hh])).trans (if_pos h))

variable (hhot : p.headHot = false) (hheat : p.heatHold = none)
include hhot hheat

/-- With no signal in force the line follows the part's own sending and the Busy line. -/
theorem PrintEngine.judge_free : p.judge = if p.stall.isSome then .stalled else if p.frame.isSome then .sending
    else if p.busy = false then .ready else if p.line = .heldPaper then .heldPaper
    else if p.line = .heldHeat then .heldHeat else .stalled := by
  unfold PrintEngine.judge
  rw [if_neg (by simp [hj, hp]), if_neg (by simp [ho, hh]), if_neg (by simp [hhot, hheat])]
  simp only [Bool.not_eq_true]
  cases p.line <;> rfl

end

/-- Settles O45: the rows of the line's table in their order. -/
theorem thePrinterLineFollowsItsTable : Obligations.ThePrinterLineFollowsItsTable := by
  unfold Obligations.ThePrinterLineFollowsItsTable
  refine fun p => ⟨PrintEngine.judge_absent, fun hj hp => ⟨PrintEngine.judge_paper hj hp, fun ho hh =>
    ⟨PrintEngine.judge_heat hj hp ho hh, fun hhot hheat => ?_⟩⟩⟩
  rw [PrintEngine.judge_free hj hp ho hh hhot hheat]
  refine ⟨fun hs => if_pos hs, fun hs hf => ?_, fun hs hf hb => ?_, fun hs hf hb => ?_⟩
  · rw [if_neg (by rw [hs]; decide), if_pos hf]
  · rw [if_neg (by rw [hs]; decide), if_neg (by rw [hf]; decide), if_pos hb]
  · rw [if_neg (by rw [hs]; decide), if_neg (by rw [hf]; decide), if_neg (by rw [hb]; decide)]

end Sys2Proof.Machine

/-! # The items of a print order, and the pins of its pages (R127, R139, R140)

Which entries of a Queue Print body are items in their ranges, what each item names, and the judgement of a pin
request as a whole. -/

namespace Sys2Proof.Machine

/-! ## The fields of a body -/

theorem fromLe_lt (b : List Byte) : fromLe b < 256 ^ b.length := by
  induction b with
  | nil => exact Nat.one_pos
  | cons x b ih =>
    have hx := x.isLt
    rw [fromLe, List.length_cons, pow_succ]
    omega

theorem field_lt (b : List Byte) (o n : Nat) : field b o n < 256 ^ n :=
  (fromLe_lt _).trans_le (Nat.pow_le_pow_right (by decide) (List.length_take_le _ _))

theorem labelOk_field (b : List Byte) (o : Nat) : labelOk (field b o 2) = true ↔ 1 ≤ field b o 2 := by
  have h := field_lt b o 2
  rw [labelOk_iff]
  omega

/-! ## One item (R139) -/

section

variable {e : List Byte}

theorem parseItem_text (h : field e 0 1 = 0) : parseItem e = if field e 1 1 ≠ 4 + pad4 (field e 2 1) then none
    else if field e 2 1 ≤ 120 then some (.plain (.text (((e.drop 4).take (field e 2 1)).map textByte))) else none := by
  unfold parseItem entryLengthOf
  rw [h]
  rfl

theorem parseItem_header (h : field e 0 1 = 1) : parseItem e = if field e 1 1 ≠ 8 then none
    else if labelOk (field e 4 2) then some (.sited (field e 4 2) (.siteHeader (field e 4 2) (field e 2 1 != 0)))
    else none := by
  unfold parseItem entryLengthOf
  rw [h]
  rfl

theorem parseItem_table (h : field e 0 1 = 2) : parseItem e = if field e 1 1 ≠ 8 then none
    else if labelOk (field e 4 2) ∧ 1 ≤ field e 2 1 ∧ field e 2 1 ≤ 32 then
      some (.sited (field e 4 2) (.eventTable (field e 4 2) (field e 2 1)))
    else none := by
  unfold parseItem entryLengthOf
  rw [h]
  rfl

theorem parseItem_interval (h : field e 0 1 = 4) : parseItem e = if field e 1 1 ≠ 16 then none
    else pagedItem e 4 none 1 := by
  unfold parseItem entryLengthOf
  rw [h]
  rfl

theorem parseItem_note (h : field e 0 1 = 5) : parseItem e = if field e 1 1 ≠ 16 then none
    else pagedItem e 5 none 0 := by
  unfold parseItem entryLengthOf
  rw [h]
  rfl

theorem parseItem_strip (h : field e 0 1 = 6) : parseItem e = if field e 1 1 ≠ 16 then none
    else (Input.ofNumber (field e 2 1)).bind fun i => pagedItem e 6 (some i) 1 := by
  unfold parseItem entryLengthOf
  rw [h]
  cases Input.ofNumber (field e 2 1) <;> rfl

theorem parseItem_feed (h : field e 0 1 = 7) : parseItem e = if field e 1 1 ≠ 4 then none
    else if 1 ≤ field e 2 1 ∧ field e 2 1 ≤ 20 then some (.plain (.feed (field e 2 1))) else none := by
  unfold parseItem entryLengthOf
  rw [h]
  rfl

theorem parseItem_rule (h : field e 0 1 = 8) : parseItem e = if field e 1 1 ≠ 4 then none
    else some (.plain .rule) := by
  unfold parseItem entryLengthOf
  rw [h]
  rfl

theorem parseItem_unknown (h : field e 0 1 ∉ [0, 1, 2, 4, 5, 6, 7, 8]) : parseItem e = none := by
  unfold parseItem
  split
  · rfl
  · split <;> simp_all

theorem offsetOk_iff (n : Nat) : offsetOk n = true ↔ 64 ≤ n ∧ n % 4 = 0 := decide_eq_true_iff

theorem pagedItem_iff (k : Nat) (input : Option Input) (n : Nat) (i : RawItem) : pagedItem e k input n = some i ↔
    n ≤ field e 4 2 ∧ 64 ≤ field e 6 2 ∧ field e 6 2 % 4 = 0 ∧ i = .paged (pageFields e) input k := by
  change (if n ≤ field e 4 2 ∧ offsetOk (field e 6 2) = true then some (RawItem.paged (pageFields e) input k)
    else none) = some i ↔ _
  rw [Option.ite_none_right_eq_some, offsetOk_iff, Option.some.injEq, and_assoc, and_assoc, eq_comm (a := i)]

theorem Input.ofNumber_iff (n : Nat) (i : Input) : Input.ofNumber n = some i ↔ i.number = n := by
  constructor
  · intro h
    obtain ⟨hn, -⟩ := List.getElem?_eq_some_iff.mp h
    have hn8 : n < 8 := hn
    interval_cases n <;> cases h <;> rfl
  · rintro rfl
    cases i <;> rfl

theorem Input.ofNumber_lt {n : Nat} (h : n ≤ 7) : ∃ i, Input.ofNumber n = some i := by
  interval_cases n <;> exact ⟨_, rfl⟩

theorem Input.number_le (i : Input) : i.number ≤ 7 := by cases i <;> decide

/-- An entry and the item it is, kind by kind. -/
def ItemOf (e : List Byte) (i : RawItem) : Prop :=
  (field e 0 1 = 0 ∧ field e 1 1 = 4 + (field e 2 1 + 3) / 4 * 4 ∧ field e 2 1 ≤ 120
      ∧ i = .plain (.text (((e.drop 4).take (field e 2 1)).map textByte)))
  ∨ (field e 0 1 = 1 ∧ field e 1 1 = 8 ∧ 1 ≤ field e 4 2
      ∧ i = .sited (field e 4 2) (.siteHeader (field e 4 2) (field e 2 1 != 0)))
  ∨ (field e 0 1 = 2 ∧ field e 1 1 = 8 ∧ (1 ≤ field e 4 2 ∧ 1 ≤ field e 2 1 ∧ field e 2 1 ≤ 32)
      ∧ i = .sited (field e 4 2) (.eventTable (field e 4 2) (field e 2 1)))
  ∨ (field e 0 1 = 4 ∧ field e 1 1 = 16 ∧ (1 ≤ field e 4 2 ∧ 64 ≤ field e 6 2 ∧ field e 6 2 % 4 = 0)
      ∧ i = .paged (pageFields e) none 4)
  ∨ (field e 0 1 = 5 ∧ field e 1 1 = 16 ∧ (64 ≤ field e 6 2 ∧ field e 6 2 % 4 = 0)
      ∧ i = .paged (pageFields e) none 5)
  ∨ (field e 0 1 = 6 ∧ field e 1 1 = 16 ∧ ∃ input, input.number = field e 2 1
      ∧ (1 ≤ field e 4 2 ∧ 64 ≤ field e 6 2 ∧ field e 6 2 % 4 = 0) ∧ i = .paged (pageFields e) (some input) 6)
  ∨ (field e 0 1 = 7 ∧ field e 1 1 = 4 ∧ (1 ≤ field e 2 1 ∧ field e 2 1 ≤ 20) ∧ i = .plain (.feed (field e 2 1)))
  ∨ (field e 0 1 = 8 ∧ field e 1 1 = 4 ∧ i = .plain .rule)

theorem itemOf_kind {i : RawItem} (h : ItemOf e i) : field e 0 1 ∈ [0, 1, 2, 4, 5, 6, 7, 8] := by
  rcases h with h | h | h | h | h | h | h | h <;> rw [h.1] <;> decide

/-- An entry is the item that its kind makes of it (R139). -/
theorem parseItem_iff (i : RawItem) : parseItem e = some i ↔ ItemOf e i := by
  by_cases hk : field e 0 1 ∈ [0, 1, 2, 4, 5, 6, 7, 8]
  case neg =>
    rw [parseItem_unknown hk]
    exact ⟨fun h => (nomatch h), fun h => absurd (itemOf_kind h) hk⟩
  simp only [List.mem_cons, List.not_mem_nil, or_false] at hk
  unfold ItemOf
  rcases hk with h | h | h | h | h | h | h | h
  case inl => simp [parseItem_text h, h, pad4, eq_comm (a := i)]
  case inr.inl => simp [parseItem_header h, h, labelOk_field, eq_comm (a := i)]
  case inr.inr.inl => simp [parseItem_table h, h, labelOk_field, and_assoc, eq_comm (a := i)]
  case inr.inr.inr.inl => simp [parseItem_interval h, h, pagedItem_iff, and_assoc]
  case inr.inr.inr.inr.inl => simp [parseItem_note h, h, pagedItem_iff, and_assoc]
  case inr.inr.inr.inr.inr.inl =>
    simp [parseItem_strip h, h, pagedItem_iff, Option.bind_eq_some_iff, Input.ofNumber_iff, and_assoc]
  case inr.inr.inr.inr.inr.inr.inl => simp [parseItem_feed h, h, eq_comm (a := i)]
  case inr.inr.inr.inr.inr.inr.inr => simp [parseItem_rule h, h, eq_comm (a := i)]

theorem parseItem_ne_none_iff : parseItem e ≠ none ↔ ∃ i, ItemOf e i := by
  rw [Option.ne_none_iff_exists']
  exact exists_congr fun i => parseItem_iff i

/-- The entries that are an item, by kind and fields (R139). -/
theorem itemOf_exists_iff : (∃ i, ItemOf e i) ↔
    (field e 0 1 = 0 ∧ field e 1 1 = 4 + (field e 2 1 + 3) / 4 * 4 ∧ field e 2 1 ≤ 120)
    ∨ (field e 0 1 = 1 ∧ field e 1 1 = 8 ∧ 1 ≤ field e 4 2)
    ∨ (field e 0 1 = 2 ∧ field e 1 1 = 8 ∧ 1 ≤ field e 4 2 ∧ 1 ≤ field e 2 1 ∧ field e 2 1 ≤ 32)
    ∨ (field e 0 1 ∈ [4, 6] ∧ field e 1 1 = 16 ∧ 1 ≤ field e 4 2 ∧ 64 ≤ field e 6 2 ∧ field e 6 2 % 4 = 0
      ∧ (field e 0 1 = 6 → field e 2 1 ≤ 7))
    ∨ (field e 0 1 = 5 ∧ field e 1 1 = 16 ∧ 64 ≤ field e 6 2 ∧ field e 6 2 % 4 = 0)
    ∨ (field e 0 1 = 7 ∧ field e 1 1 = 4 ∧ 1 ≤ field e 2 1 ∧ field e 2 1 ≤ 20)
    ∨ (field e 0 1 = 8 ∧ field e 1 1 = 4) := by
  have hinput : (∃ i : Input, i.number = field e 2 1) ↔ field e 2 1 ≤ 7 :=
    ⟨fun ⟨i, hi⟩ => hi ▸ Input.number_le i, fun h => (Input.ofNumber_lt h).imp fun i hi => (Input.ofNumber_iff _ _).mp hi⟩
  by_cases hk : field e 0 1 ∈ [0, 1, 2, 4, 5, 6, 7, 8]
  case neg =>
    refine ⟨fun ⟨i, h⟩ => absurd (itemOf_kind h) hk, fun h => absurd ?_ hk⟩
    simp only [List.mem_cons, List.not_mem_nil, or_false] at h ⊢
    omega
  simp only [List.mem_cons, List.not_mem_nil, or_false] at hk
  unfold ItemOf
  rcases hk with h | h | h | h | h | h | h | h <;> simp [h, ← hinput, and_assoc, and_comm, and_left_comm]

end

/-! ## What an item names (R139, R140) -/

section

variable {e : List Byte} {i : RawItem} (h : ItemOf e i)

/-- A sound reference of a page item (step 4 of R140). -/
def PageItemSound (lp : LinkPort) (e : List Byte) : Prop :=
  field e 6 2 ≤ 8176 ∧ (parseRef e 8).reserved = 0 ∧ ∃ h : (parseRef e 8).window < 16, ∃ w : Window,
    lp.windows[(parseRef e 8).window] = some w ∧ (parseRef e 8).offset + 8192 ≤ w.length ∧ w.read = true
      ∧ (w.base + (parseRef e 8).offset) % 8192 = 0

theorem refOk_paged_iff (lp : LinkPort) (e : List Byte) (input : Option Input) (k : Nat) :
    (RawItem.paged (pageFields e) input k).refOk lp = true ↔ PageItemSound lp e := by
  change (lp.pageSound (parseRef e 8) false && decide (field e 6 2 ≤ 8176)) = true ↔ _
  rw [Bool.and_eq_true, decide_eq_true_iff, pageSound_iff, and_comm]
  rfl

include h

theorem itemOf_label : i.label = if field e 0 1 ∈ [1, 2, 4, 5, 6] then field e 4 2 else 0 := by
  rcases h with ⟨hk, -, -, rfl⟩ | ⟨hk, -, -, rfl⟩ | ⟨hk, -, -, rfl⟩ | ⟨hk, -, -, rfl⟩ | ⟨hk, -, -, rfl⟩
    | ⟨hk, -, input, -, -, rfl⟩ | ⟨hk, -, -, rfl⟩ | ⟨hk, -, rfl⟩ <;> rw [hk] <;> rfl

theorem itemOf_page (lp : LinkPort) :
    i.page lp = if field e 0 1 ∈ [4, 5, 6] then [⟨parseRef e 8, lp.bus (parseRef e 8)⟩] else [] := by
  rcases h with ⟨hk, -, -, rfl⟩ | ⟨hk, -, -, rfl⟩ | ⟨hk, -, -, rfl⟩ | ⟨hk, -, -, rfl⟩ | ⟨hk, -, -, rfl⟩
    | ⟨hk, -, input, -, -, rfl⟩ | ⟨hk, -, -, rfl⟩ | ⟨hk, -, rfl⟩ <;> rw [hk] <;> rfl

theorem itemOf_refOk (lp : LinkPort) : (field e 0 1 ∉ [4, 5, 6] → i.refOk lp = true)
    ∧ (field e 0 1 ∈ [4, 5, 6] → (i.refOk lp = true ↔ PageItemSound lp e)) := by
  rcases h with ⟨hk, -, -, rfl⟩ | ⟨hk, -, -, rfl⟩ | ⟨hk, -, -, rfl⟩ | ⟨hk, -, -, rfl⟩ | ⟨hk, -, -, rfl⟩
    | ⟨hk, -, input, -, -, rfl⟩ | ⟨hk, -, -, rfl⟩ | ⟨hk, -, rfl⟩ <;> rw [hk]
  case inr.inr.inr.inl => exact ⟨fun hn => absurd (by decide) hn, fun _ => refOk_paged_iff lp e _ _⟩
  case inr.inr.inr.inr.inl => exact ⟨fun hn => absurd (by decide) hn, fun _ => refOk_paged_iff lp e _ _⟩
  case inr.inr.inr.inr.inr.inl => exact ⟨fun hn => absurd (by decide) hn, fun _ => refOk_paged_iff lp e _ _⟩
  all_goals exact ⟨fun _ => rfl, fun hm => absurd hm (by decide)⟩

/-- The item that a job takes from an entry, kind by kind. -/
theorem itemOf_item (lp : LinkPort) {p : Page} (hp : p = ⟨parseRef e 8, lp.bus (parseRef e 8)⟩) :
    (field e 0 1 = 0 → i.item lp = .text (((e.drop 4).take (field e 2 1)).map textByte))
    ∧ (field e 0 1 = 1 → i.item lp = .siteHeader (field e 4 2) (field e 2 1 != 0))
    ∧ (field e 0 1 = 2 → i.item lp = .eventTable (field e 4 2) (field e 2 1))
    ∧ (field e 0 1 = 4 → i.item lp = .interval (field e 4 2) p (field e 6 2))
    ∧ (field e 0 1 = 5 → i.item lp = .note (field e 4 2) p (field e 6 2))
    ∧ (field e 0 1 = 6 → ∃ input, input.number = field e 2 1
      ∧ i.item lp = .captureStrip (field e 4 2) p (field e 6 2) input)
    ∧ (field e 0 1 = 7 → i.item lp = .feed (field e 2 1)) ∧ (field e 0 1 = 8 → i.item lp = .rule) := by
  subst hp
  rcases h with ⟨hk, -, -, rfl⟩ | ⟨hk, -, -, rfl⟩ | ⟨hk, -, -, rfl⟩ | ⟨hk, -, -, rfl⟩ | ⟨hk, -, -, rfl⟩
    | ⟨hk, -, input, hi, -, rfl⟩ | ⟨hk, -, -, rfl⟩ | ⟨hk, -, rfl⟩ <;> rw [hk]
  case inr.inr.inr.inr.inr.inl => simpa using ⟨input, hi, rfl⟩
  all_goals simp [RawItem.item, pageFields]

end

/-! ## The entries of a body (R140) -/

theorem splitItems_short {n : Nat} {b : List Byte} (h : b.length < 2 ∨ b.length < field b 1 1) :
    splitItems (n + 1) b = none := if_pos h

theorem splitItems_entry {n : Nat} {b : List Byte} (h2 : 2 ≤ b.length) (hl : field b 1 1 ≤ b.length) :
    splitItems (n + 1) b =
      (splitItems n (b.drop (field b 1 1))).map fun l => b.take (max 2 (field b 1 1)) :: l :=
  if_neg (by omega)

theorem parseItems_iff (es : List (List Byte)) (is : List RawItem) :
    parseItems es = some is ↔ es.map parseItem = is.map some := by
  induction es generalizing is with
  | nil => cases is <;> simp [parseItems]
  | cons e es ih =>
    unfold parseItems
    cases he : parseItem e with
    | none => cases is <;> simp [he]
    | some i =>
      cases hes : parseItems es with
      | none =>
        cases is with
        | nil => simp
        | cons j js => simpa [he, hes] using fun _ : i = j => (ih js).not.mp (by simp [hes])
      | some l =>
        cases is with
        | nil => simp
        | cons j js => simp [he, ← ih, hes]

/-! ## A pin request (R127) -/

section

variable {m : RecordStore} {ps : List Page}

/-- A page of a request is free: it stands in the pool or in a delivery. -/
theorem RecordStore.free_iff (m : RecordStore) (p : Page) : (holdsPage m.pool p || m.inFlight p) = true ↔
    (∃ q, q ∈ m.pool ∧ q.bus = p.bus) ∨ ∃ st d, m.deliveries.get st = some d ∧ d.page.bus = p.bus := by
  rw [Bool.or_eq_true, holdsPage_iff, inFlight_iff]

theorem requestPins_free (h : ∃ p, p ∈ ps ∧ ((∃ q, q ∈ m.pool ∧ q.bus = p.bus)
    ∨ ∃ st d, m.deliveries.get st = some d ∧ d.page.bus = p.bus)) : m.requestPins ps = .error .freePage := by
  refine if_pos (List.any_eq_true.mpr ?_)
  obtain ⟨p, hp, hf⟩ := h
  exact ⟨p, hp, (m.free_iff p).mpr hf⟩

/-- A request without a free page is judged by the room of the pin table. -/
theorem requestPins_kept (h : ∀ p, p ∈ ps → (∀ q, q ∈ m.pool → q.bus ≠ p.bus)
      ∧ ∀ st d, m.deliveries.get st = some d → d.page.bus ≠ p.bus) : m.requestPins ps =
    if 64 < m.pins.length + (ps.filter fun p => !m.pinned p).length then .error .pinTableFull
    else .ok { m with pins := ps.foldl addPin m.pins } := by
  refine if_neg fun ha => ?_
  obtain ⟨p, hp, hf⟩ := List.any_eq_true.mp ha
  obtain ⟨hpool, hdel⟩ := h p hp
  rcases (m.free_iff p).mp hf with ⟨q, hq, hb⟩ | ⟨st, d, hd, hb⟩
  · exact hpool q hq hb
  · exact hdel st d hd hb

end

end Sys2Proof.Machine

/-! # Print orders (R136 to R140, R155)

Queue Print by its refusals in their order and by the job that it creates, and Cancel Print by the state of its
job. -/

namespace Sys2Proof.Machine

/-! ## The distinct sites of a job -/

theorem mem_of_mem_eraseDups {l : List Nat} {n : Nat} (h : n ∈ l.eraseDups) : n ∈ l := by
  induction hl : l.length using Nat.strong_induction_on generalizing l with
  | _ len ih =>
    cases l with
    | nil => exact h
    | cons a as =>
      rw [List.eraseDups_cons] at h
      rcases List.mem_cons.mp h with rfl | h
      · exact List.mem_cons_self
      · refine List.mem_cons_of_mem a (List.mem_filter.mp (ih _ ?_ h rfl)).1
        rw [← hl]
        exact Nat.lt_succ_of_le (List.length_filter_le _ as)

theorem eraseDups_nodup (l : List Nat) : l.eraseDups.Nodup := by
  induction hl : l.length using Nat.strong_induction_on generalizing l with
  | _ len ih =>
    cases l with
    | nil => exact List.nodup_nil
    | cons a as =>
      rw [List.eraseDups_cons, List.nodup_cons]
      refine ⟨fun h => ?_, ih _ ?_ _ rfl⟩
      · have hf := (List.mem_filter.mp (mem_of_mem_eraseDups h)).2
        simp at hf
      · rw [← hl]
        exact Nat.lt_succ_of_le (List.length_filter_le _ as)

theorem distinctSites_nodup (ns : List Nat) : (distinctSites ns).Nodup := eraseDups_nodup _

/-! ## The job that is created (R136 to R138) -/

/-- The state in which each site of a list has one pin more. -/
def State.withPins (s : State) (ns : List Nat) : State := ns.foldl (fun t n => t.modLabel n Site.takePin) s

theorem State.withPins_rest (s : State) (ns : List Nat) : { s.withPins ns with sites := s.sites } = s :=
  modLabels_rest Site.takePin ns s

theorem State.withPins_site {s : State} {ns : List Nat} (hn : ns.Nodup) {k : Fin 8} {x : Site}
    (hx : s.site k = some x) (hk : s.findSlot x.label = some k) : (s.withPins ns).site k =
      some { x with pins := if x.label ∈ ns then x.pins + 1 else x.pins } := by
  refine (modLabels_site (f := Site.takePin) (fun _ => rfl) ns hx hk).trans (congrArg some ?_)
  rw [Site.takePin_iterate, hn.count]
  split <;> rfl

theorem nextFrom1_eq (n : Nat) : nextFrom1 n = if 65535 ≤ n then 1 else n + 1 := rfl

theorem freeNumber_of_free {jobs : List Job} {n : Nat} (h : ∀ j, j ∈ jobs → j.number ≠ n) (fuel : Nat) :
    freeNumber fuel jobs n = n := by
  cases fuel with
  | zero => rfl
  | succ fuel =>
    unfold freeNumber
    refine if_neg fun ha => ?_
    obtain ⟨j, hj, hn⟩ := List.any_eq_true.mp ha
    exact h j hj (beq_iff_eq.mp hn)

/-! ## Queue Print (R140) -/

section

variable {s t : State} {b : QueuePrintBody} {r : Nat}

theorem takes_queuePrint {code : ResultCode} {area : List Byte} (h : s.queuePrint b r = ⟨t, code, area⟩) :
    Takes (.queuePrint b r) (.queuePrint b r) s t code area := takes_of_answer (g := (·.queuePrint b r)) rfl h

theorem State.queuePrint_badOrder (h : r < 4 ∨ splitItems b.itemCount b.items = none) :
    s.queuePrint b r = refuse s .badOrder := by
  unfold State.queuePrint
  rcases h with h | h
  · exact if_pos h
  · rw [h, ite_self]

theorem State.queuePrint_badValue {es : List (List Byte)} (hr : 4 ≤ r) (hs : splitItems b.itemCount b.items = some es)
    (h : b.copies = 0 ∨ 9 < b.copies ∨ b.itemCount = 0 ∨ 32 < b.itemCount ∨ parseItems es = none) :
    s.queuePrint b r = refuse s .badValue := by
  unfold State.queuePrint
  rw [if_neg (Nat.not_lt.mpr hr), hs]
  dsimp only
  by_cases hc : b.copies < 1 ∨ 9 < b.copies ∨ b.itemCount < 1 ∨ 32 < b.itemCount
  · exact if_pos hc
  · have hp : parseItems es = none := by
      rcases h with h | h | h | h | h
      case inr.inr.inr.inr => exact h
      all_goals exact absurd hc (by omega)
    rw [if_neg hc, hp]

variable {es : List (List Byte)} {is : List RawItem}

/-- A body whose counts and items are in range is judged by its sites, its pages and the queue (R140). -/
theorem State.queuePrint_parsed (hr : 4 ≤ r) (hs : splitItems b.itemCount b.items = some es)
    (hp : parseItems es = some is) (hc1 : 1 ≤ b.copies) (hc2 : b.copies ≤ 9) (hi1 : 1 ≤ b.itemCount)
    (hi2 : b.itemCount ≤ 32) : s.queuePrint b r = s.judgeJob b.copies is := by
  unfold State.queuePrint
  rw [if_neg (Nat.not_lt.mpr hr), hs]
  dsimp only
  rw [if_neg (by omega), hp]

end

section

variable {s : State} {c : Nat} {is : List RawItem}

/-- Every site that an item names is there (step 3 of R140). -/
def State.sitesKnown (s : State) (is : List RawItem) : Prop :=
  ∀ i, i ∈ is → i.label = 0 ∨ (s.findSlot i.label).isSome = true

theorem State.judgeJob_unknownSite {i : RawItem} (hi : i ∈ is) (hl : i.label ≠ 0) (hf : s.findSlot i.label = none) :
    s.judgeJob c is = refuse s .unknownSite := by
  refine if_pos (List.any_eq_true.mpr ⟨i, hi, ?_⟩)
  rw [hf, Bool.and_eq_true, bne_iff_ne]
  exact ⟨hl, rfl⟩

theorem State.sitesKnown.none_missing (h : s.sitesKnown is) :
    ¬ (is.any fun i => i.label != 0 && (s.findSlot i.label).isNone) = true := fun ha => by
  obtain ⟨i, hi, hn⟩ := List.any_eq_true.mp ha
  obtain ⟨hl, hf⟩ := Bool.and_eq_true_iff.mp hn
  have hs := (h i hi).resolve_left (bne_iff_ne.mp hl)
  rw [Option.isNone_iff_eq_none.mp hf] at hs
  cases hs

theorem State.judgeJob_badReference (hk : s.sitesKnown is) {i : RawItem} (hi : i ∈ is) (hr : i.refOk s.lp = false) :
    s.judgeJob c is = refuse s .badReference := by
  refine (if_neg hk.none_missing).trans (if_pos (List.any_eq_true.mpr ⟨i, hi, ?_⟩))
  rw [hr]
  rfl

variable (hk : s.sitesKnown is) (hr : ∀ i, i ∈ is → i.refOk s.lp = true)

include hr in
theorem refsOk_none_bad : ¬ (is.any fun i => !i.refOk s.lp) = true := fun ha => by
  obtain ⟨i, hi, hn⟩ := List.any_eq_true.mp ha
  rw [hr i hi] at hn
  cases hn

include hk hr

theorem State.judgeJob_queueFull (h : 8 ≤ s.print.jobs.length) : s.judgeJob c is = refuse s .queueFull :=
  (if_neg hk.none_missing).trans ((if_neg (refsOk_none_bad hr)).trans (if_pos h))

variable (hq : s.print.jobs.length < 8)
include hq

theorem State.judgeJob_pinsRefused {code : ResultCode}
    (h : s.store.requestPins (distinctPages (is.flatMap (RawItem.page s.lp))) = .error code) :
    s.judgeJob c is = refuse s code := by
  unfold State.judgeJob
  rw [if_neg hk.none_missing, if_neg (refsOk_none_bad hr), if_neg (c := Config.printQueueMax ≤ _) (Nat.not_le.mpr hq), h]

theorem State.judgeJob_accepted {g : RecordStore}
    (h : s.store.requestPins (distinctPages (is.flatMap (RawItem.page s.lp))) = .ok g) :
    s.judgeJob c is = s.queueJob c is g := by
  unfold State.judgeJob
  rw [if_neg hk.none_missing, if_neg (refsOk_none_bad hr), if_neg (c := Config.printQueueMax ≤ _) (Nat.not_le.mpr hq), h]

end

/-! ## An accepted Queue Print -/

/-- The job that an accepted Queue Print creates (R136, R137). -/
def State.orderedJob (s : State) (c : Nat) (is : List RawItem) : Job :=
  ⟨s.print.nextJob, .order, .queued, false, c, 1, is.map (RawItem.item s.lp), 1, 1, none, 0,
    distinctSites (is.map RawItem.label), distinctPages (is.flatMap (RawItem.page s.lp)), 0, s.clock⟩

/-- The state after an accepted Queue Print whose pins leave a store. -/
def State.withJob (s : State) (c : Nat) (is : List RawItem) (g : RecordStore) : State :=
  { s with store := g }.createJob .order c (is.map (RawItem.item s.lp)) (distinctSites (is.map RawItem.label))
    (distinctPages (is.flatMap (RawItem.page s.lp))) 0

section

variable (s : State) (c : Nat) (is : List RawItem) (g : RecordStore)

theorem State.withJob_jobs : (s.withJob c is g).print.jobs = s.print.jobs ++ [s.orderedJob c is] := rfl

theorem State.withJob_nextJob : (s.withJob c is g).print.nextJob =
    freeNumber 16 (s.withJob c is g).print.jobs (nextFrom1 s.print.nextJob) := rfl

theorem State.withJob_rest : { s.withJob c is g with sites := s.sites, print := s.print } = { s with store := g } :=
  (congrArg (fun t : State => { t with print := s.print })
    (State.withPins_rest { s with store := g } (distinctSites (is.map RawItem.label))) :)

theorem State.withJob_site {k : Fin 8} {x : Site} (hx : s.site k = some x) (hk : s.findSlot x.label = some k) :
    (s.withJob c is g).site k = some { x with
      pins := if x.label ∈ distinctSites (is.map RawItem.label) then x.pins + 1 else x.pins } :=
  State.withPins_site (s := { s with store := g }) (distinctSites_nodup _) hx hk

theorem State.queueJob_eq : s.queueJob c is g = accept (s.withJob c is g)
    (le 2 s.print.nextJob ++ byte (placeOf (s.withJob c is g).print.jobs s.print.nextJob) ++ zeros 1) := rfl

end

/-! ## Cancel Print (R155) -/

section

variable {s t : State} {n : Nat} {j : Job}

theorem takes_cancelPrint {code : ResultCode} {area : List Byte} (h : s.cancelPrint n = ⟨t, code, area⟩) :
    Takes (.cancelPrint n) (.cancelPrint n) s t code area := takes_of_answer (g := (·.cancelPrint n)) rfl h

theorem State.cancelPrint_unknownJob (h : ∀ j, j ∈ s.print.jobs → j.number ≠ n) :
    s.cancelPrint n = refuse s .unknownJob := by
  have hf : (s.print.jobs.find? fun j => j.number == n) = none :=
    List.find?_eq_none.mpr fun j hj he => h j hj (beq_iff_eq.mp he)
  unfold State.cancelPrint
  rw [hf]

theorem State.inFlight_iff (s : State) (j : Job) : s.inFlight j = true ↔
    j.state = .printing ∧ (s.print.frame.isSome = true ∨ s.print.read.isSome = true) := by
  unfold State.inFlight
  rw [Bool.and_eq_true, decide_eq_true_iff, Bool.or_eq_true]

variable (hf : (s.print.jobs.find? fun k => k.number == n) = some j)
include hf

theorem State.cancelPrint_marks (h : s.inFlight j = true) : s.cancelPrint n =
    accept (s.modPrint fun p => p.modJob n fun k => { k with cancelPending := true }) (cancelArea j.state true) := by
  unfold State.cancelPrint
  rw [hf]
  exact if_pos h

theorem State.cancelPrint_ends (h : ¬ s.inFlight j = true) : s.cancelPrint n =
    accept (s.endJob j .cancelledOrder (j.copy - 1)) (cancelArea j.state false) := by
  unfold State.cancelPrint
  rw [hf]
  exact if_neg h

end

/-- Settles O42: the refusals and the acceptance of Queue Print, Cancel Print, the items of a body, and a pin
request. -/
theorem printOrdersAreTaken : Obligations.PrintOrdersAreTaken := by
  unfold Obligations.PrintOrdersAreTaken
  refine ⟨fun s b r es is hs hp hc1 hc2 hi1 hi2 hr hk href => ⟨fun g hq hg => ?accepted,
      fun hq => takes_queuePrint ?full, fun c hq he => takes_queuePrint ?pins⟩,
    fun s b r => ⟨fun h => takes_queuePrint (State.queuePrint_badOrder h),
      fun es hr hs h => takes_queuePrint (State.queuePrint_badValue hr hs h),
      fun es is i hr hs hp hc1 hc2 hi1 hi2 hi => ⟨fun hl hf => takes_queuePrint ?unknown,
        fun hk href => takes_queuePrint ?badRef⟩⟩,
    fun s n => ⟨fun h => takes_cancelPrint (State.cancelPrint_unknownJob h),
      fun j hf => ⟨fun hj hw => takes_cancelPrint ?marks, fun hw => takes_cancelPrint ?ends⟩⟩, ?items,
    fun n b es is => ⟨rfl, splitItems_short, splitItems_entry, parseItems_iff es is⟩, ?request⟩
  case accepted =>
    have hrest := s.withJob_rest b.copies is g
    have hquiet : Quiet s (s.withJob b.copies is g) :=
      Quiet.after (s := s) (u := { s with store := g }) (State.createJob_quiet _ _ _ _ _ _ _) rfl rfl rfl rfl rfl
    have hlen : (s.withJob b.copies is g).print.jobs.length ≤ 8 := by
      rw [State.withJob_jobs, List.length_append]
      exact hq
    refine ⟨s.withJob b.copies is g, s.withJob_jobs b.copies is g, fun k x hx hf => s.withJob_site b.copies is g hx hf,
      fun n hn hfree => ?_, fun j hj => ?_, (congrArg State.store hrest :), hquiet.steady.time,
      (congrArg State.lp hrest :), hquiet.sites, (congrArg State.fe hrest :), (congrArg State.device hrest :),
      takes_queuePrint ?_⟩
    · rw [State.withJob_nextJob, nextFrom1_eq, ← hn]
      exact freeNumber_of_free hfree 16
    · rw [State.withJob_nextJob]
      exact freeNumber_free _ _ hlen j hj
    · rw [State.queuePrint_parsed hr hs hp hc1 hc2 hi1 hi2, State.judgeJob_accepted hk href hq hg, State.queueJob_eq]
      rfl
  case full => exact (State.queuePrint_parsed hr hs hp hc1 hc2 hi1 hi2).trans (State.judgeJob_queueFull hk href hq)
  case pins =>
    exact (State.queuePrint_parsed hr hs hp hc1 hc2 hi1 hi2).trans (State.judgeJob_pinsRefused hk href hq he)
  case unknown =>
    exact (State.queuePrint_parsed hr hs hp hc1 hc2 hi1 hi2).trans (State.judgeJob_unknownSite hi hl hf)
  case badRef =>
    exact (State.queuePrint_parsed hr hs hp hc1 hc2 hi1 hi2).trans (State.judgeJob_badReference hk hi href)
  case marks =>
    rw [State.cancelPrint_marks hf ((s.inFlight_iff j).mpr ⟨hj, hw⟩), hj]
    rfl
  case ends =>
    refine (State.cancelPrint_ends hf ?_).trans rfl
    rw [State.inFlight_iff]
    rintro ⟨hj, hw'⟩
    rcases hw with hw | ⟨hframe, hread⟩
    · exact hw hj
    · rw [hframe, hread] at hw'
      exact hw'.elim Bool.noConfusion Bool.noConfusion
  case items =>
    rintro e _ _ _ _ _ rfl rfl rfl rfl rfl
    refine ⟨parseItem_ne_none_iff.trans itemOf_exists_iff, fun lp i p hi hp => ?_⟩
    have h := (parseItem_iff i).mp hi
    obtain ⟨h0, h1, h2, h4, h5, h6, h7, h8⟩ := itemOf_item h lp hp
    obtain ⟨hplain, hpaged⟩ := itemOf_refOk h lp
    exact ⟨itemOf_label h, hp ▸ itemOf_page h lp, h0, h1, h2, h4, h5, h6, h7, h8, hplain, hpaged⟩
  case request =>
    rintro m ps _ rfl
    refine ⟨requestPins_free, fun h => ⟨fun hroom => (requestPins_kept h).trans (if_pos hroom), fun hroom hn => ?_⟩⟩
    rw [requestPins_kept h, addPins_distinct ps m.pins hn]
    exact if_neg (Nat.not_lt.mpr hroom)

end Sys2Proof.Machine

/-! # The printer's signals (R149 to R156)

Busy and the frame, the signals that stop the printer and the job that they hold, and the stalls. -/

namespace Sys2Proof.Machine

theorem OnlyPrint.printer {s t : State} {dt : Nat} (h : OnlyPrint (s.elapse dt) t) : OnlyPrinter s t dt := by
  unfold OnlyPrint at h
  rw [h]
  rfl

/-! ## The line Ready (R149) -/

/-- What a Ready line needs of the signals and of the part's own sending. -/
theorem PrintEngine.judge_ready {p : PrintEngine} (h : p.judge = .ready) :
    (p.judged = true ∧ p.present = true ∧ p.paperOut = false ∧ p.paperHold = none ∧ p.headHot = false
      ∧ p.heatHold = none ∧ p.stall = none) ∧ p.frame = none ∧ p.busy = false := by
  have hj : p.judged = true := by
    by_contra hn
    rw [PrintEngine.judge_absent (Or.inl (Bool.eq_false_iff.mpr hn))] at h
    cases h
  have hp : p.present = true := by
    by_contra hn
    rw [PrintEngine.judge_absent (Or.inr (Bool.eq_false_iff.mpr hn))] at h
    cases h
  have hpaper : p.paperOut = false ∧ p.paperHold = none := by
    by_contra hn
    rw [PrintEngine.judge_paper hj hp (by simpa [or_iff_not_imp_left, Option.isSome_iff_ne_none] using hn)] at h
    cases h
  obtain ⟨ho, hh⟩ := hpaper
  have hheat : p.headHot = false ∧ p.heatHold = none := by
    by_contra hn
    rw [PrintEngine.judge_heat hj hp ho hh (by simpa [or_iff_not_imp_left, Option.isSome_iff_ne_none] using hn)] at h
    cases h
  obtain ⟨hhot, hht⟩ := hheat
  rw [PrintEngine.judge_free hj hp ho hh hhot hht] at h
  cases hst : p.stall with
  | some st => simp [hst] at h
  | none =>
    cases hf : p.frame with
    | some f => simp [hst, hf] at h
    | none =>
      cases hb : p.busy with
      | true =>
        simp only [hst, hf, hb, Option.isSome_none, Bool.false_eq_true, if_false, Bool.true_eq_false] at h
        split at h
        · cases h
        · split at h <;> cases h
      | false => exact ⟨⟨hj, hp, ho, hh, hhot, hht, rfl⟩, rfl, rfl⟩

/-- With the signals of a Ready line a frame in progress makes it Sending. -/
theorem SameSignals.judge_sending {p q : PrintEngine} (h : SameSignals p q) (hp : p.judge = .ready)
    (hf : q.frame.isSome = true) : q.judge = .sending := by
  obtain ⟨⟨hj, hpr, ho, hh, hhot, hht, hst⟩, -, -⟩ := PrintEngine.judge_ready hp
  rw [PrintEngine.judge_free (h.judged.trans hj) (h.present.trans hpr) (h.paperOut.trans ho) (h.paperHold.trans hh)
    (h.headHot.trans hhot) (h.heatHold.trans hht), h.stall, hst]
  exact if_pos hf

/-! ## What the work on a job keeps -/

theorem PrintEngine.send_busy (p : PrintEngine) (j : Job) (l : PrintLine) (n : Nat) : (p.send j l n).busy = p.busy := by
  unfold PrintEngine.send
  split
  · unfold PrintEngine.beginFrame
    split <;> rfl
  all_goals rfl

theorem State.drive_busy (s : State) : s.drive.print.busy = s.print.busy := by
  unfold State.drive
  split
  · rfl
  · split
    · rfl
    · split
      · exact PrintEngine.send_busy _ _ _ _
      · rfl

theorem State.reachItem_busy (s : State) : s.reachItem.print.busy = s.print.busy := by
  unfold State.reachItem
  split
  · rfl
  · split
    · rfl
    · split
      · unfold State.reach
        split
        · split <;> rfl
        · rfl
      · rfl

theorem State.work_busy (s : State) : s.work.print.busy = s.print.busy :=
  (State.drive_busy _).trans (State.reachItem_busy s)

theorem State.settle_busy (s : State) : s.settle.print.busy = s.print.busy := by
  unfold State.settle
  dsimp only
  rw [State.work_busy]
  split <;> rfl

/-- No job is held by a signal (R151). -/
def PrintEngine.Unheld (p : PrintEngine) : Prop :=
  ∀ j, j ∈ p.jobs → j.state ≠ .held .paper ∧ j.state ≠ .held .heat

theorem PrintEngine.Unheld.of_jobs {p q : PrintEngine} (h : p.Unheld) (e : q.jobs = p.jobs) : q.Unheld := by
  unfold PrintEngine.Unheld
  rw [e]
  exact h

theorem PrintEngine.Unheld.map {p q : PrintEngine} {g : Job → Job} (e : q.jobs = p.jobs.map g)
    (hg : ∀ j, j ∈ p.jobs → (g j).state ≠ .held .paper ∧ (g j).state ≠ .held .heat) : q.Unheld := by
  unfold PrintEngine.Unheld
  rw [e]
  intro j hj
  obtain ⟨k, hk, rfl⟩ := List.mem_map.mp hj
  exact hg k hk

theorem Job.resume_unheld (j : Job) : j.resume.state ≠ .held .paper ∧ j.resume.state ≠ .held .heat := by
  unfold Job.resume
  split <;> simp [*]

theorem PrintEngine.Unheld.modJob {p : PrintEngine} (h : p.Unheld) (n : Nat) {f : Job → Job}
    (hf : ∀ j, j ∈ p.jobs → (f j).state = j.state ∨ (f j).state = .held .link) : (p.modJob n f).Unheld := by
  refine PrintEngine.Unheld.map rfl fun j hj => ?_
  split
  · rcases hf j hj with e | e
    · rw [e]
      exact h j hj
    · simp [e]
  · exact h j hj

theorem Job.lineMoves_unheld {j : Job} (h : j.state ≠ .held .paper ∧ j.state ≠ .held .heat) (a b : PrinterLine) :
    (j.lineMoves a b).state = j.state := by
  unfold Job.lineMoves
  split
  · next r hr =>
    cases r with
    | link => rw [hr]; rfl
    | paper => exact absurd hr h.1
    | heat => exact absurd hr h.2
  · rfl
  · rfl

theorem PrintEngine.Unheld.setLine {p : PrintEngine} (h : p.Unheld) : p.setLine.Unheld :=
  PrintEngine.Unheld.map rfl fun j hj => by
    rw [Job.lineMoves_unheld (h j hj)]
    exact h j hj

theorem PrintEngine.Unheld.beginFrame {p : PrintEngine} (h : p.Unheld) (l : PrintLine) (n : Nat) :
    (p.beginFrame l n).Unheld := by
  unfold PrintEngine.beginFrame
  split
  · exact h
  · exact PrintEngine.Unheld.setLine (h.of_jobs rfl)

theorem State.reachItem_unheld {s : State} (h : s.print.Unheld) : s.reachItem.print.Unheld := by
  unfold State.reachItem
  split
  · exact h
  · split
    · exact h
    · split
      · unfold State.reach
        split
        · split
          · exact h.of_jobs rfl
          · exact h.modJob _ fun _ _ => Or.inr rfl
        · exact h.modJob _ fun _ _ => Or.inl rfl
      · exact h

/-- The work on a Ready line: it stays Ready or begins a frame, and no job becomes held by a signal (R150). -/
theorem State.work_ready {s : State} {p : PrintEngine} (hs : SameSignals p s.print) (hp : p.judge = .ready)
    (hl : s.print.line = .ready) (hu : s.print.Unheld) :
    (s.work.print.line = .ready ∨ s.work.print.line = .sending) ∧ s.work.print.Unheld := by
  obtain ⟨hsig, hline, -, -⟩ := State.reachItem_signals s
  have hu' := State.reachItem_unheld hu
  have hl' := hline.trans hl
  have hs' := hs.trans hsig
  unfold State.work
  generalize s.reachItem = u at hu' hl' hs'
  unfold State.drive
  split
  · exact ⟨Or.inl hl', hu'⟩
  · split
    · exact ⟨Or.inl hl', hu'⟩
    · next l _ =>
      split
      · change ((u.print.send _ l u.up).line = .ready ∨ (u.print.send _ l u.up).line = .sending)
          ∧ (u.print.send _ l u.up).Unheld
        unfold PrintEngine.send
        rw [hl']
        refine ⟨?_, hu'.beginFrame l u.up⟩
        dsimp only
        unfold PrintEngine.beginFrame
        split
        · exact Or.inl hl'
        · refine Or.inr (SameSignals.judge_sending (hs'.trans ?_) hp rfl)
          exact ⟨rfl, rfl, rfl, rfl, rfl, rfl, rfl⟩
      · exact ⟨Or.inl hl', hu'⟩

theorem State.settle_ready {s : State} (h : s.print.judge = .ready) :
    (s.settle.print.line = .ready ∨ s.settle.print.line = .sending) ∧ s.settle.print.Unheld := by
  unfold State.settle
  dsimp only
  rw [if_pos (show (s.modPrint PrintEngine.setLine).print.line = .ready from h)]
  refine State.work_ready (p := s.print) ⟨rfl, rfl, rfl, rfl, rfl, rfl, rfl⟩ h h ?_
  exact PrintEngine.Unheld.map rfl fun j _ => Job.resume_unheld j

/-- With a frame in progress no item is reached and no line sent. -/
theorem State.work_of_frame {s : State} (h : s.print.frame.isSome = true) : s.work = s := by
  have hf : ¬ s.print.frame.isNone = true := by rw [Option.isNone_eq_false_iff.mpr h]; decide
  have hr : s.reachItem = s := by
    unfold State.reachItem
    split
    · rfl
    · split
      · rfl
      · exact if_neg fun ⟨_, _, _, hn⟩ => hf hn
  unfold State.work
  rw [hr]
  unfold State.drive
  split
  · rfl
  · split
    · rfl
    · exact if_neg fun ⟨_, hn, _⟩ => hf hn

/-- With a frame in progress only the line is judged anew. -/
theorem State.settle_of_frame {s : State} (h : s.print.frame.isSome = true) :
    s.settle = s.modPrint PrintEngine.setLine := by
  have hn : s.print.judge ≠ .ready := fun hr => by
    rw [(PrintEngine.judge_ready hr).2.1] at h
    cases h
  unfold State.settle
  dsimp only
  rw [if_neg (show ¬ (s.modPrint PrintEngine.setLine).print.line = .ready from hn)]
  exact State.work_of_frame (s := s.modPrint PrintEngine.setLine) h

/-! ## Busy (R149, R150, R153, R155, R156) -/

section

variable (dt : Nat) {s : State}

theorem exec_busyRise (h : s.print.busy = false) : exec (.busyRise dt) s =
    .next ((s.elapse dt).modPrint fun p => { p with busy := true, strobe := false }).settle :=
  if_neg (Bool.eq_false_iff.mp h)

/-- The state after a fall of Busy, before the byte or the line is judged. -/
def State.busyFallen (s : State) : State :=
  s.modPrint fun p => { p with busy := false, stall := p.stall.filter (·.busyLow) }

theorem exec_busyFall_idle (h : s.print.busy = true) (hf : s.print.frame = none) :
    exec (.busyFall dt) s = .next (s.elapse dt).busyFallen.settle := by
  change execBusyFall dt s = _
  unfold execBusyFall
  dsimp only
  rw [if_pos (show (s.elapse dt).print.busy = true from h)]
  rw [show ((s.elapse dt).modPrint fun p => { p with busy := false, stall := clearStall p.stall }).print.frame = none
    from hf]
  rfl

theorem exec_busyFall_byte (h : s.print.busy = true) {f : Frame} (hf : s.print.frame = some f) :
    exec (.busyFall dt) s = .next ((s.elapse dt).busyFallen.endByte f) := by
  change execBusyFall dt s = _
  unfold execBusyFall
  dsimp only
  rw [if_pos (show (s.elapse dt).print.busy = true from h)]
  rw [show ((s.elapse dt).modPrint fun p => { p with busy := false, stall := clearStall p.stall }).print.frame = some f
    from hf]
  rfl

end

section

variable {s : State} {f : Frame}

theorem State.endByte_next {a b : Byte} {rest : List Byte} (h : f.bytes = a :: b :: rest) :
    s.endByte f = s.modPrint fun p => p.strobeByte b rest s.up := by
  unfold State.endByte
  rw [h]

theorem State.endByte_last {a : Byte} (h : f.bytes = [a]) : s.endByte f = s.endFrame f := by
  unfold State.endByte
  rw [h]

/-- The state after a frame has ended, before its job goes on. -/
def State.frameEnded (s : State) : State := s.modPrint fun p => PrintEngine.setLine { p with frame := none }

theorem State.endFrame_none (h : s.frameEnded.print.current = none) : s.endFrame f = s.frameEnded := by
  unfold State.endFrame
  dsimp only
  rw [show (s.modPrint fun p => PrintEngine.setLine { p with frame := none }).print.current = none from h]
  rfl

theorem State.endFrame_some {j : Job} (h : s.frameEnded.print.current = some j) :
    s.endFrame f = if f.abandoned then s.frameEnded.work else (s.frameEnded.completeLine j).work := by
  unfold State.endFrame
  dsimp only
  rw [show (s.modPrint fun p => PrintEngine.setLine { p with frame := none }).print.current = some j from h]
  rfl

theorem State.endFrame_abandoned (h : f.abandoned = true) : s.endFrame f = s.frameEnded.work := by
  cases hc : s.frameEnded.print.current with
  | none => rw [State.endFrame_none hc, State.work_of_no_current hc]
  | some j => rw [State.endFrame_some hc, if_pos h]

end

section

variable (u : State) {j : Job}

/-- A job after one more line. -/
def Job.lineDone (j : Job) : Job := { j with lines := j.lines + 1 }

theorem State.completeLine_advances {n : Job} (h : j.lineDone.advance = some n) : u.completeLine j =
    if j.cancelPending then u.endJob n .cancelledOrder (n.copy - 1)
    else u.modPrint fun p => p.modJob j.number fun _ => n := by
  unfold State.completeLine
  dsimp only
  rw [show ({ j with lines := j.lines + 1 } : Job).advance = some n from h]
  rfl

theorem State.completeLine_ends (h : j.lineDone.advance = none) : u.completeLine j =
    if j.cancelPending then u.endJob j.lineDone .cancelledOrder j.copy
    else if j.copy < j.copies then u.modPrint fun p => p.modJob j.number fun _ => j.lineDone.nextCopy
    else u.endJob j.lineDone .done j.copy := by
  unfold State.completeLine
  dsimp only
  rw [show ({ j with lines := j.lines + 1 } : Job).advance = none from h]
  rfl

end

/-- Settles O46: Busy without a frame moves the line; within a frame it ends bytes, and with the last one the line. -/
theorem busyMovesTheFrame : Obligations.BusyMovesTheFrame := by
  unfold Obligations.BusyMovesTheFrame
  refine ⟨fun dt s hf => ⟨fun p hb hp => ⟨_, exec_busyRise dt hb, ?rise⟩,
      fun p hb hp => ⟨_, exec_busyFall_idle dt hb hf, ?fall⟩⟩,
    fun dt s f hf hj => ⟨fun hb => ?riseInByte, fun a b rest hb ha => ?nextByte, fun a j hb ha hn hc => ?lastByte,
      fun a hb ha hn => ?abandoned, fun u j => ?completes⟩⟩
  case rise =>
    subst hp
    have hn : (PrintEngine.judge { s.print with busy := true, strobe := false }) ≠ .ready := fun hr =>
      Bool.noConfusion (PrintEngine.judge_ready hr).2.2
    obtain ⟨hframe, hstrobe, hline⟩ := State.settle_not_ready
      (s := (s.elapse dt).modPrint fun p => { p with busy := true, strobe := false }) hn
    exact ⟨State.settle_busy _, hstrobe, hframe.trans hf, hline, hline ▸ hn,
      ((State.modPrint_only _ _).trans (State.settle_only _)).printer⟩
  case fall =>
    subst hp
    refine ⟨State.settle_busy _, (State.settle_signals _).stall, fun hn => ?_,
      fun hr => State.settle_ready (s := (s.elapse dt).busyFallen) hr,
      ((State.modPrint_only _ _).trans (State.settle_only _)).printer⟩
    obtain ⟨hframe, -, hline⟩ := State.settle_not_ready (s := (s.elapse dt).busyFallen) hn
    exact ⟨hline, hframe.trans hf⟩
  case riseInByte =>
    rw [exec_busyRise dt hb, State.settle_of_frame]
    · rfl
    · change s.print.frame.isSome = true
      rw [hf]
      rfl
  case nextByte =>
    rw [exec_busyFall_byte dt hb hf, State.endByte_next ha]
    rfl
  case lastByte =>
    refine ⟨(s.elapse dt).busyFallen.frameEnded, rfl, fun j' hj' => ?_⟩
    rw [exec_busyFall_byte dt hb hf, State.endByte_last ha, State.endFrame_some hj', if_neg (by rw [hn]; decide)]
  case abandoned =>
    have hexec := exec_busyFall_byte dt hb hf
    rw [State.endByte_last ha, State.endFrame_abandoned hn] at hexec
    refine ⟨_, rfl, hexec, fun hjobs => hexec.trans (congrArg Host.Outcome.next (State.work_of_no_current ?_))⟩
    refine PrintEngine.current_of_no_jobs ?_
    change s.print.jobs.map _ = []
    rw [hjobs]
    rfl
  case completes =>
    refine ⟨fun n h hc => ?_, fun n h hc => ?_, fun h hc => ?_, fun h hc hl => ?_, fun h hc hl => ?_⟩
    · rw [State.completeLine_advances u h, if_neg (Bool.eq_false_iff.mp hc)]
      rfl
    · rw [State.completeLine_advances u h, if_pos hc]
    · rw [State.completeLine_ends u h, if_pos hc]
      rfl
    · rw [State.completeLine_ends u h, if_neg (Bool.eq_false_iff.mp hc), if_neg (Nat.not_lt.mpr hl)]
      rfl
    · rw [State.completeLine_ends u h, if_neg (Bool.eq_false_iff.mp hc), if_pos hl]
      rfl

end Sys2Proof.Machine

/-! # Signals, stalls, job starts and record reads (R138, R142, R143, R149 to R152)

The current job under a change of the queue, what a signal that stops the printer does to it, the stalls, and the
work on a job that starts or whose read ends. -/

namespace Sys2Proof.Machine

/-! ## The current job -/

theorem PrintEngine.current_map {p q : PrintEngine} {g : Job → Job} (e : q.jobs = p.jobs.map g)
    (hg : ∀ j, j ∈ p.jobs → (g j).active = j.active) : q.current = p.current.map g := by
  unfold PrintEngine.current
  rw [e, List.find?_map]
  refine congrArg (Option.map g) (List.find?_congr fun j hj => ?_)
  exact hg j hj

theorem Job.lineMoves_active (a b : PrinterLine) (j : Job) : (j.lineMoves a b).active = j.active := by
  unfold Job.lineMoves Job.active
  split
  · next hs => simp [hs]
  · rfl
  · rfl

theorem PrintEngine.setLine_current (p : PrintEngine) :
    p.setLine.current = p.current.map (Job.lineMoves p.line p.judge) :=
  PrintEngine.current_map rfl fun j _ => Job.lineMoves_active _ _ j

theorem PrintEngine.current_active {p : PrintEngine} {j : Job} (h : p.current = some j) : j.active = true :=
  List.find?_some h

/-- The current job under a change of the jobs with its number, when no other job has it. -/
theorem PrintEngine.modJob_current {p : PrintEngine} {j : Job} (hc : p.current = some j)
    (hu : ∀ k, k ∈ p.jobs → k.number = j.number → k = j) {f : Job → Job} (hf : (f j).active = true) :
    (p.modJob j.number f).current = some (f j) := by
  have hmap : (p.modJob j.number f).current = p.current.map fun k => if k.number = j.number then f k else k := by
    refine PrintEngine.current_map rfl fun k hk => ?_
    split
    · next hn => rw [hu k hk hn, hf, PrintEngine.current_active hc]
    · rfl
  rw [hmap, hc, Option.map_some, if_pos rfl]

theorem PrintEngine.hold_current {p : PrintEngine} {j : Job} (hc : p.current = some j)
    (hu : ∀ k, k ∈ p.jobs → k.number = j.number → k = j) (r : HoldReason) :
    (p.hold j.number r).current = some { j with state := .held r } :=
  PrintEngine.modJob_current hc hu (f := fun j => { j with state := .held r }) rfl

/-! ## A signal that stops the printer (R151) -/

theorem State.settle_held {s : State} {j : Job} {r : HoldReason} (hc : s.print.current = some j)
    (hs : j.state = .held r) (hn : s.print.judge ≠ .ready) : s.settle.print.current =
      some { j with state := .held (heldReason s.print.line s.print.judge r) } := by
  have hj : j.lineMoves s.print.line s.print.judge =
      { j with state := .held (heldReason s.print.line s.print.judge r) } := by
    unfold Job.lineMoves
    rw [hs]
  have hset : (s.modPrint PrintEngine.setLine).print.current =
      some { j with state := .held (heldReason s.print.line s.print.judge r) } := by
    change s.print.setLine.current = _
    rw [PrintEngine.setLine_current, hc, Option.map_some, hj]
  unfold State.settle
  dsimp only
  rw [if_neg (show ¬ (s.modPrint PrintEngine.setLine).print.line = .ready from hn), State.work_held hset rfl]
  exact hset

theorem State.abandonFrame_holds {s : State} {f : Frame} {j : Job} (hf : f.abandoned = false)
    (hc : s.print.current = some j) (hp : j.cancelPending = false) :
    s.abandonFrame f = s.modPrint fun p => p.dropFrame.hold j.number p.dropFrame.abandonReason := by
  unfold State.abandonFrame
  dsimp only
  rw [show (s.modPrint fun p => p.dropFrame).print.current = some j from hc]
  dsimp only
  rw [if_neg (by rw [hf]; decide), if_neg (by rw [hp]; decide)]
  rfl

/-- The job whose frame a signal abandons is held at its line, with the reason that the signals give it. -/
theorem State.signalMoves_holds {s : State} {f : Frame} {j : Job} {r : HoldReason} (hf : s.print.frame = some f)
    (ha : f.abandoned = false) (hc : s.print.current = some j) (hp : j.cancelPending = false)
    (hu : ∀ k, k ∈ s.print.jobs → k.number = j.number → k = j) (hr : s.print.abandonReason = r)
    (hn : ∀ q, SameSignals s.print q → q.judge ≠ .ready ∧ heldReason s.print.line q.judge r = r) :
    (s.signalMoves true).print.current = some { j with state := .held r } := by
  obtain ⟨hsig, -, -, hline⟩ := State.abandonFrame_print s f
  obtain ⟨hready, hheld⟩ := hn _ hsig
  have hcur : (s.abandonFrame f).print.current = some { j with state := .held r } := by
    rw [State.abandonFrame_holds ha hc hp, ← hr]
    exact PrintEngine.hold_current (p := s.print.dropFrame) hc hu _
  unfold State.signalMoves
  rw [hf]
  dsimp only
  rw [if_pos rfl, State.settle_held hcur rfl hready, hline, hheld]

theorem heldReason_paper {new : PrinterLine} (h : new ≠ .heldHeat) (old : PrinterLine) :
    heldReason old new .paper = .paper := by
  cases new
  case heldHeat => exact absurd rfl h
  all_goals cases old <;> rfl

theorem heldReason_heat (old : PrinterLine) : heldReason old .heldHeat .heat = .heat := by cases old <;> rfl

/-- With Paper Out active, or Present inactive, the line is not held by the head. -/
theorem PrintEngine.judge_ne_heat {p : PrintEngine} (h : p.paperOut = true ∨ p.present = false) :
    p.judge ≠ .heldHeat := by
  by_cases hj : p.judged = true
  · by_cases hp : p.present = true
    · rw [PrintEngine.judge_paper hj hp (Or.inl (h.resolve_right (Bool.eq_false_iff.not_left.mpr hp)))]
      decide
    · rw [PrintEngine.judge_absent (Or.inr (Bool.eq_false_iff.mpr hp))]
      decide
  · rw [PrintEngine.judge_absent (Or.inl (Bool.eq_false_iff.mpr hj))]
    decide

theorem SameSignals.stopped_by_paper {p q : PrintEngine} (h : SameSignals p q)
    (hp : p.paperOut = true ∨ p.present = false) (old : PrinterLine) :
    q.judge ≠ .ready ∧ heldReason old q.judge .paper = .paper := by
  refine ⟨h.judge_ne_ready (hp.imp_right Or.inr), heldReason_paper (PrintEngine.judge_ne_heat ?_) old⟩
  rw [h.paperOut, h.present]
  exact hp

theorem PrintEngine.abandonReason_paper {p : PrintEngine} (h : p.paperOut = true ∨ p.present = false) :
    p.abandonReason = .paper := by
  refine if_neg fun ⟨_, ho, hp⟩ => ?_
  rcases h with h | h
  · exact ho h
  · rw [h] at hp
    cases hp

/-! ## The commands of the signals -/

theorem printerFrame_of {s t : State} {dt : Nat} (hq : Quiet (s.elapse dt) t) (hm : SameMeasuring (s.elapse dt) t) :
    PrinterFrame s t dt := by
  obtain ⟨⟨⟨hpending, hup, hclock⟩, hlink⟩, hsites⟩ := hq
  exact ⟨hsites, hlink, hm, hpending, hup, hclock⟩

section

variable (dt : Nat) {s : State}

/-- The Print Engine after a change of Paper Out, before the line is judged (R149). -/
def PrintEngine.paperMoved (p : PrintEngine) (a : Bool) (now : Nat) : PrintEngine :=
  { p with paperOut := a, paperHold := inactiveSince p a now }

/-- The Print Engine after a change of Head Hot, before the line is judged (R149). -/
def PrintEngine.headMoved (p : PrintEngine) (a : Bool) (now : Nat) : PrintEngine :=
  { p with headHot := a, heatHold := inactiveSince p a now }

theorem exec_paperOutChange {a : Bool} (h : a ≠ s.print.paperOut) : exec (.paperOutChange dt a) s =
    .next (((s.elapse dt).modPrint fun p => p.paperMoved a (s.up + dt)).signalMoves a) := if_neg h

theorem exec_headHotChange {a : Bool} (h : a ≠ s.print.headHot) : exec (.headHotChange dt a) s =
    .next (((s.elapse dt).modPrint fun p => p.headMoved a (s.up + dt)).signalMoves a) := if_neg h

theorem exec_presentChange {a : Bool} (h : a ≠ s.print.present) : exec (.presentChange dt a) s =
    .next (((s.elapse dt).modPrint fun p => { p with present := a }).signalMoves !a) := if_neg h

theorem inactiveSince_fallen (p : PrintEngine) (now : Nat) :
    inactiveSince p false now = if p.judged then some now else none := by
  cases hj : p.judged <;> simp [inactiveSince, hj]

/-- A change of a signal leaves the blocks but the Print Engine. -/
theorem State.signalMoves_frame (f : PrintEngine → PrintEngine) (b : Bool) :
    PrinterFrame s (((s.elapse dt).modPrint f).signalMoves b) dt :=
  printerFrame_of ((State.modPrint_quiet _ _).trans (State.signalMoves_quiet _ _))
    ((State.modPrint_only _ _).measuring.trans (State.signalMoves_measuring _ _))

theorem State.signalMoves_printer (f : PrintEngine → PrintEngine) :
    OnlyPrinter s (((s.elapse dt).modPrint f).signalMoves false) dt :=
  ((State.modPrint_only _ _).trans (State.signalMoves_only _)).printer

theorem State.signalMoves_signals (s : State) : SameSignals s.print (s.signalMoves false).print := by
  unfold State.signalMoves
  split <;> exact State.settle_signals s

/-- The Print Engine with the holds that have lasted 1 s cleared (R149). -/
def PrintEngine.holdsCleared (p : PrintEngine) (now : Nat) : PrintEngine :=
  { p with paperHold := clearHold p.paperHold now, heatHold := clearHold p.heatHold now }

theorem exec_printerHoldCleared (h : ¬ (clearHold s.print.paperHold (s.up + dt) = s.print.paperHold
    ∧ clearHold s.print.heatHold (s.up + dt) = s.print.heatHold)) : exec (.printerHoldCleared dt) s =
      .next ((s.elapse dt).modPrint fun p => p.holdsCleared (s.up + dt)).settle := if_neg h

theorem clearHold_over {since now : Nat} (h : since + 1000 ≤ now) : clearHold (some since) now = none := by
  unfold clearHold
  rw [Option.filter_some, if_neg]
  rw [decide_eq_true_iff]
  exact Nat.not_lt.mpr h

end

/-- Settles O47: each signal's rise, which stops the printer, and its fall, and the end of a hold. -/
theorem signalsStopThePrinter : Obligations.SignalsStopThePrinter := by
  unfold Obligations.SignalsStopThePrinter
  intro dt s
  refine ⟨fun h => ⟨_, exec_paperOutChange dt (by rw [h]; decide), ?paperOut⟩,
    fun h => ⟨_, exec_paperOutChange dt (by rw [h]; decide), ?paperIn⟩,
    fun h => ⟨_, exec_headHotChange dt (by rw [h]; decide), ?headHot⟩,
    fun h => ⟨_, exec_headHotChange dt (by rw [h]; decide), ?headCool⟩,
    fun h => ⟨_, exec_presentChange dt (by rw [h]; decide), ?absent⟩,
    fun h => ⟨_, exec_presentChange dt (by rw [h]; decide), ?present⟩,
    fun since h hs => ⟨_, exec_printerHoldCleared dt ?paperLong, ?paperHold⟩,
    fun since h hs => ⟨_, exec_printerHoldCleared dt ?heatLong, ?heatHold⟩⟩
  case paperOut =>
    let u := (s.elapse dt).modPrint fun p => p.paperMoved true (s.up + dt)
    obtain ⟨hframe, hstrobe, hsig⟩ := State.signalMoves_stops u (Or.inl rfl)
    refine ⟨hsig.paperOut, hsig.paperHold, hframe, hstrobe, State.signalMoves_frame dt _ _, ?_⟩
    intro f j hf ha hc hp hu
    exact State.signalMoves_holds (s := u) hf ha hc hp hu (PrintEngine.abandonReason_paper (Or.inl rfl))
      fun q hq => hq.stopped_by_paper (Or.inl rfl) _
  case paperIn =>
    have hsig := State.signalMoves_signals ((s.elapse dt).modPrint fun p => p.paperMoved false (s.up + dt))
    exact ⟨hsig.paperOut, hsig.paperHold.trans (inactiveSince_fallen s.print _), State.signalMoves_printer dt _⟩
  case headHot =>
    let u := (s.elapse dt).modPrint fun p => p.headMoved true (s.up + dt)
    obtain ⟨hframe, hstrobe, hsig⟩ := State.signalMoves_stops u (Or.inr (Or.inl rfl))
    refine ⟨hsig.headHot, hsig.heatHold, hframe, hstrobe, State.signalMoves_frame dt _ _, ?_⟩
    intro f j hf ha hc hp hj hpres ho hh hu
    refine State.signalMoves_holds (s := u) hf ha hc hp hu (if_pos ⟨rfl, Bool.eq_false_iff.mp ho, hpres⟩)
      fun q hq => ?_
    have hq1 : q.judge = .heldHeat := PrintEngine.judge_heat (hq.judged.trans hj) (hq.present.trans hpres)
      (hq.paperOut.trans ho) (hq.paperHold.trans hh) (Or.inl hq.headHot)
    rw [hq1]
    exact ⟨by decide, heldReason_heat _⟩
  case headCool =>
    have hsig := State.signalMoves_signals ((s.elapse dt).modPrint fun p => p.headMoved false (s.up + dt))
    exact ⟨hsig.headHot, hsig.heatHold.trans (inactiveSince_fallen s.print _), State.signalMoves_printer dt _⟩
  case absent =>
    let u := (s.elapse dt).modPrint fun p => { p with present := false }
    obtain ⟨hframe, hstrobe, hsig⟩ := State.signalMoves_stops u (Or.inr (Or.inr rfl))
    refine ⟨hsig.present, hframe, hstrobe, State.signalMoves_frame dt _ _, ?_⟩
    intro f j hf ha hc hp hu
    exact State.signalMoves_holds (s := u) hf ha hc hp hu (PrintEngine.abandonReason_paper (Or.inr rfl))
      fun q hq => hq.stopped_by_paper (Or.inr rfl) _
  case present =>
    exact ⟨(State.signalMoves_signals ((s.elapse dt).modPrint fun p => { p with present := true })).present,
      State.signalMoves_printer dt _⟩
  case paperLong =>
    rw [h, clearHold_over hs]
    exact fun hc => nomatch hc.1
  case paperHold =>
    refine ⟨(State.settle_signals _).paperHold.trans ?_, ((State.modPrint_only _ _).trans (State.settle_only _)).printer⟩
    change clearHold s.print.paperHold (s.up + dt) = none
    rw [h, clearHold_over hs]
  case heatLong =>
    rw [h, clearHold_over hs]
    exact fun hc => nomatch hc.2
  case heatHold =>
    refine ⟨(State.settle_signals _).heatHold.trans ?_, ((State.modPrint_only _ _).trans (State.settle_only _)).printer⟩
    change clearHold s.print.heatHold (s.up + dt) = none
    rw [h, clearHold_over hs]

/-! ## Stalls (R152, R154, R155) -/

/-- The Print Engine after a stall is declared, before its job ends (R152). -/
def PrintEngine.stalled (p : PrintEngine) (now : Nat) : PrintEngine :=
  PrintEngine.setLine { p.dropFrame with stall := some ⟨!p.busy, now⟩ }

theorem State.declareStall_ends {s : State} {f : Frame} {j : Job} (hf : f.abandoned = false)
    (hc : (s.print.stalled s.up).current = some j) : s.declareStall f =
      (s.modPrint fun p => p.stalled s.up).endJob j (j.endingOutcome .failedStall) (j.copy - 1) := by
  unfold State.declareStall
  dsimp only
  rw [show (s.modPrint fun p => PrintEngine.setLine
    { p.dropFrame with stall := some ⟨!p.busy, s.up⟩ }).print.current = some j from hc]
  exact if_neg (by rw [hf]; decide)

theorem exec_printerStall {s : State} {dt : Nat} {f : Frame} (h : (s.elapse dt).stallDue = some f) :
    exec (.printerStall dt) s = .next ((s.elapse dt).declareStall f) := by
  change execPrinterStall dt s = _
  unfold execPrinterStall
  dsimp only
  rw [h]

theorem State.stallDue_of {s : State} {f : Frame} (hf : s.print.frame = some f)
    (ht : f.timer + s.print.timeout * 1000 ≤ s.up) (ho : s.print.paperOut = false) (hh : s.print.headHot = false)
    (hp : s.print.present = true) : s.stallDue = some f := by
  unfold State.stallDue State.passed
  rw [hf, ho, hh, hp, Option.filter_some, if_pos]
  rw [decide_eq_true ht]
  rfl

theorem Job.lineMoves_number (a b : PrinterLine) (j : Job) : (j.lineMoves a b).number = j.number := by
  unfold Job.lineMoves
  split <;> rfl

theorem Job.lineMoves_printing {j : Job} (h : j.state = .printing) (a b : PrinterLine) : j.lineMoves a b = j := by
  unfold Job.lineMoves
  rw [h]

theorem stallOver_over {st : Stall} {now : Nat} (hb : st.busyLow = true) (h : st.since + 1000 ≤ now) :
    stallOver (some st) now = none := by
  unfold stallOver
  rw [Option.filter_some, if_neg]
  rw [hb, Bool.true_and, Bool.not_eq_true', decide_eq_false_iff_not]
  exact not_not.mpr h

theorem exec_stallClear {s : State} {dt : Nat} (h : stallOver s.print.stall (s.up + dt) ≠ s.print.stall) :
    exec (.stallClear dt) s =
      .next ((s.elapse dt).modPrint fun p => { p with stall := stallOver p.stall (s.up + dt) }).settle := if_neg h

/-- Settles O48: a stall that is declared ends the job, and one declared with Busy low is cleared. -/
theorem stallsAreDeclaredAndCleared : Obligations.StallsAreDeclaredAndCleared := by
  unfold Obligations.StallsAreDeclaredAndCleared
  refine fun dt s => ⟨fun f j hf ha ht ho hh hp hj hpaper hheat hc => ?declared, fun x hx hb hs => ?cleared⟩
  case declared =>
    let u := (s.elapse dt).modPrint fun p => p.stalled (s.up + dt)
    let k := j.lineMoves s.print.line
      (PrintEngine.judge { s.print.dropFrame with stall := some ⟨!s.print.busy, s.up + dt⟩ })
    have hk : (s.print.stalled (s.up + dt)).current = some k :=
      (PrintEngine.setLine_current _).trans (congrArg (Option.map _) hc)
    have hend := State.declareStall_ends (s := s.elapse dt) ha hk
    have hprint : ((s.elapse dt).declareStall f).print =
        { s.print.stalled (s.up + dt) with
          jobs := (s.print.stalled (s.up + dt)).jobs.filter fun i => i.number != k.number } := by
      rw [hend]
      exact State.endJob_print _ _ _ _
    have hline : (s.print.stalled (s.up + dt)).line = .stalled :=
      (PrintEngine.judge_free (p := { s.print.dropFrame with stall := some ⟨!s.print.busy, s.up + dt⟩ })
        hj hp ho hpaper hh hheat).trans (if_pos rfl)
    refine ⟨_, exec_printerStall (State.stallDue_of (s := s.elapse dt) hf ht ho hh hp), fun hst => ?_,
      by rw [hprint]; rfl, by rw [hprint]; rfl, by rw [hprint]; rfl, by rw [hprint]; exact hline, fun i hi => ?_, ?_,
      printerFrame_of (State.declareStall_quiet _ _) (State.declareStall_measuring _ _)⟩
    · rw [hend, show k = j from Job.lineMoves_printing hst _ _]
      rfl
    · rw [hprint] at hi
      have hne := (List.mem_filter.mp hi).2
      rw [bne_iff_ne, Job.lineMoves_number] at hne
      exact hne
    · rw [hend]
      exact (State.endJob_pins _ _ _ _).2.2.2
  case cleared =>
    have hn : stallOver s.print.stall (s.up + dt) = none := by rw [hx, stallOver_over hb hs]
    refine ⟨_, exec_stallClear (by rw [hn, hx]; exact fun h => nomatch h), (State.settle_signals _).stall.trans hn,
      ((State.modPrint_only _ _).trans (State.settle_only _)).printer⟩

/-! ## A job starts (R138, R142, R150) -/

theorem frameBytes_cons (l : PrintLine) : ∃ b rest, frameBytes l = b :: rest := by
  cases l <;> exact ⟨_, _, rfl⟩

/-- The first job of the queue becomes Printing (R138). -/
def PrintEngine.started (p : PrintEngine) (j : Job) (js : List Job) : PrintEngine :=
  { p with jobs := { j with state := .printing } :: js }

theorem modJob_head {p : PrintEngine} {j : Job} {js : List Job} (hp : p.jobs = j :: js)
    (hn : ∀ k, k ∈ js → k.number ≠ j.number) (f : Job → Job) :
    p.modJob j.number f = { p with jobs := f j :: js } := by
  have hjs : (js.map fun k => if k.number = j.number then f k else k) = js :=
    (List.map_congr_left fun k hk => if_neg (hn k hk)).trans (List.map_id' js)
  unfold PrintEngine.modJob
  rw [hp, List.map_cons, if_pos rfl, hjs]

theorem PrintEngine.current_head {p : PrintEngine} {j : Job} {js : List Job} (hp : p.jobs = j :: js)
    (ha : j.active = true) : p.current = some j := by
  unfold PrintEngine.current
  rw [hp, List.find?_cons_of_pos ha]

section

variable {s : State} {j : Job} {js : List Job} {item : Item}

theorem exec_printJobStart (hl : s.print.line = .ready) (hjobs : s.print.jobs = j :: js) (hj : j.state = .queued)
    (hjs : ∀ k, k ∈ js → k.state = .queued ∧ k.number ≠ j.number) :
    exec .printJobStart s = .next (s.modPrint fun p => p.started j js).work := by
  have hnone : s.print.current.isNone = true := by
    rw [Option.isNone_iff_eq_none]
    refine List.find?_eq_none.mpr fun k hk => ?_
    rw [hjobs] at hk
    have hq : k.state = .queued := (List.mem_cons.mp hk).elim (fun h => h ▸ hj) fun h => (hjs k h).1
    simp [Job.active, hq]
  have hstart : (s.modPrint fun p => p.modJob j.number fun k => { k with state := .printing }) =
      s.modPrint fun p => p.started j js :=
    congrArg (fun p => { s with print := p }) (modJob_head hjobs (fun k hk => (hjs k hk).2) _)
  change execPrintJobStart s = _
  unfold execPrintJobStart
  rw [if_pos ⟨hl, hnone⟩, hjobs]
  exact congrArg (fun t : State => Host.Outcome.next t.work) hstart

/-- The first job stands Printing at an item, with no content, read or frame. -/
structure State.AtItem (s : State) (j : Job) (js : List Job) (item : Item) : Prop where
  jobs : s.print.jobs = j :: js
  others : ∀ k, k ∈ js → k.number ≠ j.number
  printing : j.state = .printing
  item : j.items[j.item - 1]? = some item
  content : j.content = none
  read : s.print.read = none
  frame : s.print.frame = none

theorem State.AtItem.reachItem (h : s.AtItem j js item) : s.reachItem = s.reach j item := by
  have hc : s.print.current = some j := PrintEngine.current_head h.jobs (by simp [Job.active, h.printing])
  unfold State.reachItem
  rw [hc]
  dsimp only
  rw [h.item]
  exact if_pos ⟨h.printing, by rw [h.content]; rfl, by rw [h.read]; rfl, by rw [h.frame]; rfl⟩

/-- A job without content has no line to send. -/
theorem State.drive_of_no_content {s : State} (hjobs : s.print.jobs = j :: js) (ha : j.active = true)
    (hc : j.content = none) : s.drive = s := by
  have hn : j.nextLine = none := by
    unfold Job.nextLine
    rw [hc]
    rfl
  unfold State.drive
  rw [PrintEngine.current_head hjobs ha]
  dsimp only
  rw [hn]

theorem State.reach_plain (hs : item.source = none) : s.reach j item =
    s.modPrint fun p => p.modJob j.number fun k => { k with content := some (s.itemLines item) } := by
  unfold State.reach
  rw [hs]

theorem State.reach_page {n : Nat} {page : Page} {offset : Nat} (hs : item.source = some (n, page, offset)) :
    s.reach j item = if s.linkOpen then s.startRead j page offset else s.modPrint fun p => p.hold j.number .link := by
  unfold State.reach
  rw [hs]

/-- On a Ready line the first line of a content is sent (R150). -/
theorem State.drive_first {l : PrintLine} {ls : List PrintLine} (hjobs : s.print.jobs = j :: js)
    (hp : j.state = .printing) (hc : j.content = some (l :: ls)) (hline : j.line = 1) (hread : s.print.read = none)
    (hframe : s.print.frame = none) (hl : s.print.line = .ready) :
    s.drive = s.modPrint fun p => p.beginFrame l s.up := by
  have hn : j.nextLine = some l := by
    unfold Job.nextLine
    rw [hc, hline]
    rfl
  unfold State.drive
  rw [PrintEngine.current_head hjobs (by simp [Job.active, hp])]
  dsimp only
  rw [hn]
  dsimp only
  rw [if_pos ⟨hp, by rw [hframe]; rfl, by rw [hread]; rfl⟩]
  refine congrArg (fun p => { s with print := p }) (show s.print.send j l s.up = s.print.beginFrame l s.up from ?_)
  unfold PrintEngine.send
  rw [hl]

end

theorem State.itemLines_modPrint (s : State) (f : PrintEngine → PrintEngine) (i : Item) :
    (s.modPrint f).itemLines i = s.itemLines i := rfl

/-- Settles O49: the first job starts at its item, and its line is sent, its read begun or its link awaited. -/
theorem jobsStartOnAReadyLine : Obligations.JobsStartOnAReadyLine := by
  unfold Obligations.JobsStartOnAReadyLine
  intro s j js item hl hjobs hj hjs hitem hcontent hline hread hframe
  have hstart := exec_printJobStart hl hjobs hj hjs
  let u := s.modPrint fun p => p.started j js
  let k : Job := { j with state := .printing }
  have hat : u.AtItem k js item := ⟨rfl, fun k hk => (hjs k hk).2, rfl, hitem, hcontent, hread, hframe⟩
  have hwork : u.work = (u.reach k item).drive := congrArg State.drive hat.reachItem
  refine ⟨fun l ls hs hls => ?plain, fun n page offset hs ho => ?reads, fun n page offset hs ho => ?waits⟩
  case plain =>
    let m : Job := { k with content := some (l :: ls) }
    have hreach : u.reach k item = u.modPrint fun p => { p with jobs := m :: js } := by
      rw [State.reach_plain hs, State.itemLines_modPrint, hls]
      exact congrArg (fun p => { u with print := p })
        (modJob_head (p := u.print) rfl hat.others fun k => { k with content := some (l :: ls) })
    have hdrive := State.drive_first (s := u.modPrint fun p => { p with jobs := m :: js }) rfl rfl rfl hline hread hframe hl
    obtain ⟨b, rest, hb⟩ := frameBytes_cons l
    refine ⟨_, hstart, ?_⟩
    rw [show (s.modPrint fun p => p.started j js).work = _ from hwork, hreach, hdrive]
    unfold State.modPrint PrintEngine.beginFrame
    rw [hb]
    exact ⟨rfl, rfl, rfl, ⟨_, rfl, Job.lineMoves_number _ _ m, congrArg Job.content (Job.lineMoves_printing rfl _ _)⟩,
      rfl⟩
  case reads =>
    refine hstart.trans (congrArg Host.Outcome.next (hwork.trans ?_))
    rw [State.reach_page hs, if_pos (show u.linkOpen = true from ho)]
    exact State.drive_of_no_content (s := u.startRead k page offset) rfl rfl hcontent
  case waits =>
    refine hstart.trans (congrArg Host.Outcome.next (hwork.trans ?_))
    have hhold : (u.modPrint fun p => p.hold k.number .link) =
        u.modPrint fun p => { p with jobs := { k with state := .held .link } :: js } :=
      congrArg (fun p => { u with print := p })
        (modJob_head (p := u.print) rfl hat.others fun k => { k with state := .held .link })
    rw [State.reach_page hs, if_neg (show ¬ u.linkOpen = true from Bool.eq_false_iff.mp ho), hhold]
    exact State.drive_of_no_content
      (s := u.modPrint fun p => { p with jobs := { k with state := .held .link } :: js }) rfl rfl hcontent

/-! ## Record reads (R143, R155) -/

section

variable (dt : Nat) {s : State} {r : RecordRead} {j : Job} {item : Item} {b : List Byte}

theorem exec_recordReadDone (hr : s.print.read = some r) (hc : s.print.current = some j)
    (hi : j.items[j.item - 1]? = some item) :
    exec (.recordReadDone dt b) s = .next ((s.elapse dt).readDone r j item b) := by
  change execRecordReadDone dt b s = _
  unfold execRecordReadDone
  dsimp only
  rw [show (s.elapse dt).print.read = some r from hr, show (s.elapse dt).print.current = some j from hc]
  dsimp only
  rw [hi]

theorem State.readDone_header (hr : r.stage = .header) (hb : b.length = 16) : s.readDone r j item b =
    if ¬ headerFound item b then s.endRead j notFoundLines
    else if field b 0 2 = 16 then s.endRead j (recordLines item b) else s.readRest r b := by
  unfold State.readDone
  rw [hr]
  dsimp only
  rw [fitTo_of_length hb]

theorem State.readDone_rest {h : List Byte} (hr : r.stage = .rest h) (hb : b.length = field h 0 2 - 16) :
    s.readDone r j item b = s.endRead j (recordLines item (h ++ b)) := by
  unfold State.readDone
  rw [hr]
  dsimp only
  rw [fitTo_of_length hb]

end

/-- Settles O50: the two stages of a record read, and its end by the cancel that may be pending. -/
theorem recordReadsGiveTheirLines : Obligations.RecordReadsGiveTheirLines := by
  unfold Obligations.RecordReadsGiveTheirLines
  intro dt s r j item b hr hc hi
  have hexec := exec_recordReadDone dt (b := b) hr hc hi
  refine ⟨fun hs hb hf hn => hexec.trans ?rest, fun hs hb hf => hexec.trans ?notFound,
    fun hs hb hf hn => hexec.trans ?short, fun h hs hb => hexec.trans ?complete,
    fun u ls => ⟨fun hp => if_pos hp, fun hp => if_neg (Bool.eq_false_iff.mp hp)⟩⟩
  case rest =>
    rw [State.readDone_header hs hb, if_neg (not_not.mpr hf), if_neg hn]
    rfl
  case notFound => rw [State.readDone_header hs hb, if_pos (Bool.eq_false_iff.mp hf)]
  case short => rw [State.readDone_header hs hb, if_neg (not_not.mpr hf), if_pos hn]
  case complete => rw [State.readDone_rest hs hb]

end Sys2Proof.Machine

/-! # The Van Line Unit (R159 to R162, R164 to R167)

The settings of the lines, the debounce with the action of an edge, the departure of the link, and the wake delay. -/

namespace Sys2Proof.Machine

/-! ## Set Van Lines (R161) -/

theorem parseSense_none_iff (n : Nat) : parseSense n = none ↔ n ∉ [0, 1, 2, 255] := by
  unfold parseSense
  split <;> simp_all

theorem parseAction_none_iff (n : Nat) : parseAction n = none ↔ n ∉ [0, 1, 2, 255] := by
  unfold parseAction
  split <;> simp_all

theorem parseSetting_iff (l : VanLine) (b : LineSettingBody) (x : EdgeSense × LineAction) :
    parseSetting l b = some x ↔ parseSense b.sense = some x.1 ∧ parseAction b.action = some x.2
      ∧ ¬ (l = .mark ∧ x.2 = .pauseLiveSite) := by
  unfold parseSetting
  cases parseSense b.sense with
  | none => simp
  | some s =>
    cases parseAction b.action with
    | none => simp
    | some a =>
      obtain ⟨xs, xa⟩ := x
      dsimp only
      split
      · next h =>
        refine ⟨fun hn => (nomatch hn), fun ⟨_, ha, hn⟩ => absurd ?_ hn⟩
        cases ha
        exact h
      · next h =>
        simp only [Option.some.injEq, Prod.mk.injEq]
        refine ⟨fun ⟨hs, ha⟩ => ⟨hs, ha, ha ▸ h⟩, fun ⟨hs, ha, _⟩ => ⟨hs, ha⟩⟩

/-- A setting that is not in its range (R161). -/
def BadSetting (b : PerLine LineSettingBody) (l : VanLine) : Prop :=
  parseSense (b.get l).sense = none ∨ parseAction (b.get l).action = none
    ∨ (l = .mark ∧ parseAction (b.get l).action = some .pauseLiveSite)

theorem parseSetting_none_iff (b : PerLine LineSettingBody) (l : VanLine) :
    parseSetting l (b.get l) = none ↔ BadSetting b l := by
  unfold parseSetting BadSetting
  cases parseSense (b.get l).sense with
  | none => simp
  | some s => cases parseAction (b.get l).action <;> simp

section

variable {v : PerLine LineState} {b : PerLine LineSettingBody}

theorem newSettings_some {new : VanLine → EdgeSense × LineAction} (h : ∀ l, parseSetting l (b.get l) = some (new l)) :
    newSettings v b = some (PerLine.of fun l => (v.get l).take (new l)) := by
  have hi : parseSetting .ignition b.ignition = some (new .ignition) := h .ignition
  have hm : parseSetting .mark b.mark = some (new .mark) := h .mark
  have hd : parseSetting .door b.door = some (new .door) := h .door
  have ha : parseSetting .aux b.aux = some (new .aux) := h .aux
  unfold newSettings
  rw [hi, hm, hd, ha]
  rfl

theorem newSettings_none {l : VanLine} (h : parseSetting l (b.get l) = none) : newSettings v b = none := by
  unfold newSettings
  split
  · next hi hm hd ha =>
    cases l
    · exact absurd h (by rw [show b.get .ignition = b.ignition from rfl, hi]; exact Option.some_ne_none _)
    · exact absurd h (by rw [show b.get .mark = b.mark from rfl, hm]; exact Option.some_ne_none _)
    · exact absurd h (by rw [show b.get .door = b.door from rfl, hd]; exact Option.some_ne_none _)
    · exact absurd h (by rw [show b.get .aux = b.aux from rfl, ha]; exact Option.some_ne_none _)
  · rfl

end

section

variable {s t : State} {b : PerLine LineSettingBody} {r : Nat}

theorem takes_setVanLines {code : ResultCode} {area : List Byte} (h : s.setVanLines b r = ⟨t, code, area⟩) :
    Takes (.setVanLines b r) (.setVanLines b r) s t code area := takes_of_answer (g := (·.setVanLines b r)) rfl h

theorem State.setVanLines_badValue {l : VanLine} (h : BadSetting b l) : s.setVanLines b r = refuse s .badValue := by
  unfold State.setVanLines
  rw [newSettings_none ((parseSetting_none_iff b l).mpr h)]

theorem State.setVanLines_inRange {new : VanLine → EdgeSense × LineAction}
    (h : ∀ l, parseSetting l (b.get l) = some (new l)) : s.setVanLines b r =
      if r < 12 then refuse s .badOrder
      else accept (s.modVan fun v => { v with lines := PerLine.of fun l => (s.van.lines.get l).take (new l) })
        (settingsArea s.van.lines) := by
  unfold State.setVanLines
  rw [newSettings_some h]

end

/-- Settles O51: the settings in range, each that is not, and the result area that is too short. -/
theorem setVanLinesReplacesTheSettings : Obligations.SetVanLinesReplacesTheSettings := by
  unfold Obligations.SetVanLinesReplacesTheSettings
  refine fun s b r => ⟨fun new hnew hm hr => takes_setVanLines ?replaces, fun h => takes_setVanLines ?badValue,
    fun h hm hr => takes_setVanLines ?short, fun n => ⟨parseSense_none_iff n, parseAction_none_iff n⟩⟩
  case replaces =>
    have hset (l : VanLine) : parseSetting l (b.get l) = some (new l) :=
      (parseSetting_iff _ _ _).mpr ⟨(hnew l).1, (hnew l).2, fun ⟨hl, ha⟩ => hm (hl ▸ ha)⟩
    rw [State.setVanLines_inRange hset, if_neg (Nat.not_lt.mpr hr)]
    rfl
  case badValue =>
    rcases h with ⟨l, h⟩ | h
    · exact State.setVanLines_badValue (l := l) (h.imp_right Or.inl)
    · exact State.setVanLines_badValue (l := .mark) (Or.inr (Or.inr ⟨rfl, h⟩))
  case short =>
    have hset (l : VanLine) : ∃ x, parseSetting l (b.get l) = some x := by
      refine Option.ne_none_iff_exists'.mp fun hn => ?_
      rcases (parseSetting_none_iff b l).mp hn with hn | hn | ⟨rfl, hn⟩
      · exact (h l).1 hn
      · exact (h l).2 hn
      · exact hm hn
    obtain ⟨new, hnew⟩ := Classical.axiomOfChoice hset
    exact (State.setVanLines_inRange hnew).trans (if_pos hr)

/-! ## The debounce (R159) -/

section

variable (dt : Nat) {s : State} {l : VanLine} {x : LineState} (h : s.van.lines.get l = x)

theorem LineState.rawChange_settled {v : Level} (hv : v ≠ x.raw) (hs : x.settling = none) (now : Stamp) :
    x.rawChange v now = { x with raw := v, pendingChange := if v = x.level then none else some now } := by
  unfold LineState.rawChange
  rw [if_neg hv, hs]

theorem LineState.rawChange_settling {v : Level} (hv : v ≠ x.raw) {n : Nat} (hs : x.settling = some n) (now : Stamp) :
    x.rawChange v now = { x with raw := v, settling := some now.up } := by
  unfold LineState.rawChange
  rw [if_neg hv, hs]

include h

/-- The line of a state at its place. -/
theorem State.modLine_at (f : LineState → LineState) : (s.elapse dt).modLine l f =
    { s.elapse dt with van := { s.van with lines := s.van.lines.set l (f x) } } := by
  rw [← h]
  rfl

theorem exec_vanLineChange (v : Level) : exec (.vanLineChange dt l v) s = .next { s.elapse dt with
    van := { s.van with lines := s.van.lines.set l (x.rawChange v ⟨s.clock.advance dt, s.up + dt⟩) } } :=
  congrArg Host.Outcome.next (State.modLine_at dt h fun l => l.rawChange v ⟨s.clock.advance dt, s.up + dt⟩)

theorem exec_lineDebounced_first {n : Nat} (hs : x.settling = some n) (hn : n + 20 ≤ s.up + dt) :
    exec (.lineDebounced dt l) s = .next { s.elapse dt with
      van := { s.van with lines := s.van.lines.set l { x with level := x.raw, settling := none } } } := by
  change execLineDebounced dt l s = _
  unfold execLineDebounced
  dsimp only
  rw [show (s.elapse dt).van.lines.get l = x from h, hs]
  dsimp only
  rw [if_pos (show (s.elapse dt).settled n = true from decide_eq_true hn)]
  exact congrArg Host.Outcome.next (State.modLine_at dt h fun m => { m with level := m.raw, settling := none })

theorem exec_lineDebounced_edge {p : Stamp} (hs : x.settling = none) (hp : x.pendingChange = some p)
    (hn : p.up + 20 ≤ s.up + dt) {u : State} (hu : u = { s.elapse dt with
      van := { s.van with lines := s.van.lines.set l { x with level := x.raw, pendingChange := none } } }) :
    exec (.lineDebounced dt l) s = .next (u.edge l x x.raw p.time) := by
  rw [← State.modLine_at dt h fun m => { m with level := m.raw, pendingChange := none }] at hu
  change execLineDebounced dt l s = _
  unfold execLineDebounced
  dsimp only
  rw [← hu, show (s.elapse dt).van.lines.get l = x from h, hs, hp]
  exact if_pos (decide_eq_true hn)

end

section

variable {s : State} (l : VanLine) (x : LineState) (v : Level) (t : Time)

theorem State.edge_acts (hp : s.lp.part = .running ∨ s.lp.part = .resting)
    (he : edgeMatches x.sense (edgeTo v) = true) :
    s.edge l x v t = (s.lineAction l x.action (edgeTo v) v t).raise .vanLine :=
  if_pos (by rw [Bool.and_eq_true]; exact ⟨decide_eq_true hp, he⟩)

theorem State.edge_ignored (h : (s.lp.part = .selfTest ∨ s.lp.part = .broken)
    ∨ edgeMatches x.sense (edgeTo v) = false) : s.edge l x v t = s := by
  refine if_neg fun hc => ?_
  obtain ⟨ha, he⟩ := Bool.and_eq_true_iff.mp hc
  have hp := of_decide_eq_true ha
  rcases h with (h | h) | h
  · rw [h] at hp
    exact hp.elim PartState.noConfusion PartState.noConfusion
  · rw [h] at hp
    exact hp.elim PartState.noConfusion PartState.noConfusion
  · rw [h] at he
    cases he

end

/-! ## The actions (R112, R113, R160, R167) -/

section

variable {u : State} {l : VanLine} (e : Edge) (v : Level) (t : Time)

theorem State.lineAction_none (l : VanLine) : u.lineAction l .none e v t = u := by cases l <;> rfl

theorem State.lineAction_journal (hl : l ≠ .mark) : u.lineAction l .journal e v t = u.lineEntry l e v none t := by
  cases l
  case mark => exact absurd rfl hl
  all_goals rfl

theorem State.lineAction_pause (hl : l ≠ .mark) : u.lineAction l .pauseLiveSite e v t = u.pauseLive l e v t := by
  cases l
  case mark => exact absurd rfl hl
  all_goals rfl

theorem State.lineAction_wake (l : VanLine) : u.lineAction l .wake e v t = u.wakeAction l := by cases l <;> rfl

theorem State.lineAction_mark : u.lineAction .mark .journal e v t = u.markEntry e t := rfl

theorem State.liveLabel_of_none (h : u.liveSlot = none) : u.liveLabel = 0 := by
  unfold State.liveLabel State.liveSite
  rw [h]
  rfl

theorem Live.site {k : Fin 8} {y : Site} (h : Live u k y) : u.liveSite = some y := by
  unfold State.liveSite
  rw [h.1]
  exact h.2

theorem Live.label {k : Fin 8} {y : Site} (h : Live u k y) : u.liveLabel = y.label := by
  unfold State.liveLabel
  rw [h.site]
  rfl

theorem State.pauseLive_noSite (l : VanLine) (h : u.liveSlot = none) :
    u.pauseLive l e v t = u.put 0 (.line l e v (some .noSite) t) := by
  rw [← State.liveLabel_of_none h]
  unfold State.pauseLive
  rw [h]
  rfl

theorem State.pauseLive_live {k : Fin 8} {y : Site} (l : VanLine) (h : Live u k y) : u.pauseLive l e v t =
    if y.state = .surveying then (u.pause k y.label (some l)).lineEntry l e v (some .paused) t
    else u.put y.label (.line l e v (some .notSurveying) t) := by
  rw [← h.label]
  unfold State.pauseLive
  rw [h.1, h.site, h.label]
  dsimp only
  unfold State.lineEntry
  rw [h.label]

/-- A Mark entry, and the next mark's number (R112). -/
theorem State.markEntry_eq {w : State} (hw : w = u.putAnchored u.liveLabel (u.autoAnchor u.liveLabel)
    (.mark e u.van.nextMark t)) : u.markEntry e t = { w with van := { w.van with
      nextMark := if 65535 ≤ u.van.nextMark then 1 else u.van.nextMark + 1 } } := by
  have hn : w.van.nextMark = u.van.nextMark := by
    rw [hw]
    exact (State.putAnchored_lines _ _ _ _).nextMark
  rw [← nextFrom1_eq, ← hn]
  subst hw
  rfl

end

section

variable {u : State}

theorem State.restExit_of_part (h : u.lp.part ≠ .resting) (w : WakeSource) : u.restExit w = u := by
  unfold State.restExit
  split
  · next hp _ => exact absurd hp h
  · rfl

theorem State.restExit_first {r : RestRecord} (hp : u.lp.part = .resting) (hr : u.van.rest = some r)
    (he : r.exit = none) (w : WakeSource) : u.restExit w = u.modVan fun v =>
      { v with source := w, rest := some { r with exit := some ⟨w, u.now, false⟩ } } := by
  unfold State.restExit
  rw [hp, hr]
  dsimp only
  rw [he]

theorem State.inWakeDelay_of_rest {r : RestRecord} (hp : u.lp.part = .resting) (hr : u.van.rest = some r) :
    u.inWakeDelay = r.exit.isSome := by
  unfold State.inWakeDelay
  rw [hp, hr]
  rfl

theorem State.wakeRequest_part (w : WakeSource) : (u.wakeRequest w).lp = u.lp := by
  unfold State.wakeRequest
  split <;> rfl

theorem State.wakeRequest_now (w : WakeSource) : (u.wakeRequest w).now = u.now := by
  unfold State.wakeRequest
  split <;> rfl

theorem State.wakeAction_running (l : VanLine) (h : u.lp.part = .running) :
    u.wakeAction l = u.wakeRequest (.line l) := by
  have hd : u.inWakeDelay = false := by
    unfold State.inWakeDelay
    rw [h]
    rfl
  unfold State.wakeAction
  rw [if_neg (Bool.eq_false_iff.mp hd)]
  exact State.restExit_of_part (by rw [State.wakeRequest_part, h]; decide) _

theorem State.wakeAction_resting (l : VanLine) {r : RestRecord} (hp : u.lp.part = .resting) (hr : u.van.rest = some r)
    (he : r.exit = none) : u.wakeAction l = (u.wakeRequest (.line l)).modVan fun v =>
      { v with source := .line l, rest := some ⟨r.began, some ⟨.line l, u.now, false⟩⟩ } := by
  have hd : u.inWakeDelay = false := by rw [State.inWakeDelay_of_rest hp hr, he]; rfl
  unfold State.wakeAction
  rw [if_neg (Bool.eq_false_iff.mp hd), State.restExit_first (r := r) (by rw [State.wakeRequest_part, hp])
    ((State.wakeRequest_lines u _).rest.trans hr) he, State.wakeRequest_now]

theorem State.wakeAction_delay (l : VanLine) {r : RestRecord} (hp : u.lp.part = .resting) (hr : u.van.rest = some r)
    (he : r.exit.isSome = true) : u.wakeAction l = u :=
  if_pos ((State.inWakeDelay_of_rest hp hr).trans he)

end

/-- Settles O52: the raw changes, the level that is taken, and the action of an edge case by case. -/
theorem vanLinesAreDebounced : Obligations.VanLinesAreDebounced := by
  unfold Obligations.VanLinesAreDebounced
  intro dt s l x h
  refine ⟨fun v hv hs => ?change, fun v n hv hs => ?restart, fun n hs hn => exec_lineDebounced_first dt h hs hn,
    fun p u hs hp hn hu => ?debounced, fun u e v t => ⟨State.lineAction_none e v t l,
      State.lineAction_journal e v t, fun hl hn => ?noSite, fun k y hl hk hy => ?pauses, fun k y hl hk hy => ?notSurveying,
      fun hp => (State.lineAction_wake e v t l).trans (State.wakeAction_running l hp), fun r w hp hr he hw => ?exits,
      fun r hp hr he => (State.lineAction_wake e v t l).trans (State.wakeAction_delay l hp hr he),
      fun w hw => State.markEntry_eq e t hw⟩⟩
  case change => rw [exec_vanLineChange dt h, LineState.rawChange_settled hv hs]
  case restart => rw [exec_vanLineChange dt h, LineState.rawChange_settling hv hs]
  case debounced =>
    rw [exec_lineDebounced_edge dt h hs hp hn hu]
    have hpart : u.lp.part = s.lp.part := by rw [hu]; rfl
    rw [← hpart]
    exact ⟨fun ha he => congrArg Host.Outcome.next (State.edge_acts l x x.raw p.time ha he),
      fun hi => congrArg Host.Outcome.next (State.edge_ignored l x x.raw p.time hi)⟩
  case noSite => exact (State.lineAction_pause e v t hl).trans (State.pauseLive_noSite e v t l hn)
  case pauses =>
    exact (State.lineAction_pause e v t hl).trans ((State.pauseLive_live e v t l hk).trans (if_pos hy))
  case notSurveying =>
    exact (State.lineAction_pause e v t hl).trans ((State.pauseLive_live e v t l hk).trans (if_neg hy))
  case exits =>
    subst hw
    exact (State.lineAction_wake e v t l).trans (State.wakeAction_resting l hp hr he)

end Sys2Proof.Machine

/-! # The departure and the wake delay (R162, R165 to R167)

Away and Rest, the link that becomes Away, and the end of the wake delay, with what Back then leaves. -/

namespace Sys2Proof.Machine

/-! ## The departure (R162, R166) -/

section

variable {s t : State}

theorem takes_rest {code : ResultCode} {area : List Byte} (h : s.rest = ⟨t, code, area⟩) :
    Takes .rest .rest s t code area := takes_of_answer (g := (·.rest)) rfl h

theorem State.rest_accepted (hl : s.liveSlot = none) (hj : s.print.jobs = []) : s.rest = accept (s.depart .rest) [] := by
  unfold State.rest
  rw [hl, hj]
  rfl

theorem State.rest_wrongState (h : s.liveSlot ≠ none ∨ s.print.jobs ≠ []) : s.rest = refuse s .wrongState :=
  if_pos (h.imp_left Option.isSome_iff_ne_none.mpr)

theorem State.departureReady_of {d : Departure} (hd : s.lp.departure = some d) (hw : s.lp.walker = .stopped)
    (hl : s.lp.link = .attended) (hr : s.print.read = none) (hn : ∀ st, s.store.deliveries.get st = none) :
    s.departureReady = some d := by
  unfold State.departureReady
  rw [hd, hw, hl, hr, Option.filter_some, if_pos]
  rw [Bool.and_eq_true, List.all_eq_true]
  exact ⟨rfl, fun st _ => by rw [hn st]; rfl⟩

theorem State.departureReady_none (h : s.lp.departure = none ∨ s.print.read.isSome = true
    ∨ (∃ st, (s.store.deliveries.get st).isSome = true)) : s.departureReady = none := by
  unfold State.departureReady
  refine Option.filter_eq_none_iff.mpr fun d hd hc => ?_
  obtain ⟨hc, hall⟩ := Bool.and_eq_true_iff.mp hc
  have hread := (Bool.and_eq_true_iff.mp hc).2
  rcases h with h | h | ⟨st, h⟩
  · rw [h] at hd
    cases hd
  · rw [Option.isNone_iff_eq_none.mp hread] at h
    cases h
  · have hst := List.all_eq_true.mp hall st (by cases st <;> decide)
    rw [Option.isNone_iff_eq_none.mp hst] at h
    cases h

theorem exec_linkBecomesAway {d : Departure} (h : s.departureReady = some d) :
    exec .linkBecomesAway s = .next (s.becomeAway d) := by
  change execLinkBecomesAway s = _
  unfold execLinkBecomesAway
  rw [h]

theorem exec_linkBecomesAway_waits (h : s.departureReady = none) : exec .linkBecomesAway s = .next s := by
  change execLinkBecomesAway s = _
  unfold execLinkBecomesAway
  rw [h]

/-- The state with the link Away and its entry (step 3 of R162). -/
def State.madeAway (s : State) (d : Departure) : State :=
  State.put { s with lp := { s.lp with link := .away, departure := none, awaySince := some s.now } } 0
    (.away d.cause s.store.pool.length s.store.total d.ordered.time)

theorem State.madeAway_now (s : State) (d : Departure) : (s.madeAway d).now = s.now := by
  obtain ⟨-, hup, hclock⟩ := (State.put_quiet
    { s with lp := { s.lp with link := .away, departure := none, awaySince := some s.now } } 0
    (.away d.cause s.store.pool.length s.store.total d.ordered.time)).steady.time
  exact congrArg₂ Stamp.mk hclock hup

theorem State.becomeAway_away {d : Departure} (h : d.cause = .away) : s.becomeAway d = s.madeAway d := by
  unfold State.becomeAway
  dsimp only
  rw [h]
  unfold State.madeAway
  rw [h]
  rfl

theorem State.becomeAway_rest {d : Departure} (h : d.cause = .rest) : s.becomeAway d = (s.madeAway d).enterRest := by
  unfold State.becomeAway
  dsimp only
  rw [h]
  unfold State.madeAway
  rw [h]
  rfl

end

/-! ## What Back leaves at the end of the wake delay (R165, R167) -/

/-- The part, the lines, Rest, the judged line, the sites, the measuring blocks and the time are as they were. -/
structure BackFrame (s t : State) : Prop where
  part : t.lp.part = s.lp.part
  lines : t.van.lines = s.van.lines
  rest : t.van.rest = s.van.rest
  judged : t.print.judged = s.print.judged
  sites : SameSites s t
  measuring : SameMeasuring s t
  time : SameTime s t

theorem BackFrame.trans {s t u : State} (a : BackFrame s t) (b : BackFrame t u) : BackFrame s u :=
  ⟨b.part.trans a.part, b.lines.trans a.lines, b.rest.trans a.rest, b.judged.trans a.judged,
    fun k => (b.sites k).trans (a.sites k), a.measuring.trans b.measuring,
    b.time.1.trans a.time.1, b.time.2.1.trans a.time.2.1, b.time.2.2.trans a.time.2.2⟩

theorem BackFrame.refl (s : State) : BackFrame s s :=
  ⟨rfl, rfl, rfl, rfl, fun _ => rfl, SameMeasuring.refl s, rfl, rfl, rfl⟩

theorem State.put_backFrame (s : State) (n : Nat) (b : EntryBody) : BackFrame s (s.put n b) := by
  have hq := State.put_quiet s n b
  have ha := State.put_aside s n b
  have hl := State.put_lines s n b
  exact ⟨SameLink.field (·.part) (fun _ => rfl) hq.steady.link, hl.lines, hl.rest, congrArg PrintEngine.judged ha.print,
    hq.sites, ha.measuring, hq.steady.time⟩

theorem State.linkReturns_signals (s : State) : SameSignals s.print s.linkReturns.print := by
  unfold State.linkReturns
  split
  · refine SameSignals.trans ?_ (State.work_signals _)
    exact ⟨rfl, rfl, rfl, rfl, rfl, rfl, rfl⟩
  · exact SameSignals.refl _

theorem OnlyPrint.backFrame {s t : State} (h : OnlyPrint s t) (hj : t.print.judged = s.print.judged) :
    BackFrame s t :=
  ⟨congrArg LinkPort.part h.lp, congrArg VanLines.lines h.van, congrArg VanLines.rest h.van, hj,
    fun k => by rw [h]; rfl, h.measuring, by rw [h], by rw [h], by rw [h]⟩

theorem State.linkReturns_backFrame (s : State) : BackFrame s s.linkReturns :=
  (State.linkReturns_only s).backFrame (State.linkReturns_signals s).judged

/-- The state with the link Attended again and WAKE low (R165). -/
def State.attendedAgain (s : State) : State :=
  { s with lp := { s.lp with link := .attended, awaySince := none }, van := { s.van with wake := .low } }

/-- The Back entry of an Away link (R165). -/
def State.backEntry (s : State) : State :=
  s.attendedAgain.put 0 (.back s.van.source s.van.wake s.store.total s.awayTime)

theorem State.linkBack_eq (s : State) : s.linkBack = s.backEntry.walkerWaits.linkReturns := rfl

theorem State.linkBack_backFrame (s : State) : BackFrame s s.linkBack := by
  have h1 : BackFrame s s.attendedAgain :=
    ⟨rfl, rfl, rfl, rfl, fun _ => rfl, SameMeasuring.refl s, rfl, rfl, rfl⟩
  have h2 : BackFrame s.backEntry s.backEntry.walkerWaits :=
    ⟨rfl, rfl, rfl, rfl, fun _ => rfl, SameMeasuring.refl _, rfl, rfl, rfl⟩
  exact (h1.trans (State.put_backFrame _ _ _)).trans (h2.trans (State.linkReturns_backFrame _))

theorem State.dropDeparture_backFrame (s : State) : BackFrame s s.dropDeparture := by
  unfold State.dropDeparture
  refine BackFrame.trans ?_ (State.linkReturns_backFrame _)
  split <;> exact ⟨rfl, rfl, rfl, rfl, fun _ => rfl, SameMeasuring.refl _, rfl, rfl, rfl⟩

theorem State.backRunning_backFrame (s : State) : BackFrame s s.backRunning := by
  unfold State.backRunning
  split
  · exact State.linkBack_backFrame s
  · split
    · exact State.dropDeparture_backFrame s
    · exact BackFrame.refl s
  · exact BackFrame.refl s
  · exact BackFrame.refl s

/-! ## WAKE under an entry on a link that is not Away -/

theorem State.wakeRequest_van {s : State} (h : s.lp.link ≠ .away) (w : WakeSource) : (s.wakeRequest w).van = s.van := by
  rw [State.wakeRequest_dropped w (Or.inl h)]

theorem State.addRecords_van {s : State} (h : s.lp.link ≠ .away) (st : Stream) (rs : List Record) :
    (s.addRecords st rs).van = s.van := by
  rw [State.addRecords_eq]
  unfold State.storeHighTest
  split
  · exact State.wakeRequest_van (s := (s.withRecords st rs).raise .storeHigh) h _
  · rfl

theorem State.enter_van {s : State} (h : s.lp.link ≠ .away) (r : EntryRequest) : (s.enter r).1.van = s.van := by
  unfold State.enter
  split
  · rfl
  · split
    · dsimp only
      rw [State.countEntry_van, State.addRecords_van (by rw [State.setJournal_lp]; exact h), State.setJournal_van]
    · exact (State.countLostEntry_van _ _).trans (State.setJournal_van _ _ _)

theorem State.linkBack_link (s : State) : s.linkBack.lp.link = .attended ∧ s.linkBack.van.wake = .low := by
  have honly := State.linkReturns_only s.backEntry.walkerWaits
  have hlink := (State.put_quiet s.attendedAgain 0 (.back s.van.source s.van.wake s.store.total s.awayTime)).steady.link
  have hvan := State.enter_van (s := s.attendedAgain) (fun h => nomatch h)
    (deviceRequest (.back s.van.source s.van.wake s.store.total s.awayTime))
  rw [State.linkBack_eq]
  exact ⟨(congrArg LinkPort.link honly.lp).trans (SameLink.field (·.link) (fun _ => rfl) hlink),
    (congrArg VanLines.wake honly.van).trans (congrArg VanLines.wake hvan)⟩

/-! ## The end of the wake delay (R167) -/

/-- The state with the line judged and the Woke entry, before a Back of the exit (steps 1 to 3 of R167). -/
def State.awake (s : State) (r : RestRecord) (e : RestExit) : State :=
  State.put (State.settle { s with
    lp := { s.lp with part := .running }, van := { s.van with rest := none }
    print := { s.print with judged := true, paperHold := none, heatHold := none } }) 0
    (.woke s.van.source r.began.time e.at_.time)

section

variable {s : State} {r : RestRecord} {e : RestExit}

theorem State.wakeUp_eq (s : State) (r : RestRecord) (e : RestExit) : s.wakeUp r e =
    if e.source = .back ∨ e.backRemembered = true then (s.awake r e).backRunning else s.awake r e := rfl

/-- The part Running and Rest over, with the rest of the state as it was but for the Print Engine and the store. -/
theorem State.awake_frame (s : State) (r : RestRecord) (e : RestExit) : (s.awake r e).lp.part = .running
    ∧ (s.awake r e).van.rest = none ∧ (s.awake r e).print.judged = true ∧ SameSites s (s.awake r e)
    ∧ SameMeasuring s (s.awake r e) ∧ SameTime s (s.awake r e) ∧ (s.awake r e).van.lines = s.van.lines
    ∧ (s.awake r e).lp.link = s.lp.link ∧ (s.awake r e).lp.awaySince = s.lp.awaySince := by
  let t : State := { s with
    lp := { s.lp with part := .running }, van := { s.van with rest := none }
    print := { s.print with judged := true, paperHold := none, heatHold := none } }
  have hsettle : BackFrame t t.settle := (State.settle_only t).backFrame (State.settle_signals t).judged
  have hput := State.put_backFrame t.settle 0 (.woke s.van.source r.began.time e.at_.time)
  have h := hsettle.trans hput
  have hlink := (State.put_quiet t.settle 0 (.woke s.van.source r.began.time e.at_.time)).steady.link
  have hlp := (State.settle_only t).lp
  exact ⟨h.part, h.rest, h.judged, h.sites, h.measuring, h.time, h.lines,
    (SameLink.field (·.link) (fun _ => rfl) hlink).trans (congrArg LinkPort.link hlp :),
    (SameLink.field (·.awaySince) (fun _ => rfl) hlink).trans (congrArg LinkPort.awaySince hlp :)⟩

theorem State.wakeDue_some (hp : s.lp.part = .resting) (hr : s.van.rest = some r) (he : r.exit = some e)
    (hd : e.at_.up + 50 ≤ s.up) : s.wakeDue = some (r, e) := by
  unfold State.wakeDue
  rw [hp, hr]
  dsimp only
  rw [he, Option.filter_some, if_pos (show s.passed e.at_.up Config.wakeDelayMs = true from decide_eq_true hd)]
  rfl

theorem State.wakeDue_early (hp : s.lp.part = .resting) (hr : s.van.rest = some r) (he : r.exit = some e)
    (hd : s.up < e.at_.up + 50) : s.wakeDue = none := by
  unfold State.wakeDue
  rw [hp, hr]
  dsimp only
  rw [he, Option.filter_some, if_neg]
  · rfl
  · exact fun h => Nat.not_le.mpr hd (of_decide_eq_true h)

end

section

variable {s : State} (dt : Nat)

theorem exec_wakeDelayEnd {r : RestRecord} {e : RestExit} (h : (s.elapse dt).wakeDue = some (r, e)) :
    exec (.wakeDelayEnd dt) s = .next ((s.elapse dt).wakeUp r e) := by
  change execWakeDelayEnd dt s = _
  unfold execWakeDelayEnd
  dsimp only
  rw [h]

theorem exec_wakeDelayEnd_early (h : (s.elapse dt).wakeDue = none) :
    exec (.wakeDelayEnd dt) s = .next (s.elapse dt) := by
  change execWakeDelayEnd dt s = _
  unfold execWakeDelayEnd
  dsimp only
  rw [h]

end

/-- Settles O53: the departure step by step, and the end of the wake delay by its exit and the link. -/
theorem departuresAndTheWakeDelay : Obligations.DeparturesAndTheWakeDelay := by
  unfold Obligations.DeparturesAndTheWakeDelay
  refine ⟨fun s => ⟨takes_of_answer (g := fun t => accept (t.depart .away) []) rfl rfl,
      fun hl hj => takes_rest (State.rest_accepted hl hj), fun h => takes_rest (State.rest_wrongState h),
      fun d u hd hw hl hr hn hu => ?departs, fun h => exec_linkBecomesAway_waits (State.departureReady_none h)⟩,
    fun dt s r e hp hr he => ⟨fun hd => ?wakes, fun hd => exec_wakeDelayEnd_early dt
      (State.wakeDue_early (s := s.elapse dt) hp hr he hd)⟩⟩
  case departs =>
    have hexec := exec_linkBecomesAway (State.departureReady_of hd hw hl hr hn)
    replace hu : u = s.madeAway d := hu
    subst hu
    refine ⟨fun hc => hexec.trans (congrArg Host.Outcome.next (State.becomeAway_away hc)),
      fun hc => hexec.trans (congrArg Host.Outcome.next ((State.becomeAway_rest hc).trans ?_))⟩
    unfold State.enterRest
    rw [State.madeAway_now]
    rfl
  case wakes =>
    let t := s.elapse dt
    have hexec := exec_wakeDelayEnd dt (State.wakeDue_some (s := t) hp hr he hd)
    obtain ⟨hpart, hrest, hjudged, hsites, hmeasuring, ⟨hpending, hup, hclock⟩, hlines, hlink, haway⟩ :=
      State.awake_frame t r e
    have hback : BackFrame (t.awake r e) (t.wakeUp r e) := by
      rw [State.wakeUp_eq]
      split
      · exact State.backRunning_backFrame _
      · exact BackFrame.refl _
    have hplain (hs : e.source ≠ .back) (hb : e.backRemembered = false) : t.wakeUp r e = t.awake r e :=
      if_neg (not_or.mpr ⟨hs, Bool.eq_false_iff.mp hb⟩)
    have hreturns (hs : e.source = .back ∨ e.backRemembered = true) (hl : s.lp.link = .away) :
        t.wakeUp r e = (t.awake r e).linkBack :=
      (if_pos hs).trans (State.backRunning_of_away (hlink.trans hl))
    have hidle (hl : s.lp.link = .idle) : t.wakeUp r e = t.awake r e := by
      rw [State.wakeUp_eq, State.backRunning_ignored (Or.inl (hlink.trans hl)), ite_self]
    refine ⟨_, hexec, hback.part.trans hpart, hback.rest.trans hrest, hback.judged.trans hjudged,
      fun k => (hback.sites k).trans (hsites k), hmeasuring.trans hback.measuring, hback.time.1.trans hpending,
      hback.time.2.1.trans hup, hback.time.2.2.trans hclock, hback.lines.trans hlines,
      fun hs hb => by rw [hplain hs hb]; exact hlink, fun hs hl => by rw [hreturns hs hl]; exact State.linkBack_link _,
      fun _ hl => by rw [hidle hl]; exact hlink.trans hl, t.awake r e, rfl, fun h => ?_, fun away hs hl ha => ?_⟩
    · exact h.elim (fun ⟨hs, hb⟩ => hplain hs hb) hidle
    · refine ⟨_, rfl, (hreturns hs hl).trans ?_⟩
      have htime : (t.awake r e).awayTime = away.time := by
        unfold State.awayTime
        rw [haway, show t.lp.awaySince = some away from ha]
        rfl
      rw [State.linkBack_eq, State.walkerWaits_at (n := s.up + dt)]
      · unfold State.backEntry
        rw [htime]
        rfl
      · exact (State.put_quiet _ _ _).steady.time.2.1.trans hup

end Sys2Proof.Machine

/-! # The cycle clock (R24, R25, R27, R33, R77)

When a cycle ends and whether it is good, what its end does to the Front End and the trackers, and the crossings of
the reference. -/

namespace Sys2Proof.Machine

/-! ## Tables and runs of points -/

theorem PerInput.get_same {α : Type} (x : α) (i : Input) : (PerInput.same x).get i = x := by cases i <;> rfl

theorem takePoints_length (n : Nat) (l : List Int) : (takePoints n l).length = n := by
  unfold takePoints
  rw [List.length_take, List.length_append, List.length_replicate]
  omega

theorem takePoints_getD {n m : Nat} (l : List Int) (h : m < n) : (takePoints n l).getD m 0 = l.getD m 0 := by
  unfold takePoints
  rw [List.getD_eq_getElem?_getD, List.getD_eq_getElem?_getD, List.getElem?_take_of_lt h]
  by_cases hl : m < l.length
  · rw [List.getElem?_append_left hl]
  · rw [List.getElem?_append_right (by omega), List.getElem?_eq_none (l := l) (by omega),
      List.getElem?_replicate_of_lt (by omega)]
    rfl

/-- A point of a block's wave with one more cycle (R22, R32). -/
theorem addWave_getD (i : Input) (e : MapEntry) {wave samples : List Int} {n : Nat} (hn : n < 256)
    (hw : wave = [] ∨ wave.length = 256) : (addWave i e wave samples).getD n 0 =
      wave.getD n 0 + samples.getD n 0 * (countWorth i e : Int) := by
  have hs : ((takePoints 256 samples).map fun c => c * (countWorth i e : Int)).getD n 0 =
      samples.getD n 0 * (countWorth i e : Int) := by
    rw [← takePoints_getD samples hn]
    have hmap := List.getD_map (n := n) (takePoints 256 samples) 0 fun c => c * (countWorth i e : Int)
    rwa [zero_mul] at hmap
  unfold addWave
  dsimp only
  rcases hw with rfl | hw
  · rw [if_pos (c := ([] : List Int).isEmpty = true) rfl, hs]
    simp
  · have hne : ¬ wave.isEmpty = true := by
      rw [List.isEmpty_iff]
      rintro rfl
      simp at hw
    rw [if_neg hne, ← hs]
    have h1 : n < wave.length := by omega
    have h2 : n < ((takePoints 256 samples).map fun c => c * (countWorth i e : Int)).length := by
      rw [List.length_map, takePoints_length]
      exact hn
    simp only [List.getD_eq_getElem?_getD]
    rw [List.getElem?_zipWith, List.getElem?_eq_getElem h1, List.getElem?_eq_getElem h2]
    rfl

theorem enterRing_last (ring : List RingCycle) (c : RingCycle) : (enterRing ring c).getLast? = some c := by
  unfold enterRing
  rw [List.getLast?_drop, if_neg]
  · exact List.getLast?_concat
  · rw [List.length_append]
    change ¬ ring.length + 1 ≤ ring.length + 1 - 16
    omega

theorem enterRing_length {ring : List RingCycle} (h : ring.length ≤ 16) (c : RingCycle) :
    (enterRing ring c).length ≤ 16 := by
  unfold enterRing
  rw [List.length_drop, List.length_append]
  change ring.length + 1 - (ring.length + 1 - 16) ≤ 16
  omega

/-- The last value of a partial function along a list. -/
theorem getLast?_filterMap_iff {α β : Type} (g : α → Option β) (l : List α) (b : β) :
    (l.filterMap g).getLast? = some b ↔ ∃ before a after, l = before ++ a :: after ∧ g a = some b
      ∧ ∀ d, d ∈ after → g d = none := by
  rw [List.getLast?_eq_head?_reverse, ← List.filterMap_reverse, List.head?_filterMap, List.findSome?_eq_some_iff]
  constructor
  · rintro ⟨l₁, a, l₂, hl, ha, hn⟩
    refine ⟨l₂.reverse, a, l₁.reverse, ?_, ha, fun d hd => hn d (List.mem_reverse.mp hd)⟩
    rw [← List.reverse_reverse l, hl, List.reverse_append, List.reverse_cons, List.append_assoc]
    rfl
  · rintro ⟨before, a, after, rfl, ha, hn⟩
    refine ⟨after.reverse, a, before.reverse, ?_, ha, fun d hd => hn d (List.mem_reverse.mp hd)⟩
    rw [List.reverse_append, List.reverse_cons, List.append_assoc]
    rfl

/-! ## The end of a cycle, and whether it is good (R24, R25) -/

theorem FrontEnd.measuredBy_iff (f : FrontEnd) (fin q : Nat) : f.measuredBy fin = some q ↔
    ∃ before c after, f.crossings = before ++ c :: after ∧ c.at_ ≤ fin ∧ c.frequency = some q
      ∧ ∀ d, d ∈ after → d.at_ ≤ fin → d.frequency = none := by
  unfold FrontEnd.measuredBy
  rw [getLast?_filterMap_iff]
  simp only [Option.ite_none_right_eq_some, ite_eq_right_iff, and_assoc]

theorem inLockRange_50 (q : Nat) : inLockRange 50 q = true ↔ 45000 ≤ q ∧ q ≤ 55000 := decide_eq_true_iff

theorem inLockRange_60 (q : Nat) : inLockRange 60 q = true ↔ 54000 ≤ q ∧ q ≤ 66000 := decide_eq_true_iff

theorem FrontEnd.goodBy_iff (f : FrontEnd) {x : Site} (hx : x.frequency = 50 ∨ x.frequency = 60) (fin : Nat) :
    f.goodBy x fin = true ↔ ∃ r q, f.reference = some r ∧ f.measuredBy fin = some q
      ∧ (x.frequency = 50 → 45000 ≤ q ∧ q ≤ 55000) ∧ (x.frequency = 60 → 54000 ≤ q ∧ q ≤ 66000)
      ∧ 2000 ≤ percentOf (rmsOf r (f.cycleSquares.get r) 256) x.nominalVoltage := by
  have hrange (q : Nat) : inLockRange x.frequency q = true ↔
      (x.frequency = 50 → 45000 ≤ q ∧ q ≤ 55000) ∧ (x.frequency = 60 → 54000 ≤ q ∧ q ≤ 66000) := by
    rcases hx with h | h
    · simp [h, inLockRange_50]
    · simp [h, inLockRange_60]
  unfold FrontEnd.goodBy
  cases hr : f.reference with
  | none => simp
  | some r =>
    cases hq : f.measuredBy fin with
    | none => simp
    | some q =>
      dsimp only
      rw [Bool.and_eq_true, hrange, decide_eq_true_iff]
      simp [and_assoc, Config.goodCycleLevel]

section

variable {f : FrontEnd} (x : Site)

theorem FrontEnd.follows_iff (f : FrontEnd) : f.follows = true ↔ f.clock = .locked ∧ f.cycleLocked = true := by
  unfold FrontEnd.follows
  rw [Bool.and_eq_true, decide_eq_true_iff]

theorem FrontEnd.cycleEnd_crossing {c : Crossing} {cs : List Crossing} (hl : f.clock = .locked)
    (hc : f.cycleLocked = true) (h : f.crossings = c :: cs) :
    f.cycleEnd x = if f.goodBy x c.at_ then (c.at_, true) else (f.nominalEnd x, false) := by
  have hb : f.boundary = some c.at_ := by
    unfold FrontEnd.boundary
    rw [if_pos (f.follows_iff.mpr ⟨hl, hc⟩), h]
    rfl
  unfold FrontEnd.cycleEnd
  rw [hb]

theorem FrontEnd.cycleEnd_noCrossing (hl : f.clock = .locked) (hc : f.cycleLocked = true) (h : f.crossings = []) :
    f.cycleEnd x = (f.nominalEnd x, false) := by
  have hf := f.follows_iff.mpr ⟨hl, hc⟩
  have hb : f.boundary = none := by
    unfold FrontEnd.boundary
    rw [h, List.head?_nil, Option.map_none, ite_self]
  unfold FrontEnd.cycleEnd
  rw [hb, hf]
  rfl

theorem FrontEnd.cycleEnd_nominal (h : f.clock ≠ .locked ∨ f.cycleLocked = false) :
    f.cycleEnd x = (f.nominalEnd x, f.goodBy x (f.nominalEnd x)) := by
  have hf : f.follows = false := by
    rw [← Bool.not_eq_true, f.follows_iff]
    rintro ⟨hl, hc⟩
    rcases h with h | h
    · exact h hl
    · rw [h] at hc
      cases hc
  have hb : f.boundary = none := by
    unfold FrontEnd.boundary
    rw [hf]
    rfl
  unfold FrontEnd.cycleEnd
  rw [hb, hf, Bool.not_false, Bool.true_and]

end

/-! ## The commands of the clock -/

section

variable {s : State} {k : Fin 8} {x : Site} (dt : Nat)

theorem exec_cycleEnd (h : Live s k x) : exec (.cycleEnd dt) s =
    if s.fe.cycleRuns x (s.up + dt) then .next ((s.elapse dt).endCycle x) else .next (s.elapse dt) := by
  change execCycleEnd dt s = _
  unfold execCycleEnd
  dsimp only
  rw [(h.elapse dt).2]
  rfl

theorem FrontEnd.cycleRuns_iff (f : FrontEnd) (x : Site) (up : Nat) : f.cycleRuns x up = true ↔
    f.clock ≠ .stopped ∧ f.halvesInCycle = 2 ∧ f.cyclesInBlock < blockCycles x.frequency
      ∧ (f.cycleEnd x).1 / 1000000 ≤ up := by
  unfold FrontEnd.cycleRuns FrontEnd.runs
  simp only [Bool.and_eq_true, decide_eq_true_iff, and_assoc]
  rfl

theorem exec_zeroCrossing (ns : Nat) : exec (.zeroCrossing dt ns) s =
    if s.fe.crosses ((s.up + dt) * 1000000 + ns) then
      .next { s.elapse dt with fe := s.fe.cross ((s.up + dt) * 1000000 + ns) }
    else .next (s.elapse dt) := rfl

theorem FrontEnd.crosses_iff (f : FrontEnd) (at_ : Nat) : f.crosses at_ = true ↔
    f.clock ≠ .stopped ∧ f.reference.isSome = true ∧ ∀ p, f.lastCrossing = some p → p < at_ := by
  unfold FrontEnd.crosses FrontEnd.runs
  cases f.lastCrossing <;> simp [and_assoc]

theorem FrontEnd.cross_eq (f : FrontEnd) (at_ : Nat) : f.cross at_ = { f with
    lastCrossing := some at_
    crossings := if f.cycleStart.up * 1000000 + f.cycleNs < at_ then
        f.crossings ++ [⟨at_, f.lastCrossing.map fun p => roundDiv 1000000000000 (at_ - p)⟩]
      else f.crossings } := by
  unfold FrontEnd.cross
  change _ = ({ f with lastCrossing := some at_, crossings := if f.startNs < at_ then _ else _ } : FrontEnd)
  split
  · rfl
  · rw [List.append_nil]

theorem exec_lockAcquired_locks (hg : s.fe.good = 5) (hc : s.fe.clock = .seeking ∨ s.fe.clock = .freeRun) :
    exec .lockAcquired s = .next { s with fe := { s.fe with
      clock := .locked, cycleLocked := decide (s.fe.halvesInCycle = 0) } } := if_pos ⟨hg, hc⟩

theorem exec_lockAcquired_ignored (h : s.fe.good ≠ 5 ∨ s.fe.clock = .stopped ∨ s.fe.clock = .locked) :
    exec .lockAcquired s = .next s := by
  refine if_neg fun ⟨hg, hc⟩ => ?_
  rcases h with h | h | h
  · exact h hg
  · rw [h] at hc
    exact hc.elim ClockState.noConfusion ClockState.noConfusion
  · rw [h] at hc
    exact hc.elim ClockState.noConfusion ClockState.noConfusion

end

/-! ## The Front End after a cycle -/

section

variable {f : FrontEnd} {x : Site} {fin : Nat} {good : Bool} (h : f.cycleEnd x = (fin, good))
include h

theorem FrontEnd.endCycle_clock : (f.endCycle x).clock = (clockAfter f.clock f.good good).1
    ∧ (f.endCycle x).good = (clockAfter f.clock f.good good).2 := by
  unfold FrontEnd.endCycle
  rw [h]
  exact ⟨rfl, rfl⟩

theorem FrontEnd.endCycle_start : (f.endCycle x).cycleStart =
      ⟨f.cycleStart.time.advance (fin / 1000000 - f.cycleStart.up), fin / 1000000⟩
    ∧ (f.endCycle x).cycleNs = fin % 1000000 := by
  unfold FrontEnd.endCycle
  rw [h]
  exact ⟨rfl, rfl⟩

theorem FrontEnd.endCycle_frequencies : (f.endCycle x).frequencies =
    f.frequencies ++ (if f.cycleLocked then (f.measuredBy fin).toList else []) := by
  unfold FrontEnd.endCycle
  rw [h]
  dsimp only
  split
  · rfl
  · rw [List.append_nil]

theorem FrontEnd.endCycle_crossings : (f.endCycle x).crossings =
    if f.chosen = f.reference then f.crossings.filter fun c => fin < c.at_ else [] := by
  unfold FrontEnd.endCycle
  rw [h]
  rfl

end

theorem FrontEnd.endCycle_lockedCycles (f : FrontEnd) (x : Site) : (f.endCycle x).lockedCycles =
    if f.cycleLocked then f.lockedCycles + 1 else f.lockedCycles := by
  change f.lockedCycles + f.cycleLocked.toNat = _
  cases f.cycleLocked <;> rfl

theorem FrontEnd.endCycle_cycleLocked (f : FrontEnd) (x : Site) :
    (f.endCycle x).cycleLocked = true ↔ (f.endCycle x).clock = .locked := decide_eq_true_iff

theorem clockAfter_unlocked {c : ClockState} (h : c = .seeking ∨ c = .freeRun) (n : Nat) (good : Bool) :
    clockAfter c n good = (c, if good then min 5 (n + 1) else 0) := by
  rcases h with rfl | rfl <;> cases good <;> rfl

section

variable (s : State) (x : Site)

theorem State.endCycle_tracker {f : Fin 4} {r : Tracker} (h : s.sag.trackers[f] = some r) :
    (s.endCycle x).sag.trackers[f] = some { r with
      remaining := if r.trigger < s.fe.cycleCount + 1 then r.remaining - 1 else r.remaining } := by
  change (s.sag.trackers.map _)[f] = _
  rw [Fin.getElem_fin, Vector.getElem_map, ← Fin.getElem_fin, h]
  refine congrArg some ?_
  unfold Tracker.countCycle
  change (if r.trigger < s.fe.cycleCount + 1 then _ else _) = _
  split <;> rfl

theorem State.endCycle_free {f : Fin 4} (h : s.sag.trackers[f] = none) : (s.endCycle x).sag.trackers[f] = none := by
  change (s.sag.trackers.map _)[f] = _
  rw [Fin.getElem_fin, Vector.getElem_map, ← Fin.getElem_fin, h]
  rfl

end

/-- Settles O54: the end of a cycle field by field, when it comes, the crossings, and the lock. -/
theorem theCycleClockFollowsItsTable : Obligations.TheCycleClockFollowsItsTable := by
  unfold Obligations.TheCycleClockFollowsItsTable
  refine ⟨fun dt s k x fin good hlive hrun hhalf hcycles he => ⟨fun hup => ?early, fun hup => ?ends⟩,
    fun f x nominal hn => ?boundary,
    fun f x fin => ⟨fun hx => f.goodBy_iff hx fin, fun q => f.measuredBy_iff fin q⟩,
    fun dt ns at_ s hat => ⟨fun hr href hlast => ?crosses, fun h => ?ignored, exec_lockAcquired_locks,
      exec_lockAcquired_ignored⟩⟩
  case early =>
    rw [exec_cycleEnd dt hlive, if_neg]
    rw [FrontEnd.cycleRuns_iff, he]
    exact fun hc => Nat.not_le.mpr hup hc.2.2.2
  case ends =>
    let f := s.fe
    let t := (s.elapse dt).endCycle x
    have hexec : exec (.cycleEnd dt) s = .next t := (exec_cycleEnd dt hlive).trans
      (if_pos ((FrontEnd.cycleRuns_iff _ _ _).mpr ⟨hrun, hhalf, hcycles, by rw [he]; exact hup⟩))
    obtain ⟨hclock, hgood⟩ := FrontEnd.endCycle_clock he
    obtain ⟨hstart, hns⟩ := FrontEnd.endCycle_start he
    have hcross := FrontEnd.endCycle_crossings he
    refine ⟨t, hexec, fun hc => ?_, fun hc hg => ?_, fun hc hg => ?_, hstart, hns, rfl, rfl, rfl,
      f.endCycle_cycleLocked x, f.endCycle_lockedCycles x, FrontEnd.endCycle_frequencies he, rfl, rfl,
      fun href => ⟨hcross.trans (if_pos href), if_pos href⟩, fun href => ⟨hcross.trans (if_neg href), if_neg href⟩, rfl,
      fun i => ⟨PerInput.get_of _ i, PerInput.get_same 0 i, PerInput.get_same [] i⟩, fun i n hn hw => ?_,
      enterRing_last _ _, fun hr => enterRing_length hr _, fun j r hr => State.endCycle_tracker (s.elapse dt) x hr,
      fun j hj => State.endCycle_free (s.elapse dt) x hj, rfl⟩
    · rw [clockAfter_unlocked hc] at hclock hgood
      exact ⟨hclock, hgood⟩
    · rw [hc, hg] at hclock hgood
      exact ⟨hclock, hgood⟩
    · rw [hc, hg] at hclock hgood
      exact ⟨hclock, hgood⟩
    · exact (congrArg (fun l : List Int => l.getD n 0) (PerInput.get_of _ i)).trans (addWave_getD i _ hn hw)
  case boundary =>
    subst hn
    exact ⟨fun c cs hl hc h => FrontEnd.cycleEnd_crossing x hl hc h,
      fun hl hc h => FrontEnd.cycleEnd_noCrossing x hl hc h, FrontEnd.cycleEnd_nominal x⟩
  case crosses =>
    subst hat
    rw [exec_zeroCrossing, if_pos ((s.fe.crosses_iff _).mpr ⟨hr, href, hlast⟩), FrontEnd.cross_eq]
  case ignored =>
    subst hat
    rw [exec_zeroCrossing, if_neg]
    rw [FrontEnd.crosses_iff]
    rintro ⟨hr, href, hlast⟩
    rcases h with h | h | ⟨p, hp, hle⟩
    · exact hr h
    · rw [h] at href
      cases href
    · exact Nat.not_le.mpr (hlast p hp) hle

end Sys2Proof.Machine

/-! # Detectors settle, and the open event closes (R62, R65, R70, R73) -/

namespace Sys2Proof.Machine

theorem PerInput.get_set {α : Type} (t : PerInput α) (i j : Input) (x : α) :
    (t.set i x).get j = if j = i then x else t.get j := by
  cases i <;> cases j <;> rfl

/-! ## The close of an event (R73) -/

section

variable {s : State} {k : Fin 8} {x : Site} {e : OpenEvent} (hx : s.site k = some x) (he : s.sag.openEvent = some e)
  (cause : EndCause) (fin : Stamp) (n : Nat) (o : CaptureOutcome)
include hx he

theorem State.closeEvent_at : s.closeEvent k cause fin n o =
    (State.setSlot { s with sag := { s.sag with openEvent := none } } k
      (some (x.closeEvent (e.toRecord x.label cause fin n o) fin.time))).raise .event := by
  unfold State.closeEvent
  rw [he, hx]
  exact congrArg (fun t : State => t.raise .event)
    (State.modSite_at (s := { s with sag := { s.sag with openEvent := none } }) _ hx)

theorem State.closeEvent_site : (s.closeEvent k cause fin n o).site k =
    some (x.closeEvent (e.toRecord x.label cause fin n o) fin.time) := by
  rw [State.closeEvent_at hx he]
  exact State.site_setSlot_same _ k _

theorem State.closeEvent_otherSite {j : Fin 8} (hj : j ≠ k) : (s.closeEvent k cause fin n o).site j = s.site j := by
  rw [State.closeEvent_at hx he]
  exact (State.site_setSlot _ k j _).trans (if_neg (Ne.symm hj))

theorem State.closeEvent_sag : (s.closeEvent k cause fin n o).sag = { s.sag with openEvent := none } := by
  rw [State.closeEvent_at hx he]
  rfl

theorem State.closeEvent_attends : (s.closeEvent k cause fin n o).attends .event = true := by
  rw [State.closeEvent_at hx he]
  exact State.raise_attends _ _

/-- The close leaves the blocks alone that it does not name (R73). -/
theorem State.closeEvent_rest : (s.closeEvent k cause fin n o).fe = s.fe
    ∧ (s.closeEvent k cause fin n o).watch = s.watch ∧ (s.closeEvent k cause fin n o).check = s.check
    ∧ (s.closeEvent k cause fin n o).interval = s.interval ∧ (s.closeEvent k cause fin n o).device = s.device
    ∧ (s.closeEvent k cause fin n o).store = s.store ∧ (s.closeEvent k cause fin n o).print = s.print := by
  rw [State.closeEvent_at hx he]
  exact ⟨rfl, rfl, rfl, rfl, rfl, rfl, rfl⟩

end

/-! ## SETTLE_DONE and EVENT_LONG -/

theorem exec_settleDone_settles {s : State} {i : Input} {n : Nat}
    (h : s.sag.detectors.get i = some (.settling n true)) : exec (.settleDone i) s =
      .next (State.amendReport { s with sag := { s.sag with
        detectors := s.sag.detectors.set i (some .normal) } } fun j => j == i) := by
  change execSettleDone i s = _
  unfold execSettleDone
  rw [h]

theorem exec_settleDone_waits {s : State} {i : Input} (h : ∀ n, s.sag.detectors.get i ≠ some (.settling n true)) :
    exec (.settleDone i) s = .next s := by
  change execSettleDone i s = _
  unfold execSettleDone
  split
  next n hn => exact absurd hn (h n)
  next => rfl

/-- The report of a half-cycle with the state that one detector has entered (R65). -/
theorem DetectorReport.amend_set (r : DetectorReport) (ds : PerInput (Option Detector)) (i : Input)
    (d : Option Detector) : r.amend (fun j => j == i) (ds.set i d) =
      { r with detectors := PerInput.of fun j => if j = i then d else r.detectors.get j } := by
  refine congrArg (fun t => { r with detectors := t }) (PerInput.ext_get fun j => ?_)
  rw [PerInput.get_of, PerInput.get_of, PerInput.get_set]
  by_cases hj : j = i
  · rw [if_pos hj, if_pos hj, if_pos (beq_iff_eq.mpr hj)]
  · rw [if_neg hj, if_neg hj, if_neg (mt beq_iff_eq.mp hj)]

theorem OpenEvent.hasMember_iff (e : OpenEvent) (i : Input) : e.hasMember i = true ↔ i ∈ e.members.map Member.input := by
  unfold OpenEvent.hasMember
  simp [List.any_eq_true]

theorem isLow_iff (d : Option Detector) : isLow d = true ↔ d = some .low := beq_iff_eq

theorem holdMembers_get (e : OpenEvent) (ds : PerInput (Option Detector)) (i : Input) : (holdMembers e ds).get i =
    if i ∈ e.members.map Member.input ∧ ds.get i = some .low then some .longHold else ds.get i := by
  unfold holdMembers
  rw [PerInput.get_of]
  simp only [OpenEvent.hasMember_iff, isLow_iff]

theorem State.longReached_iff (s : State) (e : OpenEvent) :
    s.longReached e = true ↔ e.start.up + e.limits.longLimit * 1000 ≤ s.fe.lastHalfEnd.up := decide_eq_true_iff

section

variable {s : State}

theorem exec_eventLong {k : Fin 8} {e : OpenEvent} (hl : s.liveSlot = some k) (he : s.sag.openEvent = some e) :
    exec .eventLong s = if s.longReached e then
      .next ((State.closeEvent { s with sag := { s.sag with detectors := holdMembers e s.sag.detectors } } k .long
        s.fe.lastHalfEnd e.halves .notTaken).amendReport fun i => e.hasMember i && isLow (s.sag.detectors.get i))
    else .next s := by
  change execEventLong s = _
  unfold execEventLong
  rw [he, hl]

theorem exec_eventLong_noEvent (he : s.sag.openEvent = none) : exec .eventLong s = .next s := by
  change execEventLong s = _
  unfold execEventLong
  rw [he]

end

/-- Settles O59: a settled detector, the Long close, and what a close changes. -/
theorem eventsSettleLastAndClose : Obligations.EventsSettleLastAndClose := by
  unfold Obligations.EventsSettleLastAndClose
  refine ⟨fun s i n h => ⟨_, exec_settleDone_settles h, rfl, rfl, fun hn => ?noInterval, fun iv hiv => ?report⟩,
    fun s i h => exec_settleDone_waits h, fun s k x e hlive he => ⟨fun hlong => ?long, fun hshort => ?short⟩,
    fun s he => exec_eventLong_noEvent he,
    fun s k x e cause fin n o hx he => ⟨_, rfl, State.closeEvent_sag hx he cause fin n o,
      State.closeEvent_attends hx he cause fin n o, State.closeEvent_site hx he cause fin n o,
      fun j hj => State.closeEvent_otherSite hx he cause fin n o hj, (State.closeEvent_quiet s k cause fin n o).steady.time,
      (State.closeEvent_quiet s k cause fin n o).steady.link, ?rest⟩⟩
  case noInterval => exact congrArg (Option.map _) hn
  case report =>
    refine (congrArg (Option.map _) hiv).trans (congrArg some ?_)
    refine congrArg (fun l => { iv with reports := l }) (List.map_congr_left fun r _ => ?_)
    rw [DetectorReport.amend_set]
  case long =>
    let u : State := { s with sag := { s.sag with detectors := holdMembers e s.sag.detectors } }
    refine ⟨u, _, (exec_eventLong hlive.1 he).trans (if_pos ((s.longReached_iff e).mpr hlong)),
      fun i => holdMembers_get e _ i, rfl, ?_, ?_⟩
    · obtain ⟨-, -, -, hinterval, -⟩ := State.closeEvent_rest (s := u) hlive.2 he .long s.fe.lastHalfEnd e.halves .notTaken
      exact congrArg (fun iv => { u.closeEvent k .long s.fe.lastHalfEnd e.halves .notTaken with interval := iv })
        hinterval.symm
    · exact congrArg SagMonitor.openEvent (State.closeEvent_sag (s := u) hlive.2 he .long s.fe.lastHalfEnd e.halves .notTaken)
  case short =>
    rw [exec_eventLong hlive.1 he, if_neg (mt (s.longReached_iff e).mp (Nat.not_le.mpr hshort))]
  case rest =>
    obtain ⟨hfe, hwatch, hcheck, hinterval, hdevice, hstore, hprint⟩ := State.closeEvent_rest hx he cause fin n o
    exact ⟨hfe, hwatch, hcheck, hinterval, hdevice, hstore, hprint, rfl, rfl, rfl⟩

end Sys2Proof.Machine

/-! # Blocks, intervals and their records (R87 to R90, R92 to R98) -/

namespace Sys2Proof.Machine

/-! ## A block that is judged (R89, R92 to R94) -/

section

variable (iv : Interval) (m : ChannelMap) (b : BlockResult)

/-- Judging a block changes the counts, the frequency, the reports and the channels alone. -/
theorem Interval.judge_frame : { iv.judge m b with
    total := iv.total, marked := iv.marked, unlocked := iv.unlocked, unsetSeen := iv.unsetSeen
    freqCount := iv.freqCount, freqSum := iv.freqSum, freqLow := iv.freqLow, freqHigh := iv.freqHigh
    reports := iv.reports, channels := iv.channels } = iv := by
  unfold Interval.judge
  cases b.frequency <;> rfl

theorem Interval.judge_counts : (iv.judge m b).total = iv.total + 1
    ∧ (iv.judge m b).marked = iv.marked + (blockMarked iv.reports b).toNat
    ∧ (iv.judge m b).unlocked = iv.unlocked + (!b.fullyLocked).toNat
    ∧ (iv.judge m b).unsetSeen = (iv.unsetSeen || b.endTime.unset) := ⟨rfl, rfl, rfl, rfl⟩

theorem Interval.judge_noFrequency (h : b.frequency = none) : (iv.judge m b).freqCount = iv.freqCount
    ∧ (iv.judge m b).freqSum = iv.freqSum ∧ (iv.judge m b).freqLow = iv.freqLow
    ∧ (iv.judge m b).freqHigh = iv.freqHigh := by
  unfold Interval.judge
  rw [h]
  exact ⟨rfl, rfl, rfl, rfl⟩

theorem Interval.judge_frequency {q : Nat} (h : b.frequency = some q) :
    (iv.judge m b).freqCount = iv.freqCount + 1 ∧ (iv.judge m b).freqSum = iv.freqSum + q
    ∧ (iv.judge m b).freqLow = (if iv.freqCount = 0 then q else min iv.freqLow q)
    ∧ (iv.judge m b).freqHigh = max iv.freqHigh q := by
  unfold Interval.judge
  rw [h]
  exact ⟨rfl, rfl, rfl, rfl⟩

theorem Interval.judge_rest : (iv.judge m b).slot = iv.slot ∧ (iv.judge m b).label = iv.label
    ∧ (iv.judge m b).start = iv.start ∧ (iv.judge m b).version = iv.version ∧ (iv.judge m b).length = iv.length
    ∧ (iv.judge m b).depth = iv.depth ∧ (iv.judge m b).endMs = iv.endMs ∧ (iv.judge m b).held = iv.held
    ∧ (iv.judge m b).lastBlock = iv.lastBlock := by
  unfold Interval.judge
  cases b.frequency <;> exact ⟨rfl, rfl, rfl, rfl, rfl, rfl, rfl, rfl, rfl⟩

theorem Interval.judgeHeld_slot : (iv.judgeHeld m).slot = iv.slot := by
  unfold Interval.judgeHeld
  have hfold (l : List BlockResult) (v : Interval) : (l.foldl (fun v b => v.judge m b) v).slot = v.slot := by
    induction l generalizing v with
    | nil => rfl
    | cons c l ih => exact (ih _).trans (v.judge_rest m c).1
  exact hfold _ _

theorem Interval.take_judged (h : ∃ r, r ∈ iv.reports ∧ r.half = 2 * b.cycles * b.number) :
    iv.take m b = ({ iv with lastBlock := some b.endTime } : Interval).judge m b := by
  refine if_pos (List.any_eq_true.mpr ?_)
  obtain ⟨r, hr, hhalf⟩ := h
  exact ⟨r, hr, beq_iff_eq.mpr hhalf⟩

theorem Interval.take_held (h : ∀ r, r ∈ iv.reports → r.half ≠ 2 * b.cycles * b.number) :
    iv.take m b = { iv with lastBlock := some b.endTime, held := iv.held ++ [b] } := by
  refine if_neg fun hany => ?_
  obtain ⟨r, hr, hhalf⟩ := List.any_eq_true.mp hany
  exact h r hr (beq_iff_eq.mp hhalf)

theorem Interval.take_cases : (iv.take m b = ({ iv with lastBlock := some b.endTime } : Interval).judge m b)
    ∨ iv.take m b = { iv with lastBlock := some b.endTime, held := iv.held ++ [b] } := by
  unfold Interval.take
  exact ite_eq_or_eq _ _ _

/-- What a block that joins an interval leaves of it. -/
theorem Interval.take_frame : (iv.take m b).slot = iv.slot ∧ (iv.take m b).label = iv.label
    ∧ (iv.take m b).start = iv.start ∧ (iv.take m b).version = iv.version ∧ (iv.take m b).length = iv.length
    ∧ (iv.take m b).depth = iv.depth ∧ (iv.take m b).endMs = iv.endMs := by
  rcases iv.take_cases m b with h | h
  · rw [h]
    obtain ⟨hslot, hlabel, hstart, hversion, hlength, hdepth, hend, -, -⟩ :=
      ({ iv with lastBlock := some b.endTime } : Interval).judge_rest m b
    exact ⟨hslot, hlabel, hstart, hversion, hlength, hdepth, hend⟩
  · rw [h]
    exact ⟨rfl, rfl, rfl, rfl, rfl, rfl, rfl⟩

/-- The block is judged or held, and it is the last one. -/
theorem Interval.take_counts : (iv.take m b).total + (iv.take m b).held.length = iv.total + iv.held.length + 1
    ∧ (iv.take m b).lastBlock = some b.endTime := by
  rcases iv.take_cases m b with h | h
  · rw [h]
    obtain ⟨-, -, -, -, -, -, -, hheld, hlast⟩ := ({ iv with lastBlock := some b.endTime } : Interval).judge_rest m b
    refine ⟨?_, hlast⟩
    rw [(Interval.judge_counts _ m b).1, hheld]
    exact Nat.add_right_comm _ _ _
  · rw [h]
    refine ⟨?_, rfl⟩
    rw [List.length_append]
    exact (Nat.add_assoc _ _ _).symm

theorem Interval.report_unmatched {p : DetectorReport} (h : ∀ c, c ∈ iv.held → 2 * c.cycles * c.number ≠ p.half) :
    iv.report m p = { iv with reports := iv.reports ++ [p] } := by
  have hkeep : (iv.held.filter fun c => decide (lastHalf c ≠ p.half)) = iv.held :=
    List.filter_eq_self.mpr fun c hc => decide_eq_true (h c hc)
  have hjudge : (iv.held.filter fun c => decide (lastHalf c = p.half)) = [] :=
    List.filter_eq_nil_iff.mpr fun c hc hd => h c hc (of_decide_eq_true hd)
  unfold Interval.report
  dsimp only
  rw [hkeep, hjudge]
  rfl

theorem Interval.report_matched {p : DetectorReport} (hheld : iv.held = [b]) (h : p.half = 2 * b.cycles * b.number) :
    iv.report m p = ({ iv with reports := iv.reports ++ [p], held := [] } : Interval).judge m b := by
  have hkeep : ([b].filter fun c => decide (lastHalf c ≠ p.half)) = [] :=
    List.filter_eq_nil_iff.mpr fun c hc => by
      rw [List.mem_singleton.mp hc, decide_eq_true_iff]
      exact not_not.mpr h.symm
  have hjudge : ([b].filter fun c => decide (lastHalf c = p.half)) = [b] :=
    List.filter_eq_self.mpr fun c hc => by
      rw [List.mem_singleton.mp hc]
      exact decide_eq_true h.symm
  unfold Interval.report
  dsimp only
  rw [hheld, hkeep, hjudge]
  rfl

end

/-! ## A channel (R92 to R94) -/

section

variable (c : Channel) (reports : List DetectorReport) (marked : Bool) (depth : Nat) (m : ChannelMap) {b : BlockResult}
  {i : Input}

theorem Channel.judge_absent (h : b.results.get i = none) : c.judge reports marked depth m b i =
    { c with lost := c.lost || decide (b.roles.get i ≠ .unused) } := by
  unfold Channel.judge
  rw [h]
  rfl

variable {r : InputResult} (hr : b.results.get i = some r)
include hr

theorem Channel.judge_partly (ht : r.throughout = false) : c.judge reports marked depth m b i =
    { c with lost := c.lost || decide (b.roles.get i ≠ .unused) } := by
  unfold Channel.judge
  rw [hr]
  dsimp only
  rw [if_neg]
  · unfold Channel.note
    dsimp only
    rw [if_neg (by rw [ht]; exact Bool.false_ne_true)]
  · unfold countsBlock
    rw [ht]
    exact Bool.false_ne_true

/-- A channel on a block that its input has been in throughout. -/
theorem Channel.judge_throughout (ht : r.throughout = true) : c.judge reports marked depth m b i =
    let c1 : Channel := { c with role := r.role, appeared := true, unverified := c.unverified || !(m.get i).verified }
    if countsBlock reports b i r then
      r.harmonics.elim (c1.addRms marked r.rms) fun mags =>
        if marked then c1.addRms marked r.rms else (c1.addRms marked r.rms).addHarmonics depth mags
    else c1 := by
  unfold Channel.judge
  rw [hr]
  dsimp only
  unfold Channel.note
  dsimp only
  rw [if_pos ht]
  cases r.harmonics <;> rfl

end

theorem countsBlock_iff (reports : List DetectorReport) (b : BlockResult) (i : Input) (r : InputResult) :
    countsBlock reports b i r = true ↔ r.throughout = true ∧ b.mapChanged = false
      ∧ (i.isVoltage = true → r.role.isL = true → judgedThroughout reports b i = true) := by
  unfold countsBlock
  cases i.isVoltage <;> cases r.role.isL <;> simp [and_assoc]

section

variable {c : Channel} {reports : List DetectorReport} {marked : Bool} {depth : Nat} {m : ChannelMap} {b : BlockResult}
  {i : Input} {r : InputResult} (hr : b.results.get i = some r) (ht : r.throughout = true)
include hr ht

/-- The presence marks of a channel that its input has been in throughout (R94). -/
theorem Channel.judge_marks : (c.judge reports marked depth m b i).appeared = true
    ∧ (c.judge reports marked depth m b i).role = r.role ∧ (c.judge reports marked depth m b i).lost = c.lost
    ∧ (c.judge reports marked depth m b i).unverified = (c.unverified || !(m.get i).verified) := by
  rw [Channel.judge_throughout c reports marked depth m hr ht]
  dsimp only
  split
  · cases r.harmonics with
    | none => exact ⟨rfl, rfl, rfl, rfl⟩
    | some mags =>
      cases marked
      · exact ⟨rfl, rfl, rfl, rfl⟩
      · exact ⟨rfl, rfl, rfl, rfl⟩
  · exact ⟨rfl, rfl, rfl, rfl⟩

theorem Channel.judge_notCounted (h : countsBlock reports b i r = false) : { c.judge reports marked depth m b i with
    appeared := c.appeared, role := c.role, unverified := c.unverified } = c := by
  rw [Channel.judge_throughout c reports marked depth m hr ht]
  dsimp only
  rw [if_neg (by rw [h]; exact Bool.false_ne_true)]

variable (hc : countsBlock reports b i r = true)
include hc

theorem Channel.judge_rms : (c.judge reports marked depth m b i).counted = c.counted + 1
    ∧ (c.judge reports marked depth m b i).unmarked = c.unmarked + (if marked then 0 else 1)
    ∧ (c.judge reports marked depth m b i).rmsLow = (if c.counted = 0 then r.rms else min c.rmsLow r.rms)
    ∧ (c.judge reports marked depth m b i).rmsHigh = max c.rmsHigh r.rms
    ∧ (c.judge reports marked depth m b i).rmsSquares = c.rmsSquares + r.rms * r.rms := by
  rw [Channel.judge_throughout c reports marked depth m hr ht]
  dsimp only
  rw [if_pos hc]
  cases r.harmonics with
  | none => cases marked <;> exact ⟨rfl, rfl, rfl, rfl, rfl⟩
  | some mags => cases marked <;> exact ⟨rfl, rfl, rfl, rfl, rfl⟩

theorem Channel.judge_noHarmonics (h : marked = true ∨ r.harmonics = none) :
    (c.judge reports marked depth m b i).harmonic = c.harmonic
    ∧ (c.judge reports marked depth m b i).thdSum = c.thdSum ∧ (c.judge reports marked depth m b i).thdHigh = c.thdHigh
    ∧ (c.judge reports marked depth m b i).orders = c.orders := by
  rw [Channel.judge_throughout c reports marked depth m hr ht]
  dsimp only
  rw [if_pos hc]
  rcases h with h | h
  · subst h
    cases r.harmonics <;> exact ⟨rfl, rfl, rfl, rfl⟩
  · rw [h]
    exact ⟨rfl, rfl, rfl, rfl⟩

theorem Channel.judge_harmonics {mags : List Nat} (hm : marked = false) (h : r.harmonics = some mags) :
    (c.judge reports marked depth m b i).harmonic = c.harmonic + 1
    ∧ (c.judge reports marked depth m b i).thdSum = c.thdSum + thdOf depth mags
    ∧ (c.judge reports marked depth m b i).thdHigh = max c.thdHigh (thdOf depth mags)
    ∧ (c.judge reports marked depth m b i).orders
      = List.zipWith (fun o n => (o.1 + n, max o.2 n)) c.orders mags := by
  subst hm
  rw [Channel.judge_throughout c reports false depth m hr ht]
  dsimp only
  rw [if_pos hc, h]
  exact ⟨rfl, rfl, rfl, rfl⟩

end

/-! ## The record of an interval (R97, R98) -/

theorem channelOrder_eq (channels : PerInput Channel) : channelOrder channels =
    [[Input.v1, .v2, .v3, .v4], [.i1, .i2, .i3, .i4]].flatMap fun is =>
      [Role.l1, .l2, .l3, .ne, .n, .unused].flatMap fun role => is.filter fun i =>
        (channels.get i).appeared && decide ((channels.get i).role = role) := by
  rw [List.flatMap_cons (xs := [[Input.i1, .i2, .i3, .i4]]), List.flatMap_singleton]
  rfl

theorem msBetween_of_le {a b : Nat} (h : a ≤ b) (hb : b - a < 4294967296000) : msBetween a b = b - a := by
  unfold msBetween
  omega

theorem Channel.subRecord_eq (c : Channel) (i : Input) : c.subRecord i = {
    input := i, role := c.role, lost := c.lost, unverified := c.unverified, counted := c.counted
    harmonic := c.harmonic
    rms := if c.counted = 0 then none else some (c.rmsLow, roundSqrt c.rmsSquares c.counted, c.rmsHigh)
    thd := if c.harmonic = 0 then (0, 0) else (roundDiv c.thdSum c.harmonic, c.thdHigh)
    orders := c.orders.map fun o => if c.harmonic = 0 then (0, 0) else (roundDiv o.1 c.harmonic, o.2)
    noHarmonics := if c.harmonic ≠ 0 then none else if c.counted = 0 then some .noneCounted
      else if c.unmarked = 0 then some .allMarked else some .noFundamental } := by
  unfold Channel.subRecord Channel.noHarmonics
  by_cases h : c.harmonic = 0
  · simp only [h, if_true]
  · simp only [h, if_false]

/-! ## The close of an interval, and a boundary (R90, R96) -/

section

variable {s : State} {iv : Interval} {x : Site} (hiv : s.interval = some iv) (hx : s.site iv.slot = some x)
include hiv hx

theorem State.intervalTakes_at (b : BlockResult) :
    s.intervalTakes b = { s with interval := some (iv.take x.map b) } := by
  unfold State.intervalTakes
  rw [hiv, Option.bind_some, hx]
  rfl

variable (cause : IntervalEnd) (fin : Nat) (early : Bool)

theorem State.closeInterval_empty (h : (iv.judgeHeld x.map).total = 0) :
    s.closeInterval cause fin early = { s with interval := none } := by
  unfold State.closeInterval
  rw [hiv, Option.bind_some, hx]
  exact if_pos h

theorem State.closeInterval_full (h : (iv.judgeHeld x.map).total ≠ 0) : s.closeInterval cause fin early =
    State.admitInterval { s with interval := none } (iv.judgeHeld x.map) x cause fin early := by
  unfold State.closeInterval
  rw [hiv, Option.bind_some, hx]
  exact if_neg h

end

theorem State.modSite_store (s : State) (k : Fin 8) (f : Site → Site) : (s.modSite k f).store = s.store := by
  unfold State.modSite
  split <;> rfl

/-- The state in which the number of an interval is taken (step 4 of R96). -/
def State.intervalNumbered (s : State) (k : Fin 8) (x : Site) : State :=
  s.setSlot k (some { x with nextInterval := x.nextInterval + 1 })

section

variable {s : State} {iv : Interval} {x : Site} (hx : s.site iv.slot = some x)
  (cause : IntervalEnd) (fin : Nat) (early : Bool)

theorem State.admitInterval_aside (s : State) (iv : Interval) (x : Site) (cause : IntervalEnd) (fin : Nat)
    (early : Bool) : Aside s (s.admitInterval iv x cause fin early) := by
  unfold State.admitInterval
  dsimp only
  have hadmit := (State.modSite_aside s iv.slot fun y => { y with nextInterval := x.nextInterval + 1 }).trans
    (State.admitRecord_aside _ .intervals (.interval (iv.toRecord x.nextInterval cause fin early)))
  exact Aside.ite (hadmit.trans (State.modSite_aside _ _ _)) hadmit

include hx

theorem State.admitInterval_records :
    SameRecords (s.intervalNumbered iv.slot x) (s.admitInterval iv x cause fin early) := by
  unfold State.admitInterval
  dsimp only
  rw [State.modSite_at _ hx]
  have hadmit := State.admitRecord_records (s.intervalNumbered iv.slot x) .intervals
    (.interval (iv.toRecord x.nextInterval cause fin early))
  exact SameRecords.ite (hadmit.trans (State.modSite_records _ _ fun _ => rfl)) hadmit

/-- A record that fits goes to the end of its queue (R98, R119). -/
theorem State.admitInterval_fits {r : IntervalRecord} (hr : iv.toRecord x.nextInterval cause fin early = r)
    (hf : s.store.fits (Record.interval r).length = true) :
    (s.admitInterval iv x cause fin early).store.queues.intervals.map Queued.record =
      s.store.queues.intervals.map Queued.record ++ [.interval r] := by
  have hadmit := State.admitRecord_fits (s := s.intervalNumbered iv.slot x) (st := .intervals)
    (r := .interval r) hf
  have hnum : s.modSite iv.slot (fun y => { y with nextInterval := x.nextInterval + 1 }) =
      s.intervalNumbered iv.slot x := State.modSite_at _ hx
  unfold State.admitInterval
  dsimp only
  rw [hnum, hr, hadmit]
  dsimp only
  rw [if_pos rfl, State.modSite_store, State.addRecords_store]
  exact List.map_append

end

/-- The live parts that a close leaves alone; it ends the interval. -/
theorem State.closeInterval_aside (s : State) (cause : IntervalEnd) (fin : Nat) (early : Bool) :
    Aside { s with interval := none } (s.closeInterval cause fin early) := by
  unfold State.closeInterval
  split
  · exact Aside.refl _
  · exact Aside.ite (Aside.refl _) (State.admitInterval_aside _ _ _ _ _ _)

section

variable {s : State} {iv : Interval} {x : Site} (hiv : s.interval = some iv) (hx : s.site iv.slot = some x)
include hiv hx

/-- The record of the site at the close: the number of the interval is taken when it holds a block (R96). -/
theorem State.closeInterval_site (cause : IntervalEnd) (fin : Nat) (early : Bool) :
    ((s.closeInterval cause fin early).site iv.slot).map Site.bare = some { x with
      nextInterval := if (iv.judgeHeld x.map).total = 0 then x.nextInterval else x.nextInterval + 1 }.bare := by
  by_cases h : (iv.judgeHeld x.map).total = 0
  · rw [State.closeInterval_empty hiv hx cause fin early h, if_pos h]
    exact congrArg (Option.map Site.bare) hx
  · rw [State.closeInterval_full hiv hx cause fin early h, if_neg h]
    have hslot := Interval.judgeHeld_slot iv x.map
    have hrec := State.admitInterval_records (s := { s with interval := none }) (iv := iv.judgeHeld x.map)
      (by rw [hslot]; exact hx) cause fin early iv.slot
    rw [hrec, hslot]
    exact congrArg (Option.map Site.bare) (State.site_setSlot_same _ _ _)

end

/-- A pending set that is applied between two intervals (R90). -/
def Site.withPending (x : Site) : Site :=
  { x with
    active := x.pendingSet.getD x.active, pendingSet := none
    version := if x.pendingSet.isSome then nextFrom1 x.version else x.version }

theorem State.applyPending_site {s : State} {k : Fin 8} {x : Site} (hx : s.site k = some x) :
    ((s.applyPending k).site k).map Site.bare = some x.withPending.bare := by
  unfold State.applyPending
  rw [hx, Option.bind_some]
  cases hp : x.pendingSet with
  | none =>
    dsimp only
    rw [hx, Option.map_some]
    refine congrArg some (congrArg Site.bare ?_)
    unfold Site.withPending
    rw [hp]
    exact (congrArg (fun p => { x with pendingSet := p }) hp).trans rfl
  | some l =>
    dsimp only
    rw [State.applyLimits_at hx]
    refine ((State.put_records _ _ _) k).trans ?_
    rw [State.site_setSlot_same, Option.map_some]
    unfold Site.withPending
    rw [hp]
    rfl

/-- The site record at a boundary has the parts of the one before it, its pending set applied. -/
theorem Site.withPending_of_bare {x y z : Site} (hy : y.bare = x.bare) (hz : z.bare = y.withPending.bare) :
    z.bare = x.withPending.bare := by
  rw [hz]
  have hp := (congrArg Site.pendingSet hy :)
  have ha := (congrArg Site.active hy :)
  have hv := (congrArg Site.version hy :)
  change y.pendingSet = x.pendingSet at hp
  change y.active = x.active at ha
  change y.version = x.version at hv
  unfold Site.withPending
  rw [hp, ha, hv]
  exact congrArg (fun w : Site => { w with
    active := x.pendingSet.getD x.active, pendingSet := none
    version := if x.pendingSet.isSome then nextFrom1 x.version else x.version }) hy

section

variable {s : State} {iv : Interval} {x : Site} (hiv : s.interval = some iv) (hx : s.site iv.slot = some x)
  (b : BlockResult) (cause : IntervalEnd) (fin : Nat) (early : Bool) (start : Time)

/-- The site and the interval after a boundary (R90). -/
theorem State.boundary_opens (hiv : s.interval = some iv) (hx : s.site iv.slot = some x) :
    ∃ y, y.bare = { x with nextInterval :=
        if (iv.judgeHeld x.map).total = 0 then x.nextInterval else x.nextInterval + 1 }.withPending.bare
      ∧ (s.boundary iv b cause fin early start).site iv.slot = some y
      ∧ s.boundary iv b cause fin early start = { (s.closeInterval cause fin early).applyPending iv.slot with
        interval := some (({ Interval.opened iv.slot y start with reports := reportsOf iv b } : Interval).take y.map b) } := by
  obtain ⟨w, hw, hwb⟩ := Option.map_eq_some_iff.mp (State.closeInterval_site hiv hx cause fin early)
  obtain ⟨y, hy, hyb⟩ := Option.map_eq_some_iff.mp (State.applyPending_site hw)
  let t : State := (s.closeInterval cause fin early).applyPending iv.slot
  have heq : s.boundary iv b cause fin early start = { t with
      interval := some (({ Interval.opened iv.slot y start with reports := reportsOf iv b } : Interval).take y.map b) } := by
    unfold State.boundary
    dsimp only
    rw [State.openInterval_at (s := t) hy]
    exact State.intervalTakes_at (s := { t with
      interval := some { Interval.opened iv.slot y start with reports := reportsOf iv b } }) rfl hy b
  refine ⟨y, Site.withPending_of_bare hwb hyb, ?_, heq⟩
  rw [heq]
  exact hy

theorem State.boundary_keeps (hiv : s.interval = some iv) (hx : s.site iv.slot = some x) :
    (s.boundary iv b cause fin early start).fe = s.fe ∧ (s.boundary iv b cause fin early start).sag = s.sag
    ∧ (s.boundary iv b cause fin early start).watch = s.watch
    ∧ (s.boundary iv b cause fin early start).check = s.check
    ∧ (s.boundary iv b cause fin early start).print = s.print := by
  obtain ⟨y, -, -, heq⟩ := State.boundary_opens b cause fin early start hiv hx
  rw [heq]
  have h := (State.closeInterval_aside s cause fin early).trans (State.applyPending_aside _ iv.slot)
  exact ⟨h.fe, h.sag, h.watch, h.check, h.print⟩

end

section

variable {s : State} {iv : Interval} {x : Site} (hiv : s.interval = some iv) {b : BlockResult}
include hiv

theorem State.takeBlock_joins (hx : s.site iv.slot = some x) (h1 : iv.start.total ≤ b.endTime.total)
    (h2 : b.endTime.total < iv.endMs) : s.takeBlock b = { s with interval := some (iv.take x.map b) } := by
  unfold State.takeBlock
  rw [hiv]
  dsimp only
  rw [if_neg (Nat.not_lt.mpr h1), if_pos h2]
  exact State.intervalTakes_at hiv hx b

theorem State.takeBlock_boundary (h1 : iv.start.total ≤ b.endTime.total) (h2 : iv.endMs ≤ b.endTime.total) :
    s.takeBlock b = s.boundary iv b .boundary iv.endMs false (timeOfMs iv.endMs b.endTime.unset) := by
  unfold State.takeBlock
  rw [hiv]
  exact (if_neg (Nat.not_lt.mpr h1)).trans (if_neg (Nat.not_lt.mpr h2))

theorem State.takeBlock_wrapped (h : b.endTime.total < iv.start.total) : s.takeBlock b =
    s.boundary iv b .clockWrap ((iv.lastBlock.getD iv.start).total) true ⟨0, 0, b.endTime.unset⟩ := by
  unfold State.takeBlock
  rw [hiv]
  exact if_pos h

theorem State.takeBlock_crosses {start : Time}
    (h : (iv.start.total ≤ b.endTime.total ∧ iv.endMs ≤ b.endTime.total ∧ start = timeOfMs iv.endMs b.endTime.unset)
      ∨ (b.endTime.total < iv.start.total ∧ start = ⟨0, 0, b.endTime.unset⟩)) :
    ∃ cause fin early, s.takeBlock b = s.boundary iv b cause fin early start := by
  rcases h with ⟨h1, h2, rfl⟩ | ⟨h1, rfl⟩
  · exact ⟨_, _, _, State.takeBlock_boundary hiv h1 h2⟩
  · exact ⟨_, _, _, State.takeBlock_wrapped hiv h1⟩

end

/-- Settles O57: the block at the interval that is open, the close and the record. -/
theorem blocksJoinAndCloseIntervals : Obligations.BlocksJoinAndCloseIntervals := by
  unfold Obligations.BlocksJoinAndCloseIntervals
  refine ⟨fun s b => ⟨fun hn => ?noInterval, fun iv x hiv hx => ⟨fun h1 h2 => State.takeBlock_joins hiv hx h1 h2,
      fun start hstart => ?crosses, fun ho ht hfull hp h1 h2 => ?recorded⟩⟩,
    fun iv m b p last hlast => ?takes, fun iv v m b marked hv hmarked => ?judged,
    fun c d reports marked depth m b i judging hd hjudging => ?channel,
    fun iv n fin cause early r hr => ?record⟩
  case noInterval =>
    unfold State.takeBlock
    rw [hn]
  case crosses =>
    obtain ⟨cause, fin, early, htake⟩ := State.takeBlock_crosses hiv hstart
    obtain ⟨y, hyb, hysite, heq⟩ := State.boundary_opens b cause fin early start hiv hx
    obtain ⟨hfe, hsag, hwatch, hcheck, hprint⟩ := State.boundary_keeps b cause fin early start hiv hx
    let n0 : Interval := { Interval.opened iv.slot y start with reports := reportsOf iv b }
    obtain ⟨hslot, hlabel, hst, hversion, hlength, hdepth, hend⟩ := n0.take_frame y.map b
    obtain ⟨hcount, hlast⟩ := n0.take_counts y.map b
    have hquiet := State.takeBlock_quiet s b
    rw [htake] at hquiet
    exact ⟨_, n0.take y.map b, y, htake, congrArg State.interval heq, hysite, (congrArg Site.active hyb :),
      (congrArg Site.pendingSet hyb :), (congrArg Site.version hyb :), (congrArg Site.nextInterval hyb :), hslot,
      hlabel.trans (congrArg Site.label hyb :), hst, hversion, hlength, hdepth, hend, hcount, hlast, hquiet.sites,
      hquiet.steady.link, hquiet.steady.time, hfe, hsag, hwatch, hcheck, hprint⟩
  case recorded =>
    obtain ⟨y, -, -, heq⟩ := State.boundary_opens b .boundary iv.endMs false (timeOfMs iv.endMs b.endTime.unset) hiv hx
    rw [State.takeBlock_boundary hiv h1 h2, heq]
    change ((s.closeInterval .boundary iv.endMs false).applyPending iv.slot).store.queues.intervals.map _ = _
    have hnone : ((s.closeInterval .boundary iv.endMs false).site iv.slot).bind (·.pendingSet) = none := by
      obtain ⟨w, hw, hwb⟩ := Option.map_eq_some_iff.mp (State.closeInterval_site hiv hx .boundary iv.endMs false)
      rw [hw]
      exact (congrArg Site.pendingSet hwb :).trans hp
    have hkeep : (s.closeInterval .boundary iv.endMs false).applyPending iv.slot =
        s.closeInterval .boundary iv.endMs false := by
      unfold State.applyPending
      rw [hnone]
    rw [hkeep, State.closeInterval_full hiv hx .boundary iv.endMs false hfull]
    exact State.admitInterval_fits (s := { s with interval := none }) (by rw [Interval.judgeHeld_slot]; exact hx)
      .boundary iv.endMs false rfl (decide_eq_true ⟨ho, ht⟩)
  case takes =>
    subst hlast
    exact ⟨iv.take_judged m b, iv.take_held m b, rfl, fun h => iv.report_unmatched m h,
      fun hheld h => iv.report_matched m b hheld h⟩
  case judged =>
    subst hv
    have hmark : marked = blockMarked iv.reports b := Bool.eq_iff_iff.mpr (hmarked.trans (blockMarked_iff _ b).symm)
    subst hmark
    obtain ⟨htotal, hmarks, hunlocked, hunset⟩ := iv.judge_counts m b
    refine ⟨htotal, ?_, ?_, hunset, iv.judge_noFrequency m b, fun q hq => iv.judge_frequency m b hq, rfl,
      fun i => PerInput.get_of _ i, iv.judge_frame m b⟩
    · rw [hmarks]
      cases blockMarked iv.reports b <;> rfl
    · rw [hunlocked]
      by_cases hl : b.lockedCycles = b.cycles
      · rw [if_pos hl, b.fullyLocked_iff.mpr hl]
        rfl
      · rw [if_neg hl, Bool.not_eq_true _ |>.mp (mt b.fullyLocked_iff.mp hl)]
        rfl
  case channel =>
    subst hd
    have hj : judging ↔ judgedThroughout reports b i = true := hjudging.trans (judgedThroughout_iff _ _ _).symm
    refine ⟨fun h => ?_, fun r hr ht => ?_⟩
    · have hd : c.judge reports marked depth m b i = { c with lost := c.lost || decide (b.roles.get i ≠ .unused) } := by
        rcases h with h | ⟨r, hr, ht⟩
        · exact c.judge_absent reports marked depth m h
        · exact c.judge_partly reports marked depth m hr ht
      rw [hd]
      exact ⟨rfl, rfl⟩
    · obtain ⟨happeared, hrole, hlost, hunverified⟩ := Channel.judge_marks (c := c) (reports := reports)
        (marked := marked) (depth := depth) (m := m) hr ht
      refine ⟨happeared, hrole, hlost, hunverified, fun h => Channel.judge_notCounted hr ht ?_, fun hm hv => ?_⟩
      · rw [← Bool.not_eq_true, countsBlock_iff]
        rintro ⟨-, hm, hv⟩
        rcases h with h | ⟨hvolt, hL, hno⟩
        · rw [h] at hm
          cases hm
        · exact hno (hj.mpr (hv hvolt hL))
      · have hc : countsBlock reports b i r = true :=
          (countsBlock_iff _ _ _ _).mpr ⟨ht, hm, fun h1 h2 => hj.mp (hv h1 h2)⟩
        obtain ⟨h1, h2, h3, h4, h5⟩ := Channel.judge_rms (c := c) (marked := marked) (depth := depth) (m := m) hr ht hc
        refine ⟨h1, h2, h3, h4, h5, Channel.judge_noHarmonics hr ht hc, fun mags thd hmark hmags hthd => ?_⟩
        subst hthd
        exact Channel.judge_harmonics hr ht hc hmark hmags
  case record =>
    subst hr
    refine ⟨rfl, rfl, rfl, rfl, rfl, fun h1 h2 => msBetween_of_le h1 h2, rfl, rfl, rfl, rfl, rfl, rfl, rfl, rfl, rfl,
      ?_, Channel.subRecord_eq⟩
    exact congrArg (List.map _) (channelOrder_eq iv.channels)

end Sys2Proof.Machine

/-! # The end of a block, and the sense pulse (R29 to R32, R43, R53, R56) -/

namespace Sys2Proof.Machine

/-! ## The arithmetic of a block's results (R31, R32) -/

/-- The phase of a point counts modulo a cycle. -/
theorem correlate_of_periodic {f : Nat → Int} (hf : ∀ n, f (n % 256) = f n) (k : Nat) (w : List Int) :
    correlate f k 0 w = ((List.range w.length).map fun n => w.getD n 0 * f (k * n)).sum := by
  rw [Sys2Proof.Laws.correlate_eq_sum f k 0 w (by decide)]
  refine congrArg List.sum (List.map_congr_left fun n _ => ?_)
  rw [hf, Nat.zero_add]

theorem classify_fitted {p : Option SenseClass} (h : p = none ∨ p = some .fitted) (level : Nat) :
    classify p level = if level < 200 then .opened else if 900 < level then .short else .fitted := by
  rcases h with rfl | rfl <;> rfl

theorem classify_opened (level : Nat) : classify (some .opened) level =
    if level < 250 then .opened else if level ≤ 900 then .fitted else .short := by
  change (if 900 < level then SenseClass.short else if 250 ≤ level then .fitted else .opened) = _
  by_cases h : level < 250
  · rw [if_pos h, if_neg (by omega), if_neg (by omega)]
  · rw [if_neg h]
    by_cases h' : level ≤ 900
    · rw [if_pos h', if_neg (by omega), if_pos (by omega)]
    · rw [if_neg h', if_pos (by omega)]

theorem classify_short (level : Nat) : classify (some .short) level =
    if 850 ≤ level then .short else if 200 ≤ level then .fitted else .opened := by
  change (if level < 200 then SenseClass.opened else if level < 850 then .fitted else .short) = _
  by_cases h : 850 ≤ level
  · rw [if_pos h, if_neg (by omega), if_neg (by omega)]
  · rw [if_neg h]
    by_cases h' : 200 ≤ level
    · rw [if_pos h', if_neg (by omega), if_pos (by omega)]
    · rw [if_neg h', if_pos (by omega)]

section

variable (f : FrontEnd) (x : Site) {i : Input}

theorem FrontEnd.fundamentalRms_eq (i : Input) : f.fundamentalRms i =
    roundSqrt (2 * (component 1 (f.waves.get i)).power)
      ((if i.isVoltage then 1 else 8192 * 8192) * (256 * f.cyclesInBlock * (256 * f.cyclesInBlock)) * 2 ^ 96) := rfl

theorem FrontEnd.noFundamental_iff (i : Input) : f.noFundamental x i = true ↔
    if i.isVoltage then f.fundamentalRms i < x.nominalVoltage else 2 * f.fundamentalRms i < (x.map.get i).scale := by
  unfold FrontEnd.noFundamental belowFloor
  split <;> exact decide_eq_true_iff

theorem FrontEnd.inputResult_none_iff : f.inputResult x i = none ↔
    (x.map.get i).role = .unused ∨ (x.map.get i).presence = .absent := by
  unfold FrontEnd.inputResult
  dsimp only
  split_ifs with h
  · exact ⟨fun _ => h, fun _ => rfl⟩
  · exact ⟨fun hn => (nomatch hn), fun h' => absurd h' h⟩
  · exact ⟨fun hn => (nomatch hn), fun h' => absurd h' h⟩

variable {r : InputResult} (hr : f.inputResult x i = some r)
include hr

/-- The result of an input is the one of R32 below the floors, or above them. -/
theorem FrontEnd.inputResult_eq : r = ⟨(x.map.get i).role, !f.absentInBlock.get i,
    rmsOf i (f.squares.get i) (256 * f.cyclesInBlock), f.fundamentalRms i,
    if f.noFundamental x i then none else some (harmonicsOf (f.waves.get i)),
    if f.noFundamental x i then none else f.angleOf x i⟩ := by
  unfold FrontEnd.inputResult at hr
  dsimp only at hr
  split_ifs at hr with h h'
  · cases hr
    rw [if_pos h', if_pos h']
  · cases hr
    rw [if_neg h', if_neg h']

end

theorem FrontEnd.angleOf_noReference {f : FrontEnd} (x : Site) (i : Input) (h : f.reference = none) :
    f.angleOf x i = none := by
  unfold FrontEnd.angleOf
  rw [h]

theorem FrontEnd.angleOf_reference {f : FrontEnd} (x : Site) (i : Input) {j : Input} (h : f.reference = some j) :
    f.angleOf x i = if f.noFundamental x j then none
      else some ((component 1 (f.waves.get i)).lag (component 1 (f.waves.get j))) := by
  unfold FrontEnd.angleOf
  rw [h]
  rfl

theorem FrontEnd.blockFrequency_none {f : FrontEnd} (h : f.lockedCycles ≠ f.cyclesInBlock) :
    f.blockFrequency = none := if_neg fun hc => h hc.1

theorem FrontEnd.blockFrequency_some {f : FrontEnd} (h : f.lockedCycles = f.cyclesInBlock) (hf : f.frequencies ≠ []) :
    f.blockFrequency = some (roundDiv f.frequencies.sum f.frequencies.length) := if_pos ⟨h, hf⟩

/-! ## Clamps (R53, R56) -/

theorem watchSense_none (h : Nat) {sense : PerClamp (Option SenseClass)} (levels : PerClamp Nat) (at_ : Stamp)
    {i : Input} (w : LeadState) (hi : i.isVoltage = true ∨ sense.get none i = none) :
    watchSense h sense levels at_ i w = w := by
  unfold watchSense
  cases hs : sense.get none i with
  | none => rfl
  | some c => exact if_pos (hi.resolve_right (by rw [hs]; exact Option.some_ne_none c))

theorem watchSense_some (h : Nat) {sense : PerClamp (Option SenseClass)} (levels : PerClamp Nat) (at_ : Stamp)
    {i : Input} (w : LeadState) {c : SenseClass} (hi : i.isVoltage = false) (hs : sense.get none i = some c) :
    watchSense h sense levels at_ i w = (w.sense c (levels.get 0 i) at_).judge h at_ := by
  unfold watchSense
  rw [hs]
  exact if_neg (by rw [hi]; exact Bool.false_ne_true)

section

variable (w : LeadState) (level : Nat) (at_ : Stamp)

theorem LeadState.sense_opened : w.sense .opened level at_ = { w with
    status := if w.status = .present ∨ w.status = .doubtful then .doubtful else .lost
    run := if w.status = .present then some at_ else w.run
    confirm := if w.status = .returning then none else w.confirm, last := level } := by
  obtain ⟨status, run, due, confirm, lostAt, last⟩ := w
  cases status <;> rfl

theorem LeadState.sense_closed {c : SenseClass} (hc : c ≠ .opened) : w.sense c level at_ = { w with
    status := if w.status = .present ∨ w.status = .doubtful then .present else .returning
    run := if w.status = .doubtful then none else w.run
    confirm := if w.status = .lost then some at_ else w.confirm, last := level } := by
  obtain ⟨status, run, due, confirm, lostAt, last⟩ := w
  cases c with
  | opened => exact absurd rfl hc
  | fitted => cases status <;> rfl
  | short => cases status <;> rfl

variable (h : Nat)

theorem LeadState.judge_doubtful {r : Stamp} (hd : w.status = .doubtful) (hr : w.run = some r) :
    (w.judge h at_).due = if r.up + 10000 * h ≤ at_.up then some h else none := by
  unfold LeadState.judge
  rw [hd, hr, Nat.mul_comm]

theorem LeadState.judge_other (hd : w.status ≠ .doubtful ∨ w.run = none) : (w.judge h at_).due = none := by
  obtain ⟨status, run, due, confirm, lostAt, last⟩ := w
  cases run with
  | none => cases status <;> rfl
  | some r =>
    cases status with
    | doubtful => exact hd.elim (fun h => absurd rfl h) (fun h => nomatch h)
    | present => rfl
    | lost => rfl
    | returning => rfl

end

/-! ## The block at the Interval Aggregator and at the check -/

theorem SameRecords.maps {s t : State} (h : SameRecords s t) : SameMaps s t := h.field Site.coreMap fun _ => rfl

theorem State.admitInterval_maps (s : State) (iv : Interval) (x : Site) (cause : IntervalEnd) (fin : Nat)
    (early : Bool) : SameMaps s (s.admitInterval iv x cause fin early) := by
  unfold State.admitInterval
  dsimp only
  have hadmit := (State.modSite_maps s iv.slot (fun y : Site => { y with nextInterval := x.nextInterval + 1 })
    fun _ => rfl).trans
    (State.admitRecord_records _ .intervals (.interval (iv.toRecord x.nextInterval cause fin early))).maps
  split
  · exact hadmit.trans (State.modSite_maps _ _ _ fun _ => rfl)
  · exact hadmit

theorem State.closeInterval_maps (s : State) (cause : IntervalEnd) (fin : Nat) (early : Bool) :
    SameMaps s (s.closeInterval cause fin early) := by
  unfold State.closeInterval
  split
  · exact SameMaps.refl s
  next iv x _ =>
    dsimp only
    split
    · exact SameMaps.refl s
    · exact (State.admitInterval_maps { s with interval := none } _ _ _ _ _)

theorem State.openInterval_aside (s : State) (k : Fin 8) (t : Time) :
    Aside { s with interval := (s.openInterval k t).interval } (s.openInterval k t) := by
  unfold State.openInterval
  split <;> exact Aside.refl _

theorem State.openInterval_sites (s : State) (k : Fin 8) (t : Time) : (s.openInterval k t).sites = s.sites := by
  unfold State.openInterval
  split <;> rfl

theorem State.intervalTakes_aside (s : State) (b : BlockResult) :
    Aside { s with interval := (s.intervalTakes b).interval } (s.intervalTakes b) := by
  unfold State.intervalTakes
  split <;> exact Aside.refl _

theorem State.intervalTakes_sites (s : State) (b : BlockResult) : (s.intervalTakes b).sites = s.sites := by
  unfold State.intervalTakes
  split <;> rfl

/-- The parts that measure and print, but for the interval. -/
def SameButInterval (s t : State) : Prop := Aside { s with interval := t.interval } t

theorem SameButInterval.trans {s t u : State} (a : SameButInterval s t) (b : SameButInterval t u) :
    SameButInterval s u :=
  ⟨b.fe.trans a.fe, b.check.trans a.check, b.watch.trans a.watch, b.sag.trans a.sag, rfl, b.print.trans a.print⟩

theorem Aside.butInterval {s t : State} (h : Aside s t) : SameButInterval s t :=
  ⟨h.fe, h.check, h.watch, h.sag, rfl, h.print⟩

theorem State.boundary_aside (s : State) (iv : Interval) (b : BlockResult) (cause : IntervalEnd) (fin : Nat)
    (early : Bool) (start : Time) : SameButInterval s (s.boundary iv b cause fin early start) := by
  have hclose : SameButInterval s (s.closeInterval cause fin early) :=
    SameButInterval.trans (t := { s with interval := none }) (Aside.refl _)
      (State.closeInterval_aside s cause fin early).butInterval
  have hopen := (hclose.trans (State.applyPending_aside _ iv.slot).butInterval).trans
    (State.openInterval_aside _ iv.slot start)
  unfold State.boundary
  dsimp only
  exact (hopen.trans (u := { ((s.closeInterval cause fin early).applyPending iv.slot).openInterval iv.slot start with
    interval := _ }) (Aside.refl _)).trans (State.intervalTakes_aside _ b)

theorem State.boundary_maps (s : State) (iv : Interval) (b : BlockResult) (cause : IntervalEnd) (fin : Nat)
    (early : Bool) (start : Time) : SameMaps s (s.boundary iv b cause fin early start) := by
  have hopen := ((State.closeInterval_maps s cause fin early).trans (State.applyPending_maps _ iv.slot)).trans
    (SameRecords.of (State.openInterval_sites _ iv.slot start)).maps
  unfold State.boundary
  dsimp only
  exact hopen.trans (SameRecords.of ((State.intervalTakes_sites _ b).trans rfl)).maps

theorem State.takeBlock_aside (s : State) (b : BlockResult) : SameButInterval s (s.takeBlock b) := by
  unfold State.takeBlock
  split
  · exact Aside.refl s
  next iv _ =>
    split
    · exact State.boundary_aside s iv b _ _ _ _
    · split
      · exact State.intervalTakes_aside s b
      · exact State.boundary_aside s iv b _ _ _ _

theorem State.takeBlock_maps (s : State) (b : BlockResult) : SameMaps s (s.takeBlock b) := by
  unfold State.takeBlock
  split
  · exact SameMaps.refl s
  next iv _ =>
    split
    · exact State.boundary_maps s iv b _ _ _ _
    · split
      · exact (SameRecords.of (State.intervalTakes_sites s b)).maps
      · exact State.boundary_maps s iv b _ _ _ _

theorem State.liveSlot_congr {s t : State} (h : ∀ k, (t.site k).map Site.core = (s.site k).map Site.core) :
    t.liveSlot = s.liveSlot := by
  unfold State.liveSlot
  refine congrArg (fun p => List.find? p slotNumbers) (funext fun k => ?_)
  have hk := congrArg (Option.map SiteCore.state) (h k)
  cases ht : t.site k with
  | none =>
    cases hs : s.site k with
    | none => rfl
    | some y =>
      rw [ht, hs] at hk
      cases hk
  | some x =>
    cases hs : s.site k with
    | none =>
      rw [ht, hs] at hk
      cases hk
    | some y =>
      rw [ht, hs] at hk
      exact congrArg SiteState.isLive (Option.some.inj hk)

/-- The live site after a block at the Interval Aggregator: its slot, its core and its map. -/
theorem State.takeBlock_live {s : State} {k : Fin 8} {x : Site} (h : Live s k x) (b : BlockResult) :
    ∃ z, Live (s.takeBlock b) k z ∧ z.map = x.map := by
  have hk := s.takeBlock_maps b k
  rw [h.2] at hk
  obtain ⟨z, hz, hcm⟩ := Option.map_eq_some_iff.mp hk
  exact ⟨z, ⟨(State.liveSlot_congr (s.takeBlock_quiet b).sites).trans h.1, hz⟩, congrArg Prod.snd hcm⟩

/-! ## The next block begins -/

section

variable {s : State} {k : Fin 8} {x : Site}

theorem State.beginBlock_live (h : Live s k x) (hrun : s.fe.clock ≠ .stopped) (levels : PerClamp Nat) :
    s.beginBlock levels =
      { s with fe := (s.fe.nextBlock x.map).pulse x.map levels : State }.watchPulse x levels := by
  unfold State.beginBlock
  rw [h.site]
  exact if_pos (decide_eq_true hrun)

theorem FrontEnd.pulse_sense (f : FrontEnd) (m : ChannelMap) (levels : PerClamp Nat) {i : Input}
    (hi : i.isVoltage = false) : (f.pulse m levels).sense.get none i = if (m.get i).role = .unused
      then f.sense.get none i else some (classify (f.sense.get none i) (levels.get 0 i)) := by
  cases i with
  | v1 => cases hi
  | v2 => cases hi
  | v3 => cases hi
  | v4 => cases hi
  | i1 => rfl
  | i2 => rfl
  | i3 => rfl
  | i4 => rfl

theorem absences_get (m : ChannelMap) (i : Input) : (absences m).get i = true ↔ (m.get i).presence = .absent := by
  unfold absences
  rw [PerInput.get_of, decide_eq_true_iff]

theorem exec_blockEnd (h : Live s k x) (hrun : s.fe.clock ≠ .stopped) (hc : s.fe.cyclesInBlock = blockCycles x.frequency)
    (dt : Nat) (phases : PerPhase Nat) (neutral : Nat) : exec (.blockEnd dt phases neutral) s =
      .next ((s.elapse dt).endBlock x (s.fe.blockResult x) ⟨phases.i1, phases.i2, phases.i3, neutral⟩) := by
  change execBlockEnd dt phases neutral s = _
  unfold execBlockEnd
  dsimp only
  rw [(h.elapse dt).2]
  refine if_pos ?_
  unfold FrontEnd.blockDone FrontEnd.runs
  rw [Bool.and_eq_true, decide_eq_true_iff, decide_eq_true_iff]
  exact ⟨hrun, hc⟩

theorem State.checkBlock_breaks {c : CheckRecord} (h : s.check = some c) {b : BlockResult} {began fin : Stamp}
    (hr : (c.takeBlock x b began fin).rotation = .indeterminate) :
    s.checkBlock x b began fin = s.breakCheck (c.takeBlock x b began fin) (.unusable .noRotation) := by
  unfold State.checkBlock
  rw [h]
  exact if_pos hr

theorem State.checkBlock_goesOn {b : BlockResult} {began fin : Stamp}
    (hr : ∀ c, s.check = some c → (c.takeBlock x b began fin).rotation ≠ .indeterminate) :
    s.checkBlock x b began fin = { s with check := s.check.map fun c => c.takeBlock x b began fin } := by
  unfold State.checkBlock
  cases h : s.check with
  | none => exact congrArg (fun c => { s with check := c }) h
  | some c => exact if_neg (hr c h)

end

/-- Settles O56: the end of a block at its readers, and the arithmetic of its result and of the pulse. -/
theorem blocksEndAndPulseTheClamps : Obligations.BlocksEndAndPulseTheClamps := by
  unfold Obligations.BlocksEndAndPulseTheClamps
  refine ⟨fun dt phases neutral levels s k x b hlive hrun hcycles hb hlevels => ?ends,
    fun f x b rms floor hb hrms hfloor => ?result,
    fun k w => ⟨correlate_of_periodic Sys2Proof.Laws.cosAt_mod k w, correlate_of_periodic Sys2Proof.Laws.sinAt_mod k w⟩,
    fun level p => ⟨fun h => classify_fitted h level, fun h => h ▸ classify_opened level,
      fun h => h ▸ classify_short level⟩,
    fun h level sense levels at_ i w c => ⟨watchSense_none h levels at_ w, watchSense_some h levels at_ w, ?last,
      ?frame, fun hc => ?opened, fun hc => ?closed, fun r hd hr => w.judge_doubtful at_ h hd hr,
      w.judge_other at_ h⟩⟩
  case ends =>
    subst hb hlevels
    let b := s.fe.blockResult x
    let levels : PerClamp Nat := ⟨phases.i1, phases.i2, phases.i3, neutral⟩
    let y : State := (s.elapse dt).takeBlock b
    have haside := (s.elapse dt).takeBlock_aside b
    have hquiet := (s.elapse dt).takeBlock_quiet b
    have hsteady := (s.elapse dt).endBlock_steady x b levels
    have hcheck : y.check = s.check := haside.check
    refine ⟨_, exec_blockEnd hlive hrun hcycles dt phases neutral, fun c hc hr hx => ?_, fun hr => ?_,
      hsteady.link, hsteady.time.1, hsteady.time.2.1, hsteady.time.2.2⟩
    · obtain ⟨z, hz, hcore⟩ := Option.map_eq_some_iff.mp ((hquiet.sites c.slot).trans (congrArg (Option.map _) hx))
      have hslot := c.takeBlock_slot x b s.fe.blockStart s.fe.cycleStart
      have hbroken := State.breakCheck_broken y (c.takeBlock x b s.fe.blockStart s.fe.cycleStart) z
        (.unusable .noRotation) (by rw [hslot]; exact hz) (.inr ⟨_, rfl⟩)
      rw [hslot] at hbroken
      refine ⟨y, _, rfl, ⟨z, hz, hcore, hbroken⟩, ?_⟩
      exact congrArg (fun u : State => u.beginBlock levels) (State.checkBlock_breaks (hcheck.trans hc) hr)
    · obtain ⟨z, hz, hmap⟩ := State.takeBlock_live (s := s.elapse dt) ⟨(hlive.elapse dt).1, hlive.2⟩ b
      let v : State := { y with check := y.check.map fun c => c.takeBlock x b s.fe.blockStart s.fe.cycleStart }
      have hv : (s.elapse dt).endBlock x b levels =
          { v with fe := (v.fe.nextBlock z.map).pulse z.map levels : State }.watchPulse z levels := by
        refine (congrArg (fun u : State => u.beginBlock levels) (State.checkBlock_goesOn (s := y)
          (fun c hc => hr c (hcheck.symm.trans hc)))).trans ?_
        exact State.beginBlock_live (s := v) hz (by rw [show v.fe = s.fe from haside.fe]; exact hrun) levels
      rw [hv, hmap]
      have hfe : v.fe = s.fe := haside.fe
      refine ⟨congrArg (Option.map _) hcheck, rfl, rfl, rfl, rfl, haside.print, haside.sag, ?_⟩
      refine ⟨(congrArg (fun f : FrontEnd => f.blockCount + 1) hfe :), rfl, (congrArg FrontEnd.cycleStart hfe :),
        (congrArg FrontEnd.cycleStart hfe :), rfl, rfl, rfl, rfl, rfl, (congrArg FrontEnd.clock hfe :),
        (congrArg FrontEnd.reference hfe :), (congrArg FrontEnd.ring hfe :), fun i => absences_get x.map i,
        fun i hi => ?_, ⟨z, hz.2, fun i => ?_⟩, hquiet.sites⟩
      · refine (FrontEnd.pulse_sense (v.fe.nextBlock x.map) x.map levels hi).trans ?_
        rw [hfe]
        rfl
      · refine (PerInput.get_of _ i).trans ?_
        rw [show v.watch = s.watch from haside.watch, hfe]
        rfl
  case result =>
    subst hb
    have hrms' : ∀ i, f.fundamentalRms i = rms i := fun i => (hrms i).symm
    have hfloor' (i : Input) : f.noFundamental x i = true ↔ floor i := by
      rw [f.noFundamental_iff x i, hrms' i, hfloor i]
    refine ⟨rfl, rfl, rfl, rfl, rfl, rfl, FrontEnd.blockFrequency_none, FrontEnd.blockFrequency_some,
      fun i => ⟨PerInput.get_of _ i, ?_, fun r hr => ?_⟩⟩
    · exact (iff_of_eq (congrArg (· = none) (PerInput.get_of (f.inputResult x) i))).trans (f.inputResult_none_iff x)
    · have hr' := f.inputResult_eq x ((PerInput.get_of (f.inputResult x) i).symm.trans hr)
      subst hr'
      refine ⟨rfl, rfl, iff_of_eq (Bool.not_eq_true' _), hrms' i, fun h => ?_, fun h => ?_⟩
      · have hn := (hfloor' i).mpr h
        exact ⟨if_pos hn, if_pos hn⟩
      · have hn := mt (hfloor' i).mp h
        refine ⟨if_neg hn, fun href => (if_neg hn).trans (FrontEnd.angleOf_noReference x i href),
          fun j href => ⟨fun hj => ?_, fun hj => ?_⟩⟩
        · exact (if_neg hn).trans ((FrontEnd.angleOf_reference x i href).trans (if_pos ((hfloor' j).mpr hj)))
        · exact (if_neg hn).trans ((FrontEnd.angleOf_reference x i href).trans (if_neg (mt (hfloor' j).mp hj)))
  case last =>
    by_cases hc : c = .opened
    · rw [hc, LeadState.sense_opened]
    · rw [LeadState.sense_closed w level at_ hc]
  case frame =>
    by_cases hc : c = .opened
    · rw [hc, LeadState.sense_opened]
    · rw [LeadState.sense_closed w level at_ hc]
  case opened =>
    subst hc
    rw [LeadState.sense_opened]
    exact ⟨by cases w.status <;> rfl, rfl, rfl⟩
  case closed =>
    rw [LeadState.sense_closed w level at_ hc]
    exact ⟨by cases w.status <;> rfl, rfl, rfl⟩

end Sys2Proof.Machine

/-! # Half-cycles: the detectors, the open event and lead watch (R28, R29, R53 to R55, R62, R66 to R71) -/

namespace Sys2Proof.Machine

/-! ## What a move of the open event leaves alone -/

/-- The blocks other than the Sag Monitor's event, its trackers, and the sites are as they were. -/
structure SagWork (s t : State) : Prop where
  fe : t.fe = s.fe
  check : t.check = s.check
  watch : t.watch = s.watch
  interval : t.interval = s.interval
  print : t.print = s.print
  store : t.store = s.store
  device : t.device = s.device
  detectors : t.sag.detectors = s.sag.detectors
  lostAhead : t.sag.lostAhead = s.sag.lostAhead

theorem SagWork.refl (s : State) : SagWork s s := ⟨rfl, rfl, rfl, rfl, rfl, rfl, rfl, rfl, rfl⟩

theorem SagWork.trans {s t u : State} (a : SagWork s t) (b : SagWork t u) : SagWork s u :=
  ⟨b.fe.trans a.fe, b.check.trans a.check, b.watch.trans a.watch, b.interval.trans a.interval, b.print.trans a.print,
    b.store.trans a.store, b.device.trans a.device, b.detectors.trans a.detectors, b.lostAhead.trans a.lostAhead⟩

theorem SagWork.ite {s a b : State} {c : Prop} [Decidable c] (ha : SagWork s a) (hb : SagWork s b) :
    SagWork s (if c then a else b) := by split <;> assumption

theorem Aside.sagWork {s t : State} (h : Aside s t) (hs : t.store = s.store) (hd : t.device = s.device) :
    SagWork s t :=
  ⟨h.fe, h.check, h.watch, h.interval, h.print, hs, hd, congrArg _ h.sag, congrArg _ h.sag⟩

theorem State.modSite_work (s : State) (k : Fin 8) (f : Site → Site) : SagWork s (s.modSite k f) :=
  (State.modSite_aside s k f).sagWork (State.modSite_store s k f) (State.modSite_device s k f)

theorem State.raise_work (s : State) (b : AttentionBit) : SagWork s (s.raise b) := (State.raise_aside s b).sagWork rfl rfl

theorem State.wakeRequest_work (s : State) (w : WakeSource) : SagWork s (s.wakeRequest w) := by
  refine (State.wakeRequest_aside s w).sagWork ?_ ?_
  · unfold State.wakeRequest
    split <;> rfl
  · unfold State.wakeRequest
    split <;> rfl

/-- A state with another open event. -/
def State.setEvent (s : State) (o : Option OpenEvent) : State := { s with sag := { s.sag with openEvent := o } }

theorem State.setEvent_work (s : State) (o : Option OpenEvent) : SagWork s (s.setEvent o) :=
  ⟨rfl, rfl, rfl, rfl, rfl, rfl, rfl, rfl, rfl⟩

section

variable (s : State) (kind : CaptureKind) (site event : Nat)

theorem State.claim_number : (s.claim kind site event).2 = s.sag.freeTracker := by
  cases h : s.sag.freeTracker with
  | none => rw [State.claim_busy h]
  | some f => rw [State.claim_free h]

theorem State.claim_work : SagWork s (s.claim kind site event).1 := by
  cases h : s.sag.freeTracker with
  | none =>
    rw [State.claim_busy h]
    exact SagWork.refl s
  | some f =>
    rw [State.claim_free h]
    exact ⟨rfl, rfl, rfl, rfl, rfl, rfl, rfl, rfl, rfl⟩

theorem State.claim_rest : (s.claim kind site event).1.sag.openEvent = s.sag.openEvent
    ∧ (s.claim kind site event).1.sites = s.sites := by
  cases h : s.sag.freeTracker with
  | none =>
    rw [State.claim_busy h]
    exact ⟨rfl, rfl⟩
  | some f =>
    rw [State.claim_free h]
    exact ⟨rfl, rfl⟩

theorem State.claim_site (k : Fin 8) : (s.claim kind site event).1.site k = s.site k := by
  unfold State.site
  rw [(s.claim_rest kind site event).2]

end

theorem claimOutcome_eq (k : Option (Fin 4)) :
    claimOutcome k = if k.isSome then .collecting else .skipped := rfl

theorem State.closeEvent_work (s : State) (k : Fin 8) (cause : EndCause) (fin : Stamp) (n : Nat) (o : CaptureOutcome) :
    SagWork s (s.closeEvent k cause fin n o) := by
  unfold State.closeEvent
  split
  · exact ((s.setEvent_work none).trans (State.modSite_work _ _ _)).trans (State.raise_work _ _)
  · exact SagWork.refl s

/-! ## The class test (R68) -/

/-- The open event with the class of a half-cycle set. -/
def OpenEvent.classed (e : OpenEvent) (vals : PerInput (Option Nat)) : OpenEvent :=
  { e with cls := if e.cls = .sag ∧ allInterrupted e.limits vals then .interruption else e.cls }

theorem State.classTest_eq {s : State} {e : OpenEvent} (he : s.sag.openEvent = some e) (x : Site)
    (vals : PerInput (Option Nat)) : s.classTest x vals = s.setEvent (some (e.classed vals))
      ∨ s.classTest x vals = (s.setEvent (some (e.classed vals))).wakeRequest (.interruption x.label e.number) := by
  unfold State.classTest OpenEvent.classed
  rw [he]
  dsimp only
  by_cases h : e.cls = .sag ∧ allInterrupted e.limits vals = true
  · rw [if_pos h, if_pos h]
    by_cases hw : x.options.wakeOnInterruption = true
    · rw [if_pos hw]
      exact .inr rfl
    · rw [if_neg hw]
      exact .inl rfl
  · rw [if_neg h, if_neg h]
    exact .inl (congrArg (fun o => { s with sag := { s.sag with openEvent := o } }) he)

section

variable {s : State} {e : OpenEvent} (he : s.sag.openEvent = some e) (x : Site) (vals : PerInput (Option Nat))
include he

theorem State.classTest_sag : (s.classTest x vals).sag = { s.sag with openEvent := some (e.classed vals) } := by
  rcases State.classTest_eq he x vals with h | h
  · rw [h]
    rfl
  · rw [h, (State.wakeRequest_aside _ _).sag]
    rfl

theorem State.classTest_site (k : Fin 8) : (s.classTest x vals).site k = s.site k := by
  rcases State.classTest_eq he x vals with h | h
  · rw [h]
    rfl
  · rw [h]
    unfold State.wakeRequest
    split <;> rfl

theorem State.classTest_attends (b : AttentionBit) : (s.classTest x vals).attends b = s.attends b := by
  rcases State.classTest_eq he x vals with h | h
  · rw [h]
    rfl
  · rw [h]
    exact State.attends_of_lp (State.wakeRequest_lp _ _) b

theorem State.classTest_work : SagWork s (s.classTest x vals) := by
  rcases State.classTest_eq he x vals with h | h
  · rw [h]
    exact State.setEvent_work s _
  · rw [h]
    exact (State.setEvent_work s _).trans (State.wakeRequest_work _ _)

end

theorem State.classTest_noEvent {s : State} (he : s.sag.openEvent = none) (x : Site) (vals : PerInput (Option Nat)) :
    s.classTest x vals = s := by
  unfold State.classTest
  rw [he]

/-! ## The recovery test (R69, R71) -/

section

variable {s : State} {e : OpenEvent} (he : s.sag.openEvent = some e) (k : Fin 8) (x : Site) (before : List Member)
include he

theorem State.recoveryTest_low (h : memberLow e s.sag.detectors = true) :
    s.recoveryTest k x before = s.setEvent (some { e with lossWaits := false }) := by
  unfold State.recoveryTest
  rw [he]
  exact if_pos h

theorem State.recoveryTest_lost (h : memberLow e s.sag.detectors = false) (hw : e.lossWaits = true) :
    s.recoveryTest k x before = s.closeEvent k .leadLost s.fe.lastHalfEnd e.halves .notTaken := by
  unfold State.recoveryTest
  rw [he]
  exact (if_neg (by rw [h]; exact Bool.false_ne_true)).trans (if_pos hw)

theorem State.recoveryTest_recovered (h : memberLow e s.sag.detectors = false) (hw : e.lossWaits = false) :
    s.recoveryTest k x before =
      ((s.setEvent (some { e with members := before })).claim .recovery x.label e.number).1.closeEvent k .recovered
        s.fe.lastHalfStart (e.halves - 1) (if s.sag.freeTracker.isSome then .collecting else .skipped) := by
  have hnumber := (s.setEvent (some { e with members := before })).claim_number .recovery x.label e.number
  unfold State.recoveryTest
  rw [he]
  refine ((if_neg (by rw [h]; exact Bool.false_ne_true)).trans
    (if_neg (by rw [hw]; exact Bool.false_ne_true))).trans ?_
  exact congrArg (fun n => (State.claim _ _ _ _).1.closeEvent k .recovered s.fe.lastHalfStart (e.halves - 1)
    (claimOutcome n)) hnumber

end

theorem State.recoveryTest_noEvent {s : State} (he : s.sag.openEvent = none) (k : Fin 8) (x : Site)
    (before : List Member) : s.recoveryTest k x before = s := by
  unfold State.recoveryTest
  rw [he]

theorem State.recoveryTest_work (s : State) (k : Fin 8) (x : Site) (before : List Member) :
    SagWork s (s.recoveryTest k x before) := by
  unfold State.recoveryTest
  split
  · exact SagWork.refl s
  · refine SagWork.ite (s.setEvent_work _) (SagWork.ite (State.closeEvent_work s k _ _ _ _) ?_)
    exact ((s.setEvent_work _).trans (State.claim_work _ _ _ _)).trans (State.closeEvent_work _ k _ _ _ _)

/-! ## The event takes a half-cycle set (R66, R67) -/

/-- The event that opens on a half-cycle set (R66). -/
def State.openedEvent (s : State) (x : Site) (vals : PerInput (Option Nat)) (low : List Input) : OpenEvent where
  number := x.sag.nextEvent
  start := s.fe.lastHalfStart
  version := x.version
  limits := x.active
  halves := 1
  members := low.map (newMember x.map vals 0 0)
  cls := .sag
  onset := if s.sag.freeTracker.isSome then .collecting else .skipped
  lossWaits := false

section

variable (s : State) (k : Fin 8) (x : Site) (vals : PerInput (Option Nat)) (low : List Input)

theorem State.openEventNow_eq : s.openEventNow k x vals low =
    (((s.claim .onset x.label x.sag.nextEvent).1.setEvent (some (s.openedEvent x vals low))).modSite k fun y =>
      { y with openEvent := x.sag.nextEvent, sag := { y.sag with nextEvent := x.sag.nextEvent + 1 } }).raise .event := by
  unfold State.openedEvent State.openEventNow
  dsimp only
  rw [s.claim_number]
  rfl

theorem State.openEventNow_work : SagWork s (s.openEventNow k x vals low) := by
  rw [State.openEventNow_eq]
  exact (((s.claim_work _ _ _).trans (State.setEvent_work _ _)).trans (State.modSite_work _ _ _)).trans
    (State.raise_work _ _)

theorem State.openEventNow_event : (s.openEventNow k x vals low).sag.openEvent = some (s.openedEvent x vals low) := by
  rw [State.openEventNow_eq]
  exact congrArg SagMonitor.openEvent (State.modSite_aside _ k _).sag

theorem State.openEventNow_attends : (s.openEventNow k x vals low).attends .event = true := by
  rw [State.openEventNow_eq]
  exact State.raise_attends _ _

theorem State.openEventNow_site (hx : s.site k = some x) : (s.openEventNow k x vals low).site k =
    some { x with openEvent := x.sag.nextEvent, sag := { x.sag with nextEvent := x.sag.nextEvent + 1 } } := by
  rw [State.openEventNow_eq]
  refine (State.site_modSite _ k k _).trans ((if_pos rfl).trans ?_)
  exact congrArg (Option.map _) ((s.claim_site _ _ _ k).trans hx)

theorem State.eventTakes_work : SagWork s (s.eventTakes k x vals low) := by
  unfold State.eventTakes
  split
  · exact s.setEvent_work _
  · exact SagWork.ite (SagWork.refl s) (s.openEventNow_work k x vals low)

end

theorem Member.take_input (vals : PerInput (Option Nat)) (o ms : Nat) (m : Member) :
    (m.take vals o ms).input = m.input := by
  unfold Member.take
  split
  · split <;> rfl
  · rfl

/-- The inputs of the members after a half-cycle set: those before it, then the ones that join (R67). -/
theorem OpenEvent.takeSet_inputs (e : OpenEvent) (m : ChannelMap) (start : Stamp) (vals : PerInput (Option Nat))
    (low : List Input) : (e.takeSet m start vals low).members.map Member.input =
      e.members.map Member.input ++ low.filter fun i => !e.hasMember i := by
  unfold OpenEvent.takeSet
  dsimp only
  rw [List.map_append, List.map_map, List.map_map]
  refine congrArg₂ (· ++ ·) (List.map_congr_left fun a _ => Member.take_input _ _ _ a) ?_
  exact List.map_id _

theorem memberLow_eq (e : OpenEvent) (ds : PerInput (Option Detector)) :
    memberLow e ds = (e.members.map Member.input).any fun i => isLow (ds.get i) := by
  rw [List.any_map]
  rfl

/-- A member is Low after a set exactly when one was before it or a detector has gone Low. -/
theorem OpenEvent.takeSet_low (e : OpenEvent) (m : ChannelMap) (start : Stamp) (vals : PerInput (Option Nat))
    {low : List Input} {ds : PerInput (Option Detector)} (hlow : ∀ i, i ∈ low → ds.get i = some .low) :
    memberLow (e.takeSet m start vals low) ds = true ↔ memberLow e ds = true ∨ low ≠ [] := by
  rw [memberLow_eq, e.takeSet_inputs, List.any_append, Bool.or_eq_true, memberLow_eq e]
  constructor
  · refine Or.imp_right fun hany => ?_
    obtain ⟨i, hi, -⟩ := List.any_eq_true.mp hany
    exact List.ne_nil_of_mem (List.mem_of_mem_filter hi)
  · rintro (h | h)
    · exact .inl h
    · obtain ⟨i, hi⟩ := List.exists_mem_of_ne_nil low h
      have hl : isLow (ds.get i) = true := (isLow_iff _).mpr (hlow i hi)
      by_cases hm : e.hasMember i = true
      · exact .inl (List.any_eq_true.mpr ⟨i, (e.hasMember_iff i).mp hm, hl⟩)
      · exact .inr (List.any_eq_true.mpr ⟨i, List.mem_filter.mpr ⟨hi, by simpa using hm⟩, hl⟩)

/-! ## A half-cycle set of a Surveying site (R62, R66 to R69) -/

/-- The detectors after a half-cycle set (R62). -/
def State.movedDetectors (s : State) (x : Site) (vals : PerInput (Option Nat)) : PerInput (Option Detector) :=
  PerInput.of fun i => (s.sag.detectors.get i).map (Detector.move (s.detectionSet x) (vals.get i))

/-- The inputs that a half-cycle set makes Low. -/
def State.lowNow (s : State) (x : Site) (vals : PerInput (Option Nat)) : List Input :=
  newlyLow s.sag.detectors (s.movedDetectors x vals)

/-- The state with its detectors moved. -/
def State.detected (s : State) (x : Site) (vals : PerInput (Option Nat)) : State :=
  { s with sag := { s.sag with detectors := s.movedDetectors x vals } }

theorem State.lowNow_low {s : State} {x : Site} {vals : PerInput (Option Nat)} {i : Input} (h : i ∈ s.lowNow x vals) :
    (s.movedDetectors x vals).get i = some .low := by
  obtain ⟨-, hp⟩ := List.mem_filter.mp h
  exact (isLow_iff _).mp (Bool.and_eq_true _ _ |>.mp hp).2

section

variable {s : State} {k : Fin 8} {x : Site} {vals : PerInput (Option Nat)}

theorem State.takeValueSet_eq : s.takeValueSet k x vals =
    (((s.detected x vals).eventTakes k x vals (s.lowNow x vals)).classTest x vals).recoveryTest k x
      ((s.sag.openEvent.map (·.members)).getD []) := rfl

theorem State.takeValueSet_work : SagWork (s.detected x vals) (s.takeValueSet k x vals) := by
  have htakes := State.eventTakes_work (s.detected x vals) k x vals (s.lowNow x vals)
  rw [State.takeValueSet_eq]
  refine (htakes.trans ?_).trans (State.recoveryTest_work _ k x _)
  cases he : ((s.detected x vals).eventTakes k x vals (s.lowNow x vals)).sag.openEvent with
  | none =>
    rw [State.classTest_noEvent he]
    exact SagWork.refl _
  | some e => exact State.classTest_work he x vals

theorem State.takeValueSet_quietly (he : s.sag.openEvent = none) (hlow : s.lowNow x vals = []) :
    (s.takeValueSet k x vals).sag.openEvent = none := by
  have hd : (s.detected x vals).sag.openEvent = none := he
  have htakes : (s.detected x vals).eventTakes k x vals (s.lowNow x vals) = s.detected x vals := by
    unfold State.eventTakes
    rw [hd, hlow]
    rfl
  rw [State.takeValueSet_eq, htakes, State.classTest_noEvent hd, State.recoveryTest_noEvent hd]
  exact hd

/-- A set that makes detectors Low opens an event (R66, R68). -/
theorem State.takeValueSet_opens (hx : s.site k = some x) (he : s.sag.openEvent = none)
    (hlow : s.lowNow x vals ≠ []) : (s.takeValueSet k x vals).attends .event = true
      ∧ (s.takeValueSet k x vals).sag.openEvent = some ((s.openedEvent x vals (s.lowNow x vals)).classed vals)
      ∧ (s.takeValueSet k x vals).site k = some { x with
        openEvent := x.sag.nextEvent, sag := { x.sag with nextEvent := x.sag.nextEvent + 1 } } := by
  let d := s.detected x vals
  let low := s.lowNow x vals
  let e := s.openedEvent x vals low
  have htakes : d.eventTakes k x vals low = d.openEventNow k x vals low := by
    unfold State.eventTakes
    rw [show d.sag.openEvent = none from he]
    exact if_neg (by rw [List.isEmpty_iff]; exact hlow)
  have hevent : (d.openEventNow k x vals low).sag.openEvent = some e := d.openEventNow_event k x vals low
  have hwork := d.openEventNow_work k x vals low
  have hclassed := State.classTest_sag hevent x vals
  have hml : memberLow (e.classed vals) ((d.openEventNow k x vals low).classTest x vals).sag.detectors = true := by
    rw [hclassed, show ({ (d.openEventNow k x vals low).sag with openEvent := some (e.classed vals) } :
      SagMonitor).detectors = d.sag.detectors from hwork.detectors, memberLow_eq]
    have hinputs : (e.classed vals).members.map Member.input = low := (List.map_map).trans (List.map_id low)
    rw [hinputs]
    obtain ⟨i, hi⟩ := List.exists_mem_of_ne_nil low hlow
    exact List.any_eq_true.mpr ⟨i, hi, (isLow_iff _).mpr (State.lowNow_low hi)⟩
  have hu : s.takeValueSet k x vals =
      ((d.openEventNow k x vals low).classTest x vals).setEvent (some (e.classed vals)) := by
    rw [State.takeValueSet_eq, htakes]
    exact State.recoveryTest_low (congrArg SagMonitor.openEvent hclassed) k x _ hml
  rw [hu]
  refine ⟨?_, rfl, ?_⟩
  · exact (State.classTest_attends hevent x vals .event).trans (d.openEventNow_attends k x vals low)
  · exact (State.classTest_site hevent x vals k).trans (d.openEventNow_site k x vals low hx)

variable {e : OpenEvent} (he : s.sag.openEvent = some e)

/-- The open event after a half-cycle set, before the recovery test (R67, R68). -/
def State.takenEvent (s : State) (x : Site) (vals : PerInput (Option Nat)) (e : OpenEvent) : OpenEvent :=
  (e.takeSet x.map s.fe.lastHalfStart vals (s.lowNow x vals)).classed vals

theorem State.takenEvent_inputs (i : Input) : i ∈ (s.takenEvent x vals e).members.map Member.input ↔
    i ∈ e.members.map Member.input ∨ i ∈ s.lowNow x vals := by
  refine (iff_of_eq (congrArg (i ∈ ·) (e.takeSet_inputs x.map s.fe.lastHalfStart vals (s.lowNow x vals)))).trans ?_
  rw [List.mem_append, List.mem_filter, ← e.hasMember_iff]
  cases e.hasMember i <;> simp

include he

/-- The state on which the recovery test of a set is made. -/
theorem State.takeValueSet_tests : ∃ c : State, s.takeValueSet k x vals = c.recoveryTest k x e.members
    ∧ c.sag = { (s.detected x vals).sag with openEvent := some (s.takenEvent x vals e) }
    ∧ (∀ j, c.site j = s.site j) ∧ SagWork (s.detected x vals) c := by
  let d := s.detected x vals
  have htakes : d.eventTakes k x vals (s.lowNow x vals) =
      d.setEvent (some (e.takeSet x.map s.fe.lastHalfStart vals (s.lowNow x vals))) := by
    unfold State.eventTakes
    rw [show d.sag.openEvent = some e from he]
    rfl
  have hevent : (d.eventTakes k x vals (s.lowNow x vals)).sag.openEvent =
      some (e.takeSet x.map s.fe.lastHalfStart vals (s.lowNow x vals)) := by
    rw [htakes]
    rfl
  refine ⟨(d.eventTakes k x vals (s.lowNow x vals)).classTest x vals, ?_, ?_, fun j => ?_, ?_⟩
  · exact congrArg (fun o : Option OpenEvent => State.recoveryTest _ k x ((o.map (·.members)).getD [])) he
  · refine (State.classTest_sag hevent x vals).trans ?_
    rw [htakes]
    rfl
  · refine (State.classTest_site hevent x vals j).trans ?_
    rw [htakes]
    rfl
  · exact (State.eventTakes_work d k x vals _).trans (State.classTest_work hevent x vals)

theorem State.takeValueSet_goesOn (h : memberLow e (s.movedDetectors x vals) = true ∨ s.lowNow x vals ≠ []) :
    (s.takeValueSet k x vals).sag.openEvent = some { s.takenEvent x vals e with lossWaits := false } := by
  obtain ⟨c, hc, hsag, -, -⟩ := State.takeValueSet_tests (k := k) (x := x) (vals := vals) he
  have hlow : memberLow (s.takenEvent x vals e) c.sag.detectors = true := by
    rw [hsag]
    exact (e.takeSet_low x.map s.fe.lastHalfStart vals fun i hi => State.lowNow_low hi).mpr h
  rw [hc, State.recoveryTest_low (congrArg SagMonitor.openEvent hsag) k x _ hlow]
  rfl

variable (hx : s.site k = some x) (hlow : s.lowNow x vals = []) (hm : memberLow e (s.movedDetectors x vals) = false)
include hx hlow hm

/-- A set on which no member is Low closes the event Recovered before it (R67, R69). -/
theorem State.takeValueSet_recovers (hw : e.lossWaits = false) : ∃ c : State,
    s.takeValueSet k x vals = c.closeEvent k .recovered s.fe.lastHalfStart e.halves
      (if s.sag.freeTracker.isSome then .collecting else .skipped)
    ∧ c.site k = some x ∧ c.sag.openEvent = some { s.takenEvent x vals e with members := e.members } := by
  obtain ⟨c, hc, hsag, hsites, hwork⟩ := State.takeValueSet_tests (k := k) (x := x) (vals := vals) he
  have hnot : memberLow (s.takenEvent x vals e) c.sag.detectors = false := by
    rw [← Bool.not_eq_true, hsag]
    refine mt (e.takeSet_low x.map s.fe.lastHalfStart vals fun i hi => State.lowNow_low hi).mp ?_
    rintro (h | h)
    · rw [hm] at h
      cases h
    · exact h hlow
  have hfree : c.sag.freeTracker = s.sag.freeTracker := by
    rw [hsag]
    rfl
  refine ⟨((c.setEvent (some { s.takenEvent x vals e with members := e.members })).claim .recovery x.label
    (s.takenEvent x vals e).number).1, ?_, ?_, ?_⟩
  · rw [hc, State.recoveryTest_recovered (congrArg SagMonitor.openEvent hsag) k x _ hnot hw, hfree, hwork.fe]
    rfl
  · exact (State.claim_site _ _ _ _ k).trans ((hsites k).trans hx)
  · exact (State.claim_rest _ _ _ _).1

/-- A close that has waited for a set comes with it (R71). -/
theorem State.takeValueSet_loses (hw : e.lossWaits = true) : ∃ c : State,
    s.takeValueSet k x vals = c.closeEvent k .leadLost s.fe.lastHalfEnd (e.halves + 1) .notTaken
    ∧ c.site k = some x ∧ c.sag.openEvent = some (s.takenEvent x vals e) := by
  obtain ⟨c, hc, hsag, hsites, hwork⟩ := State.takeValueSet_tests (k := k) (x := x) (vals := vals) he
  have hnot : memberLow (s.takenEvent x vals e) c.sag.detectors = false := by
    rw [← Bool.not_eq_true, hsag]
    refine mt (e.takeSet_low x.map s.fe.lastHalfStart vals fun i hi => State.lowNow_low hi).mp ?_
    rintro (h | h)
    · rw [hm] at h
      cases h
    · exact h hlow
  refine ⟨c, ?_, (hsites k).trans hx, congrArg SagMonitor.openEvent hsag⟩
  rw [hc, State.recoveryTest_lost (congrArg SagMonitor.openEvent hsag) k x _ hnot hw, hwork.fe]
  rfl

end

end Sys2Proof.Machine

/-! # The end of a half-cycle (R21, R22, R28, R29, R53 to R55, R62, R65) -/

namespace Sys2Proof.Machine

/-! ## Samples and values (R21, R22, R28) -/

theorem cookSamples_length (e : MapEntry) (l : List Int) : (cookSamples e l).length = 128 := by
  unfold cookSamples
  rw [List.length_map, takePoints_length]

theorem cookSamples_getD (e : MapEntry) (l : List Int) {n : Nat} (h : n < 128) : (cookSamples e l).getD n 0 =
    if e.invert then -(max (-32767) (min 32767 (l.getD n 0))) else max (-32767) (min 32767 (l.getD n 0)) := by
  have hmap := List.getD_map (n := n) (takePoints 128 l) 0
    fun c => if e.invert then -(clampCount c) else clampCount c
  have hzero : (if e.invert then -(clampCount 0) else clampCount 0) = 0 := ite_id 0
  rw [hzero, takePoints_getD l h] at hmap
  exact hmap

section

variable (f : FrontEnd) (x : Site) (ahead : Input → Bool) (samples : PerInput (List Int)) (now : Stamp) {i : Input}

theorem inValueSet_iff (inForce live : ChannelMap) (i : Input) : inValueSet inForce live ahead i = true ↔
    isLVoltage inForce i = true ∧ ((live.get i).presence ≠ .absent ∨ ahead i = true) := by
  unfold inValueSet
  rw [Bool.and_eq_true, Bool.or_eq_true, decide_eq_true_iff]

theorem FrontEnd.valueSet_get (i : Input) : (f.valueSet x ahead samples now).values.get i =
    if inValueSet (f.cycleMap x.map) x.map ahead i then
      some ⟨((f.cycleMap x.map).get i).role, halfRms ((f.cycleMap x.map).get i) i (samples.get i),
        halfMeasure ((f.cycleMap x.map).get i) i x.nominalVoltage (samples.get i)⟩
    else none := PerInput.get_of _ i

theorem FrontEnd.valueSet_isSome : ((f.valueSet x ahead samples now).values.get i).isSome = true ↔
    isLVoltage (f.cycleMap x.map) i = true ∧ ((x.map.get i).presence ≠ .absent ∨ ahead i = true) := by
  rw [f.valueSet_get, ← inValueSet_iff]
  split
  next h => exact ⟨fun _ => h, fun _ => rfl⟩
  next h => exact ⟨fun hn => (nomatch hn), fun hp => absurd hp h⟩

/-- A value of the set is that of its input's samples (R28). -/
theorem FrontEnd.valueSet_some {v : HalfValue} (hv : (f.valueSet x ahead samples now).values.get i = some v) :
    v = ⟨((f.cycleMap x.map).get i).role, halfRms ((f.cycleMap x.map).get i) i (samples.get i),
      halfMeasure ((f.cycleMap x.map).get i) i x.nominalVoltage (samples.get i)⟩ := by
  rw [f.valueSet_get] at hv
  split at hv
  · exact (Option.some.inj hv).symm
  · cases hv

end

/-! ## Lead watch (R53 to R55) -/

theorem supportsLoss_iff (m : ChannelMap) (sag : Nat) (measures : PerInput (Option Nat)) (i : Input) :
    supportsLoss m sag measures i = true ↔
      ∃ j u, j ≠ i ∧ isLVoltage m j = true ∧ measures.get j = some u ∧ sag ≤ u := by
  unfold supportsLoss
  rw [List.any_eq_true]
  constructor
  · rintro ⟨j, hj, hp⟩
    obtain ⟨hne, hu⟩ := (Bool.and_eq_true _ _).mp hp
    split at hu
    next u hm => exact ⟨j, u, bne_iff_ne.mp hne, (mem_lVoltages m j).mp hj, hm, of_decide_eq_true hu⟩
    next => cases hu
  · rintro ⟨j, u, hne, hl, hm, hle⟩
    refine ⟨j, (mem_lVoltages m j).mpr hl, ?_⟩
    rw [hm, Bool.and_eq_true]
    exact ⟨bne_iff_ne.mpr hne, decide_eq_true hle⟩

section

variable (m : ChannelMap) (l : Limits) {measures : PerInput (Option Nat)} (start fin : Stamp) {i : Input} (w : LeadState)

theorem watchMeasure_none (h : measures.get i = none ∨ isLVoltage m i = false) :
    watchMeasure m l measures start fin i w = w := by
  unfold watchMeasure
  cases hv : measures.get i with
  | none => rfl
  | some v => exact if_neg (by rw [h.resolve_left (by rw [hv]; exact Option.some_ne_none v)]; exact Bool.false_ne_true)

theorem watchMeasure_some {v : Nat} (hv : measures.get i = some v) (hl : isLVoltage m i = true) :
    watchMeasure m l measures start fin i w =
      (w.measure v start (supportsLoss m l.sag measures i)).judge l.leadHoldoff fin := by
  unfold watchMeasure
  rw [hv]
  exact if_pos hl

end

section

variable (w : LeadState) (h : Nat) (judged : Stamp)

theorem LeadState.judge_due {r : Stamp} (hd : w.status = .doubtful) (hr : w.run = some r)
    (hle : r.up + h * 10000 ≤ judged.up) : (w.judge h judged).due = some h := by
  rw [w.judge_doubtful judged h hd hr, Nat.mul_comm, if_pos hle]

theorem LeadState.judge_notDue (hn : w.status ≠ .doubtful ∨ w.run = none
    ∨ ∃ r, w.run = some r ∧ judged.up < r.up + h * 10000) : (w.judge h judged).due = none := by
  by_cases hd : w.status = .doubtful
  · rcases hn.resolve_left (not_not.mpr hd) with hr | ⟨r, hr, hlt⟩
    · exact w.judge_other judged h (.inr hr)
    · rw [w.judge_doubtful judged h hd hr, Nat.mul_comm, if_neg (Nat.not_le.mpr hlt)]
  · exact w.judge_other judged h (.inl hd)

end

section

variable (w : LeadState) {v : Nat} (start : Stamp) (b : Bool)

theorem LeadState.measure_low (hv : v < 500) : w.measure v start b = { w with
    status := if w.status = .present ∨ w.status = .doubtful then .doubtful else .lost
    run := if w.status = .present then lossRun none start b
      else if w.status = .doubtful then lossRun w.run start b else w.run
    confirm := if w.status = .returning then none else w.confirm, last := v } := by
  have hlow : lowMeasure v = true := decide_eq_true hv
  obtain ⟨status, run, due, confirm, lostAt, last⟩ := w
  unfold LeadState.measure
  rw [hlow]
  cases status <;> rfl

theorem LeadState.measure_high (hv : 500 ≤ v) : w.measure v start b = { w with
    status := if w.status = .present ∨ w.status = .doubtful then .present else .returning
    run := if w.status = .doubtful then none else w.run
    confirm := if w.status = .lost then some start else w.confirm, last := v } := by
  have hlow : lowMeasure v = false := decide_eq_false (Nat.not_lt.mpr hv)
  obtain ⟨status, run, due, confirm, lostAt, last⟩ := w
  unfold LeadState.measure
  rw [hlow]
  cases status <;> rfl

end

/-! ## HALF_CYCLE_END -/

section

variable {s : State} {k : Fin 8} {x : Site}

theorem exec_halfCycleEnd (h : Live s k x) (hrun : s.fe.clock ≠ .stopped) (hhalf : s.fe.halvesInCycle < 2)
    (hcycles : s.fe.cyclesInBlock < blockCycles x.frequency) (dt : Nat) (samples : PerInput (List Int)) :
    exec (.halfCycleEnd dt samples) s = .next ((s.elapse dt).endHalf k x samples) := by
  change execHalfCycleEnd dt samples s = _
  unfold execHalfCycleEnd
  dsimp only
  rw [(h.elapse dt).1, (h.elapse dt).2]
  refine if_pos ?_
  unfold FrontEnd.halfRuns FrontEnd.runs
  rw [Bool.and_eq_true, Bool.and_eq_true, decide_eq_true_iff, decide_eq_true_iff, decide_eq_true_iff]
  exact ⟨⟨hrun, hhalf⟩, hcycles⟩

theorem State.sagHalf_idle (h : x.state ≠ .surveying) (set : ValueSet) :
    s.sagHalf k x set = { s with sag := { s.sag with lostAhead := PerInput.same none } } := by
  unfold State.sagHalf
  rw [if_neg h]

theorem State.sagHalf_surveying (h : x.state = .surveying) (set : ValueSet) : s.sagHalf k x set =
    { (s.takeValueSet k x set.percents).report x with
      sag := { (s.takeValueSet k x set.percents).sag with lostAhead := PerInput.same none } } := by
  unfold State.sagHalf
  rw [if_pos h]
  rfl

/-- What the Sag Monitor leaves of the other blocks at the end of a half-cycle. -/
theorem State.sagHalf_rest (s : State) (k : Fin 8) (x : Site) (set : ValueSet) : (s.sagHalf k x set).fe = s.fe
    ∧ (s.sagHalf k x set).watch = s.watch ∧ (s.sagHalf k x set).print = s.print
    ∧ (s.sagHalf k x set).store = s.store ∧ (s.sagHalf k x set).check = s.check
    ∧ (s.sagHalf k x set).sag.lostAhead = PerInput.same none := by
  by_cases h : x.state = .surveying
  · rw [State.sagHalf_surveying h]
    have hwork := State.takeValueSet_work (s := s) (k := k) (x := x) (vals := set.percents)
    exact ⟨hwork.fe, hwork.watch, hwork.print, hwork.store, hwork.check, rfl⟩
  · rw [State.sagHalf_idle h]
    exact ⟨rfl, rfl, rfl, rfl, rfl, rfl⟩

end

/-- Settles O55: the end of a half-cycle at the Sag Monitor and at lead watch, and the arithmetic of its values. -/
theorem halfCyclesMoveDetectorsAndLeadWatch : Obligations.HalfCyclesMoveDetectorsAndLeadWatch := by
  unfold Obligations.HalfCyclesMoveDetectorsAndLeadWatch
  refine ⟨fun dt samples s k x set measures vals moved low fin hlive hrun hhalf hcycles hfin hmeasures hset hvals hmoved
      hlow => ?ends,
    fun f x ahead samples now v m hv hm => ?values,
    fun e l => ⟨cookSamples_length e l, fun n hn => cookSamples_getD e l hn⟩, fun l d => rfl,
    fun l v n b => ⟨rfl, rfl, rfl, rfl, rfl⟩,
    fun m l measures start fin i w b hb => ⟨watchMeasure_none m l start fin w, fun v hv hl => ?watch⟩,
    fun w h judged => ⟨rfl, fun r => w.judge_due h judged, w.judge_notDue h judged⟩,
    fun w v start b => ⟨fun hv => ?low, fun hv => ?high⟩⟩
  case ends =>
    subst hfin hmeasures hset hvals hmoved hlow
    let fin : Stamp := ⟨s.clock.advance dt, s.up + dt⟩
    let measures := presenceMeasures (s.fe.mapInForce.getD x.map) x.nominalVoltage samples
    let set := s.fe.valueSet x (fun i => (s.sag.lostAhead.get i).isSome) samples fin
    let s1 : State := { s.elapse dt with fe := s.fe.takeHalf (s.fe.mapInForce.getD x.map) samples fin set }
    let t := (s.elapse dt).endHalf k x samples
    obtain ⟨hfe, hwatch, hprint, hstore, -, hahead⟩ := s1.sagHalf_rest k x set
    have hquiet := (s.elapse dt).endHalf_quiet k x samples
    have hfe' : t.fe = s1.fe := hfe
    refine ⟨t, exec_halfCycleEnd hlive hrun hhalf hcycles dt samples, hfe, (congrArg FrontEnd.halfCount hfe' :),
      (congrArg FrontEnd.lastHalfStart hfe' :), (congrArg FrontEnd.lastHalfEnd hfe' :),
      (congrArg FrontEnd.lastSet hfe' :), fun i => ?_, fun i => ?_, fun hx => ?_, fun hx => ?_, hahead, hquiet.sites,
      hquiet.steady.link, hquiet.steady.time.1, hquiet.steady.time.2.1, hquiet.steady.time.2.2, hprint, hstore⟩
    · rw [hfe']
      exact PerInput.get_of _ i
    · exact (PerInput.get_of _ i).trans (congrArg₂ (fun (f : FrontEnd) (w : PerInput (Option LeadState)) =>
        (w.get i).map (watchMeasure x.map x.active measures s.fe.lastHalfEnd f.lastHalfEnd i)) hfe hwatch)
    · have hidle : s1.sagHalf k x set = { s1 with sag := { s1.sag with lostAhead := PerInput.same none } } :=
        State.sagHalf_idle hx set
      have hsag : t.sag = { s.sag with lostAhead := PerInput.same none } := congrArg State.sag hidle
      exact ⟨by rw [hsag], (congrArg State.interval hidle :)⟩
    · let vals := set.percents
      let u := s1.takeValueSet k x vals
      have hsurvey : s1.sagHalf k x set =
          { u.report x with sag := { u.sag with lostAhead := PerInput.same none } } := State.sagHalf_surveying hx set
      have hsag : t.sag = { u.sag with lostAhead := PerInput.same none } := congrArg State.sag hsurvey
      have hevent : t.sag.openEvent = u.sag.openEvent := (congrArg SagMonitor.openEvent hsag :)
      have hattends : t.attends .event = u.attends .event :=
        (congrArg (fun v : State => v.attends .event) hsurvey :)
      have hsite : t.site k = u.site k := (congrArg (fun v : State => v.site k) hsurvey :)
      have hwork : SagWork (s1.detected x vals) u := State.takeValueSet_work
      rw [hevent, hattends, hsite]
      have hxs : s1.site k = some x := hlive.2
      refine ⟨(congrArg SagMonitor.detectors hsag).trans hwork.detectors, fun he hlow =>
        State.takeValueSet_quietly (s := s1) he hlow, fun he hlow => ?_, fun e he hm => ?_, fun e he hw hlow hm => ?_,
        fun e he hw hlow hm => ?_⟩
      · obtain ⟨ha, hopen, hy⟩ := State.takeValueSet_opens (s := s1) (vals := vals) hxs he hlow
        refine ⟨ha, _, hopen, rfl, rfl, rfl, rfl, rfl, ?_, if_congr (and_iff_right rfl) rfl rfl, rfl, _, hy, rfl, rfl⟩
        exact List.map_map.trans (List.map_id _)
      · exact ⟨_, State.takeValueSet_goesOn (s := s1) (k := k) he hm, rfl, rfl, rfl, rfl,
          fun i => State.takenEvent_inputs (s := s1) i, rfl⟩
      · obtain ⟨c, hc, hcx, hce⟩ := State.takeValueSet_recovers (s := s1) (vals := vals) he hxs hlow hm hw
        rw [show u = _ from hc]
        refine ⟨congrArg SagMonitor.openEvent (State.closeEvent_sag hcx hce _ _ _ _), State.closeEvent_attends hcx hce _ _ _ _,
          _, State.closeEvent_site hcx hce _ _ _ _, rfl, rfl, _, rfl, rfl, rfl, rfl, rfl, rfl, rfl⟩
      · obtain ⟨c, hc, hcx, hce⟩ := State.takeValueSet_loses (s := s1) (vals := vals) he hxs hlow hm hw
        rw [show u = _ from hc]
        exact ⟨congrArg SagMonitor.openEvent (State.closeEvent_sag hcx hce _ _ _ _), State.closeEvent_attends hcx hce _ _ _ _,
          _, State.closeEvent_site hcx hce _ _ _ _, rfl, rfl, _, rfl, rfl, rfl, rfl, rfl, rfl⟩
  case values =>
    subst hv hm
    refine ⟨rfl, rfl, rfl, fun i => ⟨f.valueSet_isSome x ahead samples now, PerInput.get_of _ i, fun h hh => ?_⟩⟩
    rw [f.valueSet_some x ahead samples now hh]
    exact ⟨rfl, rfl, rfl⟩
  case watch =>
    have hsupports : supportsLoss m l.sag measures i = b :=
      Bool.eq_iff_iff.mpr ((supportsLoss_iff m l.sag measures i).trans hb.symm)
    rw [watchMeasure_some m l start fin w hv hl, hsupports]
  case low =>
    rw [w.measure_low start b hv]
    refine ⟨by cases w.status <;> rfl, fun hs => if_pos hs, fun hs => ?_⟩
    change (if w.status = .present then _ else _) = _
    rw [if_neg (by rw [hs]; decide), if_pos hs]
    rfl
  case high =>
    rw [w.measure_high start b hv]
    refine ⟨by cases w.status <;> rfl, fun hs => if_pos hs, fun hs => if_neg ?_⟩
    rw [hs]
    decide

end Sys2Proof.Machine

/-! # Lead watch's declarations (R26, R27, R47, R55 to R58, R64, R71) -/

namespace Sys2Proof.Machine

/-! ## The reference (R26, R27) -/

section

variable (m : ChannelMap) (r : Role)

/-- The input that would be the reference for a role (R26). -/
def referenceFor : Option Input :=
  [Input.v1, .v2, .v3].find? fun i => decide ((m.get i).role = r) && decide ((m.get i).presence ≠ .absent)

/-- A voltage input fits a role of the reference (R26). -/
def FitsReference (j : Input) : Prop :=
  j ∈ [Input.v1, .v2, .v3] ∧ (m.get j).role = r ∧ (m.get j).presence ≠ .absent

theorem referenceFor_none (h : ∀ j, ¬ FitsReference m r j) : referenceFor m r = none := by
  refine List.find?_eq_none.mpr fun j hj hp => h j ⟨hj, ?_⟩
  obtain ⟨hr, ha⟩ := (Bool.and_eq_true _ _).mp hp
  exact ⟨of_decide_eq_true hr, of_decide_eq_true ha⟩

variable {m r}

theorem referenceFor_some {i : Input} (h : FitsReference m r i) (hu : ∀ j, FitsReference m r j → j = i) :
    referenceFor m r = some i := by
  obtain ⟨hi, hr, ha⟩ := h
  have hp : (decide ((m.get i).role = r) && decide ((m.get i).presence ≠ .absent)) = true :=
    (Bool.and_eq_true _ _).mpr ⟨decide_eq_true hr, decide_eq_true ha⟩
  have hsome : (referenceFor m r).isSome = true := List.find?_isSome.mpr ⟨i, hi, hp⟩
  obtain ⟨j, hj⟩ := Option.isSome_iff_exists.mp hsome
  unfold referenceFor at hj
  have hfound := List.find?_some hj
  obtain ⟨hjr, hja⟩ := (Bool.and_eq_true _ _).mp hfound
  have hji := hu j ⟨List.mem_of_find?_eq_some hj, of_decide_eq_true hjr, of_decide_eq_true hja⟩
  rw [← hji]
  exact hj

end

theorem FrontEnd.runs_iff (f : FrontEnd) : f.runs = true ↔ f.clock ≠ .stopped := decide_eq_true_iff

theorem chooseReference_eq (m : ChannelMap) : chooseReference m =
    ((referenceFor m .l1).or (referenceFor m .l2)).or (referenceFor m .l3) := by
  change [Role.l1, .l2, .l3].findSome? (referenceFor m) = _
  cases h1 : referenceFor m .l1 <;> cases h2 : referenceFor m .l2 <;> cases h3 : referenceFor m .l3 <;>
    simp [List.findSome?, h1, h2, h3]

section

variable {s : State} {m : ChannelMap} (cause : ReferenceCause)

theorem State.rechoose_keeps (h : s.fe.clock = .stopped ∨ chooseReference m = s.fe.chosen) :
    s.rechoose m cause = s := by
  unfold State.rechoose
  rw [if_neg]
  rintro ⟨hrun, hne⟩
  exact h.elim (s.fe.runs_iff.mp hrun) hne

theorem State.rechoose_moves (hrun : s.fe.clock ≠ .stopped) (hne : chooseReference m ≠ s.fe.chosen) :
    s.rechoose m cause = State.put { s with fe := { s.fe with
        nextReference := some (chooseReference m), clock := .seeking, good := 0, cycleLocked := false } }
      s.liveLabel (.referenceMoved s.fe.chosen (chooseReference m) cause s.fe.clock) :=
  if_pos ⟨s.fe.runs_iff.mpr hrun, hne⟩

end

/-! ## What a declaration leaves alone -/

/-- What the steps of a declaration after its entry leave alone (R57, R58). -/
structure LeadFrame (s t : State) : Prop where
  quiet : Quiet s t
  maps : SameMaps s t
  check : t.check = s.check
  watch : t.watch = s.watch
  interval : t.interval = s.interval
  print : t.print = s.print
  absent : t.fe.absentInBlock = s.fe.absentInBlock

theorem LeadFrame.refl (s : State) : LeadFrame s s := ⟨Quiet.refl s, SameMaps.refl s, rfl, rfl, rfl, rfl, rfl⟩

theorem LeadFrame.trans {s t u : State} (a : LeadFrame s t) (b : LeadFrame t u) : LeadFrame s u :=
  ⟨a.quiet.trans b.quiet, a.maps.trans b.maps, b.check.trans a.check, b.watch.trans a.watch,
    b.interval.trans a.interval, b.print.trans a.print, b.absent.trans a.absent⟩

theorem LeadFrame.ite {s a b : State} {c : Prop} [Decidable c] (ha : LeadFrame s a) (hb : LeadFrame s b) :
    LeadFrame s (if c then a else b) := by split <;> assumption

theorem State.put_leadFrame (s : State) (n : Nat) (b : EntryBody) : LeadFrame s (s.put n b) := by
  have h := State.put_aside s n b
  exact ⟨State.put_quiet s n b, State.put_maps s n b, h.check, h.watch, h.interval, h.print, by rw [h.fe]⟩

theorem State.raise_leadFrame (s : State) (b : AttentionBit) : LeadFrame s (s.raise b) :=
  ⟨State.raise_quiet s b, fun _ => rfl, rfl, rfl, rfl, rfl, rfl⟩

theorem State.rechoose_leadFrame (s : State) (m : ChannelMap) (cause : ReferenceCause) :
    LeadFrame s (s.rechoose m cause) := by
  unfold State.rechoose
  refine LeadFrame.ite (LeadFrame.trans ?_ (State.put_leadFrame _ _ _)) (LeadFrame.refl s)
  exact ⟨Quiet.of rfl rfl rfl rfl rfl, fun _ => rfl, rfl, rfl, rfl, rfl, rfl⟩

theorem State.rechoose_sag (s : State) (m : ChannelMap) (cause : ReferenceCause) : (s.rechoose m cause).sag = s.sag := by
  unfold State.rechoose
  split
  · exact (State.put_aside _ _ _).sag
  · rfl

/-- A change of the Sag Monitor alone. -/
theorem State.setSag_leadFrame (s : State) (g : SagMonitor) : LeadFrame s { s with sag := g } :=
  ⟨Quiet.of rfl rfl rfl rfl rfl, fun _ => rfl, rfl, rfl, rfl, rfl, rfl⟩

theorem State.closeEvent_leadFrame (s : State) (k : Fin 8) (cause : EndCause) (fin : Stamp) (n : Nat)
    (o : CaptureOutcome) : LeadFrame s (s.closeEvent k cause fin n o) := by
  have hwork := State.closeEvent_work s k cause fin n o
  refine ⟨State.closeEvent_quiet s k cause fin n o, ?_, hwork.check, hwork.watch, hwork.interval, hwork.print,
    by rw [hwork.fe]⟩
  unfold State.closeEvent
  split
  next e x _ _ =>
    exact (State.modSite_maps (s.setEvent none) k (·.closeEvent (e.toRecord x.label cause fin n o) fin.time)
      fun _ => rfl).trans fun _ => rfl
  next => exact SameMaps.refl s

/-! ## A loss and a return at the Sag Monitor (R64, R71) -/

section

variable {s : State} {i : Input} {d : Detector}

theorem State.sagLoses_some (hd : s.sag.detectors.get i = some d) (k : Fin 8) (ahead : Bool) : s.sagLoses k i ahead =
    State.eventLoses { s with sag := { s.sag with detectors := s.sag.detectors.set i (some .absent) } } k i ahead := by
  unfold State.sagLoses
  rw [hd]

theorem State.eventLoses_frame (s : State) (k : Fin 8) (i : Input) (ahead : Bool) :
    LeadFrame s (s.eventLoses k i ahead) ∧ SagWork s (s.eventLoses k i ahead) := by
  unfold State.eventLoses
  split
  · exact ⟨LeadFrame.refl s, SagWork.refl s⟩
  next e _ =>
    refine ⟨LeadFrame.ite (LeadFrame.ite (s.setSag_leadFrame _) (LeadFrame.ite (s.setSag_leadFrame _) ?_))
      (LeadFrame.refl s), SagWork.ite (SagWork.ite (s.setEvent_work _) (SagWork.ite (s.setEvent_work _) ?_))
      (SagWork.refl s)⟩
    · exact (s.setSag_leadFrame _).trans (State.closeEvent_leadFrame _ _ _ _ _ _)
    · exact (s.setEvent_work (some (e.markLost i))).trans (State.closeEvent_work _ _ _ _ _ _)

theorem State.sagLoses_frame (s : State) (k : Fin 8) (i : Input) (ahead : Bool) :
    LeadFrame s (s.sagLoses k i ahead) := by
  cases hd : s.sag.detectors.get i with
  | none =>
    unfold State.sagLoses
    rw [hd]
    exact LeadFrame.refl s
  | some d =>
    rw [State.sagLoses_some hd]
    exact (s.setSag_leadFrame _).trans (State.eventLoses_frame _ k i ahead).1

theorem State.sagLoses_detectors (hd : s.sag.detectors.get i = some d) (k : Fin 8) (ahead : Bool) :
    (s.sagLoses k i ahead).sag.detectors = s.sag.detectors.set i (some .absent) := by
  rw [State.sagLoses_some hd]
  exact (State.eventLoses_frame _ k i ahead).2.detectors

theorem State.tellLoss_frame (s : State) (k : Fin 8) (i : Input) (ahead : Bool) :
    LeadFrame s (s.tellLoss k i ahead) := by
  unfold State.tellLoss
  dsimp only
  exact LeadFrame.ite ((s.sagLoses_frame k i ahead).trans (State.setSag_leadFrame _ _)) (s.sagLoses_frame k i ahead)

theorem State.tellLoss_detectors (hd : s.sag.detectors.get i = some d) (k : Fin 8) (ahead : Bool) :
    (s.tellLoss k i ahead).sag.detectors.get i = some .absent := by
  have hset : (s.sagLoses k i ahead).sag.detectors.get i = some .absent := by
    rw [State.sagLoses_detectors hd, PerInput.get_set, if_pos rfl]
  cases ahead <;> exact hset

theorem State.tellLoss_ahead (s : State) (k : Fin 8) (i : Input) :
    (s.tellLoss k i true).sag.lostAhead.get i = s.sag.detectors.get i := by
  change ((s.sagLoses k i true).sag.lostAhead.set i (s.sag.detectors.get i)).get i = _
  rw [PerInput.get_set, if_pos rfl]

theorem State.sagReturns_absent (h : s.sag.detectors.get i = some .absent) : s.sagReturns i =
    { s with sag := { s.sag with detectors := s.sag.detectors.set i (some (.settling 0 false)) } } := by
  unfold State.sagReturns
  rw [h]

theorem State.sagReturns_frame (s : State) (i : Input) : LeadFrame s (s.sagReturns i) := by
  unfold State.sagReturns
  split
  · exact s.setSag_leadFrame _
  · exact LeadFrame.refl s

variable {k : Fin 8} {e : OpenEvent} (hd : s.sag.detectors.get i = some d) (he : s.sag.openEvent = some e)
  (hm : e.members.any (fun m => m.input == i) = true)
include hd he hm

/-- A loss that reaches the open event, with its set or after it (R64, R71). -/
theorem State.sagLoses_member (ahead : Bool) {v : State} (hv : v = { s with sag := { s.sag with
      detectors := s.sag.detectors.set i (some .absent), openEvent := some (e.markLost i) } }) :
    s.sagLoses k i ahead =
      if ahead then v.setEvent (some { e.markLost i with lossWaits := true })
      else if memberLow (e.markLost i) v.sag.detectors then v
      else v.closeEvent k .leadLost v.fe.lastHalfEnd e.halves .notTaken := by
  subst hv
  rw [State.sagLoses_some hd]
  unfold State.eventLoses
  rw [show ({ s with sag := { s.sag with detectors := s.sag.detectors.set i (some .absent) } } : State).sag.openEvent =
    some e from he]
  exact if_pos hm

end

/-! ## A check that a lead reaches (R47) -/

section

variable {s : State} {i : Input}

theorem State.breakOnLead_keeps (h : s.check = none ∨ ∃ c, s.check = some c ∧ (c.phase = .presence
    ∨ i.isVoltage = false ∨ (c.inputs.get i).roleAtStart.isL = false)) : s.breakOnLead i = s := by
  unfold State.breakOnLead
  rcases h with h | ⟨c, h, hc⟩
  · rw [h]
  · rw [h]
    refine if_neg ?_
    rintro ⟨hp, hv, hl⟩
    rcases hc with hc | hc | hc
    · exact hp hc
    · exact Bool.false_ne_true (hc.symm.trans hv)
    · exact Bool.false_ne_true (hc.symm.trans hl)

theorem State.breakOnLead_breaks {c : CheckRecord} (h : s.check = some c) (hp : c.phase ≠ .presence)
    (hv : i.isVoltage = true) (hl : (c.inputs.get i).roleAtStart.isL = true) {z : Site}
    (hz : s.site c.slot = some z) :
    CheckBroken s (s.breakOnLead i) c.slot z .unusable (some .leadsMoved) := by
  have heq : s.breakOnLead i = s.breakCheck c (.unusable .leadsMoved) := by
    unfold State.breakOnLead
    rw [h]
    exact if_pos ⟨hp, hv, hl⟩
  rw [heq]
  exact State.breakCheck_broken s c z (.unusable .leadsMoved) hz (.inr ⟨_, rfl⟩)

end

/-! ## The state of a declaration before its entry (step 1 of R57 and of R58) -/

theorem State.setSlot_quiet {s : State} {k : Fin 8} {x y : Site} (hx : s.site k = some x) (hc : y.core = x.core) :
    Quiet s (s.setSlot k (some y)) := by
  refine ⟨State.setSlot_steady s k _, fun j => ?_⟩
  rw [State.site_setSlot]
  split
  next hj =>
    subst hj
    rw [hx, Option.map_some, Option.map_some, hc]
  next => rfl

section

variable {s b y : State} {k : Fin 8} {x : Site} {m : ChannelMap} (hb : b.site k = some { x with map := m })
include hb

/-- The site of a declaration after its further steps. -/
theorem LeadFrame.site (h : LeadFrame b y) : ∃ z, y.site k = some z ∧ z.core = x.core ∧ z.map = m := by
  have hk := h.maps k
  rw [hb] at hk
  obtain ⟨z, hz, hcm⟩ := Option.map_eq_some_iff.mp hk
  exact ⟨z, hz, congrArg Prod.fst hcm, congrArg Prod.snd hcm⟩

theorem LeadFrame.mapOf (h : LeadFrame b y) : y.mapOf k x = m := by
  obtain ⟨z, hz, -, hm⟩ := h.site hb
  unfold State.mapOf
  rw [hz]
  exact hm

end

section

variable {s : State} {k : Fin 8} {x : Site} {i : Input}

theorem State.lossDue_some {w : LeadState} {r : Stamp} {h : Nat} (hw : s.watch.get i = some w)
    (hs : w.status = .doubtful) (hr : w.run = some r) (hd : w.due = some h) : s.lossDue i = some ⟨r, w.last, h⟩ := by
  unfold State.lossDue
  rw [hw]
  dsimp only
  rw [hr, hd]
  exact if_pos hs

theorem State.lossDue_none (h : s.watch.get i = none
    ∨ ∃ w, s.watch.get i = some w ∧ (w.status ≠ .doubtful ∨ w.run = none ∨ w.due = none)) : s.lossDue i = none := by
  unfold State.lossDue
  rcases h with h | ⟨w, h, hn⟩
  · rw [h]
  · rw [h]
    dsimp only
    cases hr : w.run with
    | none => rfl
    | some r =>
      cases hd : w.due with
      | none => rfl
      | some l =>
        refine if_neg fun hs => ?_
        rcases hn with hn | hn | hn
        · exact hn hs
        · rw [hr] at hn
          cases hn
        · rw [hd] at hn
          cases hn

theorem exec_leadLost (h : Live s k x) (dt : Nat) : exec (.leadLost dt i none) s =
    ((s.elapse dt).lossDue i).elim (.next (s.elapse dt)) fun l => .next ((s.elapse dt).declareLost k x i l false) := by
  change execLeadLost dt i none s = _
  unfold execLeadLost
  dsimp only
  rw [(h.elapse dt).1, (h.elapse dt).2]
  cases (s.elapse dt).lossDue i <;> rfl

theorem exec_leadLost_ahead (h : Live s k x) (dt : Nat) (samples : PerInput (List Int)) {l : Loss}
    (hl : (s.elapse dt).lossAhead x i samples = some l) :
    exec (.leadLost dt i (some samples)) s = .next ((s.elapse dt).declareLost k x i l true) := by
  change execLeadLost dt i (some samples) s = _
  unfold execLeadLost
  dsimp only
  rw [(h.elapse dt).1, (h.elapse dt).2]
  simp only [hl]

theorem exec_leadRestored (h : Live s k x) {w : LeadState} (hw : s.watch.get i = some w)
    (hd : w.returnDue (s.lastJudged i) = true) :
    exec (.leadRestored i) s = .next (s.declarePresent k x i w (w.confirm.getD s.now)) := by
  change execLeadRestored i s = _
  unfold execLeadRestored
  rw [h.1, h.site]
  simp only [hw]
  rw [if_pos hd]

theorem LeadState.returnDue_iff (w : LeadState) (judged : Stamp) : w.returnDue judged = true ↔
    w.status = .returning ∧ ∃ c, w.confirm = some c ∧ c.up + 2000 ≤ judged.up := by
  unfold LeadState.returnDue
  rw [Bool.and_eq_true, decide_eq_true_iff]
  refine and_congr_right fun _ => ?_
  cases w.confirm with
  | none => exact ⟨fun h => (nomatch h), fun ⟨_, h, _⟩ => (nomatch h)⟩
  | some c =>
    refine ⟨fun h => ⟨c, rfl, of_decide_eq_true h⟩, fun ⟨d, hd, h⟩ => ?_⟩
    cases hd
    exact decide_eq_true h

theorem State.lossAhead_some {samples : PerInput (List Int)} {w : LeadState} {v : Nat}
    (hw : s.watch.get i = some w)
    (hv : (presenceMeasures (s.fe.mapInForce.getD x.map) x.nominalVoltage samples).get i = some v)
    (hrun : s.fe.halfRuns x = true) (hl : isLVoltage x.map i = true)
    (hs : w.status = .present ∨ w.status = .doubtful) (hlow : v < 500)
    (hsup : supportsLoss x.map x.active.sag
      (presenceMeasures (s.fe.mapInForce.getD x.map) x.nominalVoltage samples) i = true)
    (hhold : (w.run.getD s.fe.lastHalfEnd).up + x.active.leadHoldoff * 10000 ≤ s.up) :
    s.lossAhead x i samples = some ⟨w.run.getD s.fe.lastHalfEnd, v, x.active.leadHoldoff⟩ := by
  have hv' : (presenceMeasures (s.fe.cycleMap x.map) x.nominalVoltage samples).get i = some v := hv
  unfold State.lossAhead
  dsimp only
  rw [hw, hv']
  exact if_pos ⟨hrun, hl, hs, decide_eq_true hlow, hsup, hhold⟩

end

end Sys2Proof.Machine

/-! # LEAD_LOST and LEAD_RESTORED (R53 to R58, R64) -/

namespace Sys2Proof.Machine

section

variable {s : State} {k : Fin 8} {x : Site} {i : Input} {w : LeadState}

theorem State.markLost_eq (hx : s.site k = some x) (hw : s.watch.get i = some w) : s.markLost k i =
    State.setSlot { s with
      watch := s.watch.set i (some (w.declareLost s.now))
      fe := { s.fe with absentInBlock := s.fe.absentInBlock.set i true } } k (some (x.setPresence i .absent)) := by
  unfold State.markLost
  rw [hw]
  exact State.modSite_at (s := { s with
    watch := s.watch.set i (some (w.declareLost s.now))
    fe := { s.fe with absentInBlock := s.fe.absentInBlock.set i true } }) _ hx

theorem State.lineLost_frame (s : State) (k : Fin 8) (x : Site) (i : Input) (ahead : Bool) :
    LeadFrame s (s.lineLost k x i ahead) := by
  unfold State.lineLost
  exact LeadFrame.ite ((s.tellLoss_frame k i ahead).trans (State.rechoose_leadFrame _ _ _)) (LeadFrame.refl s)

theorem State.lineLost_other (hl : isLVoltage x.map i = false) (ahead : Bool) : s.lineLost k x i ahead = s :=
  if_neg (by rw [hl]; exact Bool.false_ne_true)

theorem State.lineLost_line (hl : isLVoltage x.map i = true) (ahead : Bool) :
    s.lineLost k x i ahead = (s.tellLoss k i ahead).rechoose (s.mapOf k x) .leadLost := if_pos hl

theorem State.lineRestored_frame (s : State) (k : Fin 8) (x : Site) (i : Input) :
    LeadFrame s (s.lineRestored k x i) := by
  unfold State.lineRestored
  exact LeadFrame.ite ((s.sagReturns_frame i).trans (State.rechoose_leadFrame _ _ _)) (LeadFrame.refl s)

theorem State.lineRestored_other (hl : isLVoltage x.map i = false) : s.lineRestored k x i = s :=
  if_neg (by rw [hl]; exact Bool.false_ne_true)

theorem State.lineRestored_line (hl : isLVoltage x.map i = true) :
    s.lineRestored k x i = (s.sagReturns i).rechoose (s.mapOf k x) .leadRestored := if_pos hl

/-- The detector of an L-role voltage input after the steps of a loss (R64). -/
theorem State.lineLost_detector (hl : isLVoltage x.map i = true) (ahead : Bool) {d : Detector}
    (hd : s.sag.detectors.get i = some d) : (s.lineLost k x i ahead).sag.detectors.get i = some .absent := by
  rw [State.lineLost_line hl, State.rechoose_sag]
  exact State.tellLoss_detectors hd k ahead

theorem State.lineRestored_detector (hl : isLVoltage x.map i = true) (hd : s.sag.detectors.get i = some .absent) :
    (s.lineRestored k x i).sag.detectors.get i = some (.settling 0 false) := by
  rw [State.lineRestored_line hl, State.rechoose_sag, State.sagReturns_absent hd]
  exact (PerInput.get_set _ i i _).trans (if_pos rfl)

theorem State.declareLost_eq (hx : s.site k = some x) (hw : s.watch.get i = some w) (l : Loss) (ahead : Bool)
    {b : State} (hb : b = State.setSlot { s with
      watch := s.watch.set i (some (w.declareLost s.now))
      fe := { s.fe with absentInBlock := s.fe.absentInBlock.set i true } } k (some (x.setPresence i .absent))) :
    s.declareLost k x i l ahead =
      (((b.put x.label (.leadLost i (x.map.get i).role l.holdoff l.last l.since.time)).lineLost k x i ahead).raise
        .lead).breakOnLead i := by
  subst hb
  unfold State.declareLost
  rw [State.markLost_eq hx hw]

theorem State.declarePresent_eq (hx : s.site k = some x) (confirm : Stamp) {b : State}
    (hb : b = State.setSlot { s with watch := s.watch.set i (some w.declarePresent) } k (some (x.restoreLead i))) :
    s.declarePresent k x i w confirm =
      (((b.put x.label (.leadRestored i (x.map.get i).role (s.lostTime w i) confirm.time)).lineRestored k x i).raise
        .lead).breakOnLead i := by
  have hmod : State.modSite { s with watch := s.watch.set i (some w.declarePresent) } k (·.restoreLead i) = b :=
    (State.modSite_at (s := { s with watch := s.watch.set i (some w.declarePresent) }) _ hx).trans hb.symm
  unfold State.declarePresent
  dsimp only
  rw [hmod]

theorem State.lostTime_some {l : Stamp} (h : w.lostAt = some l) : s.lostTime w i = l.time := by
  unfold State.lostTime
  rw [h]

/-- The parts of the state that a change of one slot and of two blocks keeps, its site's core included. -/
theorem State.setSlot_base {x' : Site} (hx : s.site k = some x) (hc : x'.core = x.core)
    (w' : PerInput (Option LeadState)) (f : FrontEnd) :
    Quiet s (State.setSlot { s with watch := w', fe := f } k (some x')) :=
  Quiet.after (State.setSlot_quiet (s := { s with watch := w', fe := f }) hx hc) rfl rfl rfl rfl rfl

end

/-- Settles O58: the declarations of lead watch, the loss ahead of its set, and the choice of the reference. -/
theorem leadsAreDeclaredLostAndRestored : Obligations.LeadsAreDeclaredLostAndRestored := by
  unfold Obligations.LeadsAreDeclaredLostAndRestored
  refine ⟨fun dt s i k x w r h m hlive hw hs hr hd hm => ?lost,
    fun dt s i k x hlive hn => ?notDue,
    fun s i k x w c m hlive hw hs hc hup hm => ?restored,
    fun dt s i samples k x w v measures hlive hmeasures hw hv hrun hhalf hcycles hl hs hlow hsup hhold => ?ahead,
    fun s v k i d e e' hd he hm he' hv => ?member,
    fun s m cause before hbefore => ?reference,
    fun m fits hfits => ?chosen⟩
  case lost =>
    subst hm
    let x' := x.setPresence i .absent
    let t := s.elapse dt
    let b : State := State.setSlot { t with
      watch := s.watch.set i (some (w.declareLost t.now))
      fe := { s.fe with absentInBlock := s.fe.absentInBlock.set i true } } k (some x')
    let s1 := b.put x.label (.leadLost i (x.map.get i).role h w.last r.time)
    let s2 := s1.lineLost k x i false
    let y := s2.raise .lead
    have hb : b.site k = some { x with map := x'.map } := State.site_setSlot_same _ k _
    have hput : LeadFrame b s1 := State.put_leadFrame b _ _
    have hframe : LeadFrame b y := (hput.trans (s1.lineLost_frame k x i false)).trans (State.raise_leadFrame s2 _)
    have hquiet : Quiet t y := (State.setSlot_base (s := t) (x' := x') hlive.2 rfl _ _).trans hframe.quiet
    have hdeclare := State.declareLost_eq (s := t) hlive.2 hw ⟨r, w.last, h⟩ false (b := b) rfl
    have hexec : exec (.leadLost dt i none) s = .next (y.breakOnLead i) := by
      rw [exec_leadLost hlive, State.lossDue_some (s := s.elapse dt) hw hs hr hd]
      exact congrArg Host.Outcome.next hdeclare
    have hcheck : y.check = s.check := hframe.check
    refine ⟨y.breakOnLead i, y, s1, s2, hexec, rfl, fun hl => State.lineLost_other hl false, fun hl => ?_, rfl, ?_,
      fun j hj => ?_, State.raise_attends _ _, ?_, hframe.site hb, fun hl hsome => ?_, hquiet.sites, hquiet.steady.link,
      hquiet.steady.time.1, hquiet.steady.time.2.1, hquiet.steady.time.2.2, hframe.print, hframe.interval,
      fun hn => State.breakOnLead_keeps (by rw [hcheck]; exact hn),
      fun c z hc hp hv hl hz => State.breakOnLead_breaks (hcheck.trans hc) hp hv hl hz⟩
    · exact (State.lineLost_line hl false).trans
        (congrArg (fun m => (s1.tellLoss k i false).rechoose m .leadLost) (hput.mapOf hb))
    · rw [hframe.watch]
      exact (PerInput.get_set s.watch i i _).trans (if_pos rfl)
    · rw [hframe.watch]
      exact (PerInput.get_set s.watch i j _).trans (if_neg hj)
    · rw [hframe.absent]
      exact (PerInput.get_set s.fe.absentInBlock i i _).trans (if_pos rfl)
    · obtain ⟨d, hdet⟩ := Option.isSome_iff_exists.mp hsome
      have hsag : s1.sag = s.sag := (State.put_aside b _ _).sag
      exact State.lineLost_detector (s := s1) hl false (by rw [hsag]; exact hdet)
  case notDue =>
    rw [exec_leadLost hlive, State.lossDue_none (s := s.elapse dt) hn]
    rfl
  case restored =>
    subst hm
    let x' := x.restoreLead i
    let b : State := State.setSlot { s with watch := s.watch.set i (some w.declarePresent) } k (some x')
    let s1 := b.put x.label (.leadRestored i (x.map.get i).role (s.lostTime w i) c.time)
    let s2 := s1.lineRestored k x i
    let y := s2.raise .lead
    have hb : b.site k = some { x with map := x'.map } := State.site_setSlot_same _ k _
    have hput : LeadFrame b s1 := State.put_leadFrame b _ _
    have hframe : LeadFrame b y := (hput.trans (s1.lineRestored_frame k x i)).trans (State.raise_leadFrame s2 _)
    have hquiet : Quiet s y := (State.setSlot_base (s := s) (x' := x') hlive.2 rfl _ _).trans hframe.quiet
    have hdue : w.returnDue (s.lastJudged i) = true := by
      rw [LeadState.returnDue_iff]
      refine ⟨hs, c, hc, ?_⟩
      rw [show (s.lastJudged i).up = _ from congrArg Stamp.up rfl]
      exact hup
    have hexec : exec (.leadRestored i) s = .next (y.breakOnLead i) := by
      rw [exec_leadRestored hlive hw hdue, hc]
      exact congrArg Host.Outcome.next (State.declarePresent_eq hlive.2 c (b := b) rfl)
    have hcheck : y.check = s.check := hframe.check
    refine ⟨y.breakOnLead i, y, s1, s2, s.lostTime w i, hexec, fun l hl => State.lostTime_some hl, rfl,
      fun hl => State.lineRestored_other hl, fun hl => ?_, rfl, ?_, fun j hj => ?_, State.raise_attends _ _,
      hframe.site hb, fun hl hdet => ?_, hquiet.sites, hquiet.steady.link, hquiet.steady.time, hframe.print,
      hframe.interval, fun hn => State.breakOnLead_keeps (by rw [hcheck]; exact hn),
      fun c z hc hp hv hl hz => State.breakOnLead_breaks (hcheck.trans hc) hp hv hl hz⟩
    · exact (State.lineRestored_line hl).trans
        (congrArg (fun m => (s1.sagReturns i).rechoose m .leadRestored) (hput.mapOf hb))
    · rw [hframe.watch]
      exact (PerInput.get_set s.watch i i _).trans (if_pos rfl)
    · rw [hframe.watch]
      exact (PerInput.get_set s.watch i j _).trans (if_neg hj)
    · have hsag : s1.sag = s.sag := (State.put_aside b _ _).sag
      exact State.lineRestored_detector (s := s1) hl (by rw [hsag]; exact hdet)
  case ahead =>
    subst hmeasures
    let t := s.elapse dt
    let l : Loss := ⟨w.run.getD s.fe.lastHalfEnd, v, x.active.leadHoldoff⟩
    let b : State := State.setSlot { t with
      watch := s.watch.set i (some (w.declareLost t.now))
      fe := { s.fe with absentInBlock := s.fe.absentInBlock.set i true } } k (some (x.setPresence i .absent))
    let s1 := b.put x.label (.leadLost i (x.map.get i).role l.holdoff l.last l.since.time)
    let y := (s1.lineLost k x i true).raise .lead
    have hruns : t.fe.halfRuns x = true := by
      unfold FrontEnd.halfRuns
      rw [Bool.and_eq_true, Bool.and_eq_true, FrontEnd.runs_iff, decide_eq_true_iff, decide_eq_true_iff]
      exact ⟨⟨hrun, hhalf⟩, hcycles⟩
    have hloss : t.lossAhead x i samples = some l :=
      State.lossAhead_some (s := t) hw hv hruns hl hs hlow hsup hhold
    have hframe : LeadFrame b y :=
      ((State.put_leadFrame b _ _).trans (s1.lineLost_frame k x i true)).trans (State.raise_leadFrame _ _)
    have hdeclare : t.declareLost k x i l true = y.breakOnLead i :=
      State.declareLost_eq (s := t) hlive.2 hw l true (b := b) rfl
    refine ⟨_, (exec_leadLost_ahead hlive dt samples hloss).trans (congrArg Host.Outcome.next hdeclare), fun hn => ?_⟩
    rw [State.breakOnLead_keeps (.inl (hframe.check.trans hn))]
    refine ⟨⟨_, (congrArg (fun p => PerInput.get p i) hframe.watch).trans
      ((PerInput.get_set s.watch i i _).trans (if_pos rfl)), rfl⟩, fun hsome => ?_⟩
    obtain ⟨d, hdet⟩ := Option.isSome_iff_exists.mp hsome
    have hsag : s1.sag = s.sag := (State.put_aside b _ _).sag
    refine ⟨State.lineLost_detector (s := s1) hl true (by rw [hsag]; exact hdet), ?_⟩
    change (s1.lineLost k x i true).sag.lostAhead.get i = _
    rw [State.lineLost_line hl, State.rechoose_sag, State.tellLoss_ahead, hsag]
  case member =>
    subst he'
    have hloses := fun ahead => State.sagLoses_member (k := k) hd he hm ahead (v := v) hv
    have hfe : v.fe = s.fe := by rw [hv]
    refine ⟨fun hlow => (hloses false).trans (if_pos hlow), fun hlow => ?_, ?_⟩
    · have hnot : memberLow (e.markLost i) v.sag.detectors = false := hlow
      refine (hloses false).trans ((if_neg Bool.false_ne_true).trans ?_)
      rw [hnot, hfe]
      rfl
    · change ({ s.sagLoses k i true with sag := { (s.sagLoses k i true).sag with
        lostAhead := (s.sagLoses k i true).sag.lostAhead.set i (s.sag.detectors.get i) } } : State) = _
      rw [show s.sagLoses k i true = v.setEvent (some { e.markLost i with lossWaits := true }) from hloses true, hd, hv]
      rfl
  case reference =>
    subst hbefore
    exact ⟨State.rechoose_keeps cause, State.rechoose_moves cause⟩
  case chosen =>
    have hnone (r : Role) (hr : ∀ j, ¬ fits r j) : referenceFor m r = none :=
      referenceFor_none m r fun j hj => hr j ((hfits r j).mpr hj)
    refine ⟨fun hr => ?_, fun r i hi hu hr => ?_⟩
    · rw [chooseReference_eq, hnone .l1 fun j => hr .l1 j (by simp), hnone .l2 fun j => hr .l2 j (by simp),
        hnone .l3 fun j => hr .l3 j (by simp)]
      rfl
    · have hsome : referenceFor m r = some i :=
        referenceFor_some ((hfits r i).mp hi) fun j hj => hu j ((hfits r j).mpr hj)
      rw [chooseReference_eq]
      rcases hr with rfl | ⟨rfl, h1⟩ | ⟨rfl, h12⟩
      · rw [hsome]
        rfl
      · rw [hnone .l1 h1, hsome]
        rfl
      · rw [hnone .l1 fun j => (h12 j).1, hnone .l2 fun j => (h12 j).2, hsome]
        rfl

end Sys2Proof.Machine

/-! # Captures complete (R77, R78, R81, R118) -/

namespace Sys2Proof.Machine

/-! ## What a journal entry keeps of a site record and of the store -/

/-- Every slot holds the same part `g` of a site record in two states. -/
def SameBy {β : Type} (g : Site → β) (s t : State) : Prop := ∀ k : Fin 8, (t.site k).map g = (s.site k).map g

/-- A part of a site record that a journal entry does not reach: neither the journal state nor the two counts of
entries. -/
structure EntryBlind {β : Type} (g : Site → β) : Prop where
  journal : ∀ x j, g { x with journal := j } = g x
  entry : ∀ x, g (Site.countEntry x) = g x
  lost : ∀ x, g (Site.countLostEntry x) = g x

section

variable {β : Type} {g : Site → β} {s t u : State}

theorem SameBy.refl (s : State) : SameBy g s s := fun _ => rfl

theorem SameBy.trans (a : SameBy g s t) (b : SameBy g t u) : SameBy g s u := fun k => (b k).trans (a k)

theorem SameBy.of (h : t.sites = s.sites) : SameBy g s t := fun k => by rw [State.site, State.site, h]

theorem SameBy.siteOf (h : SameBy g s t) (hs : SameSites s t) (n : Nat) :
    (t.siteOf n).map g = (s.siteOf n).map g := by
  have hlabel : ∀ k, (t.site k).map Site.label = (s.site k).map Site.label := fun k => by
    have hk := congrArg (Option.map SiteCore.label) (hs k)
    rw [Option.map_map, Option.map_map] at hk
    exact hk
  unfold State.siteOf
  rw [State.findSlot_congr hlabel]
  cases s.findSlot n with
  | none => rfl
  | some k => exact h k

theorem State.modSite_by (s : State) (k : Fin 8) {f : Site → Site} (h : ∀ x, g (f x) = g x) :
    SameBy g s (s.modSite k f) := by
  intro j
  rw [State.site_modSite]
  split
  · cases s.site j <;> simp [h]
  · rfl

theorem State.modLabel_by (s : State) (n : Nat) {f : Site → Site} (h : ∀ x, g (f x) = g x) :
    SameBy g s (s.modLabel n f) := by
  unfold State.modLabel
  split
  · exact State.modSite_by s _ h
  · exact SameBy.refl s

/-- A journal entry leaves such a part of every site record alone (R104, R105). -/
theorem State.enter_by (hg : EntryBlind g) (s : State) (r : EntryRequest) : SameBy g s (s.enter r).1 := by
  have hjournal (j : JournalState) : SameBy g s (s.setJournal r.site j) := by
    unfold State.setJournal
    split
    · exact SameBy.of rfl
    · exact State.modLabel_by s _ fun x => hg.journal x j
  have hentry (t : State) : SameBy g t (t.countEntry r.site) := by
    unfold State.countEntry
    split
    · exact SameBy.refl t
    · exact State.modLabel_by t _ hg.entry
  have hlost (t : State) : SameBy g t (t.countLostEntry r.site) := by
    unfold State.countLostEntry
    split
    · exact SameBy.of rfl
    · exact State.modLabel_by t _ hg.lost
  unfold State.enter
  split
  · exact SameBy.refl s
  · split
    · exact ((hjournal _).trans (SameBy.of (State.addRecords_sites _ _ _))).trans (hentry _)
    · exact ((hjournal _).trans (hlost _)).trans (SameBy.of rfl)

end

theorem State.putAnchored_by {β : Type} {g : Site → β} (hg : EntryBlind g) (s : State) (n : Nat) (a : Anchor)
    (b : EntryBody) : SameBy g s (s.putAnchored n a b) := State.enter_by hg s _

/-- A journal entry reaches the queue and the lost counts of the journal alone (R104, R105). -/
theorem State.enter_streams (s : State) (r : EntryRequest) {st : Stream} (hst : st ≠ .journal) :
    (s.enter r).1.store.queues.get st = s.store.queues.get st
    ∧ (s.enter r).1.store.lostTotal.get st = s.store.lostTotal.get st
    ∧ (s.enter r).1.store.lostSincePage.get st = s.store.lostSincePage.get st := by
  cases hj : s.journalOf r.site with
  | none =>
    unfold State.enter
    rw [hj]
    exact ⟨rfl, rfl, rfl⟩
  | some j =>
    cases ha : s.admitsEntry j r.body with
    | true =>
      rw [State.enter_store_of_admits hj ha]
      cases st with
      | journal => exact absurd rfl hst
      | events => exact ⟨rfl, rfl, rfl⟩
      | intervals => exact ⟨rfl, rfl, rfl⟩
      | captures => exact ⟨rfl, rfl, rfl⟩
    | false =>
      rw [State.enter_of_refused hj ha]
      unfold State.countLost
      rw [State.countLostEntry_store, State.setJournal_store]
      cases st with
      | journal => exact absurd rfl hst
      | events => exact ⟨rfl, rfl, rfl⟩
      | intervals => exact ⟨rfl, rfl, rfl⟩
      | captures => exact ⟨rfl, rfl, rfl⟩

/-! ## A capture that is offered (R78, R118) -/

section

variable {s : State} {n : Nat} {x : Site} (hx : s.siteOf n = some x) (ps : Nat → List CapturePiece)
include hx

theorem State.offerCapture_admitted (h : s.store.admitsCapture (2080 * (ps x.sag.nextCapture).length) = true) :
    s.offerCapture n ps = ((s.modLabel n Site.takeCapture).addRecords .captures ((ps x.sag.nextCapture).map .piece),
      .admitted x.sag.nextCapture) := by
  unfold State.offerCapture
  rw [hx]
  exact if_pos h

theorem State.offerCapture_refused (h : s.store.admitsCapture (2080 * (ps x.sag.nextCapture).length) = false) :
    s.offerCapture n ps = ((s.countLost .captures (ps x.sag.nextCapture).length).modLabel n
      (·.countLostRecord .captures), .refused) := by
  unfold State.offerCapture
  rw [hx]
  exact if_neg (by rw [h]; exact Bool.false_ne_true)

end

theorem RecordStore.admitsCapture_iff (r : RecordStore) (n : Nat) : r.admitsCapture n = true ↔
    r.nonJournalOccupancy + n ≤ 491520 ∧ r.total + n + 65536 ≤ 524288 := decide_eq_true_iff

theorem State.offerCapture_aside (s : State) (n : Nat) (ps : Nat → List CapturePiece) :
    Aside s (s.offerCapture n ps).1 := by
  unfold State.offerCapture
  split
  · exact Aside.refl s
  · dsimp only
    split
    · exact (State.modLabel_aside s n _).trans (State.addRecords_aside _ _ _)
    · exact (State.countLost_aside s _ _).trans (State.modLabel_aside _ _ _)

theorem State.offerCapture_device (s : State) (n : Nat) (ps : Nat → List CapturePiece) :
    (s.offerCapture n ps).1.device = s.device := by
  unfold State.offerCapture
  split
  · rfl
  · dsimp only
    split
    · rw [State.addRecords_device, State.modLabel_device]
    · rw [State.modLabel_device]
      rfl

theorem State.spanPieces_length (s : State) (t : Tracker) (id : Nat) :
    (s.spanPieces t id).length = t.kind.span.1 + 1 + t.kind.span.2 := by
  unfold State.spanPieces
  rw [List.length_map, List.length_range]

/-- The queued pieces of a span (R78). -/
theorem State.spanPieces_queued (s u : State) (hc : u.clock = s.clock) (t : Tracker) (id : Nat) :
    ((s.spanPieces t id).map Record.piece).map (queued u) =
      (s.spanPieces t id).map fun p => ⟨.piece p, 2080, t.site, s.clock, false, false⟩ := by
  unfold State.spanPieces
  rw [List.map_map, List.map_map, List.map_map, ← hc]
  rfl

/-! ## The outcome of a capture (R78, R81) -/

/-- What the end of a capture leaves alone of the blocks that measure and print. -/
structure CaptureFrame (s t : State) : Prop where
  fe : t.fe = s.fe
  check : t.check = s.check
  watch : t.watch = s.watch
  interval : t.interval = s.interval
  print : t.print = s.print
  detectors : t.sag.detectors = s.sag.detectors
  trackers : t.sag.trackers = s.sag.trackers

theorem CaptureFrame.of_aside {s t : State} (h : Aside s t) : CaptureFrame s t :=
  ⟨h.fe, h.check, h.watch, h.interval, h.print, congrArg _ h.sag, congrArg _ h.sag⟩

theorem CaptureFrame.trans {s t u : State} (a : CaptureFrame s t) (b : CaptureFrame t u) : CaptureFrame s u :=
  ⟨b.fe.trans a.fe, b.check.trans a.check, b.watch.trans a.watch, b.interval.trans a.interval, b.print.trans a.print,
    b.detectors.trans a.detectors, b.trackers.trans a.trackers⟩

theorem State.setEvent_captureFrame (s : State) (o : Option OpenEvent) : CaptureFrame s (s.setEvent o) :=
  ⟨rfl, rfl, rfl, rfl, rfl, rfl, rfl⟩

section

variable (s : State) (site event : Nat) (kind : CaptureKind) (o : CaptureOutcome)

/-- The open event with the outcome of an Onset capture (R78). -/
def OpenEvent.outcome (e : OpenEvent) (kind : CaptureKind) (event : Nat) (o : CaptureOutcome) : OpenEvent :=
  if kind = .onset ∧ e.number = event then { e with onset := o } else e

theorem State.setOutcome_eq : s.setOutcome site kind event o =
    (s.setEvent (s.sag.openEvent.map (·.outcome kind event o))).modLabel site fun x =>
      { x with sag := { x.sag with admission := x.sag.admission.map fun r => EventRecord.setOutcome r kind event o } } := by
  unfold State.setOutcome
  refine congrArg (fun t : State => t.modLabel site _) ?_
  cases he : s.sag.openEvent with
  | none => exact congrArg (fun o => { s with sag := { s.sag with openEvent := o } }) he
  | some e =>
    dsimp only
    rw [Option.map_some]
    unfold OpenEvent.outcome
    by_cases hc : kind = .onset ∧ e.number = event
    · rw [if_pos hc, if_pos hc]
      rfl
    · rw [if_neg hc, if_neg hc]
      exact congrArg (fun o => { s with sag := { s.sag with openEvent := o } }) he

theorem State.setOutcome_frame : CaptureFrame s (s.setOutcome site kind event o) := by
  rw [State.setOutcome_eq]
  exact (s.setEvent_captureFrame _).trans (CaptureFrame.of_aside (State.modLabel_aside _ _ _))

theorem State.setOutcome_event : (s.setOutcome site kind event o).sag.openEvent =
    s.sag.openEvent.map (·.outcome kind event o) := by
  rw [State.setOutcome_eq]
  exact congrArg SagMonitor.openEvent (State.modLabel_aside _ site _).sag

theorem State.setOutcome_store : (s.setOutcome site kind event o).store = s.store := by
  rw [State.setOutcome_eq, State.modLabel_store]
  rfl

variable {s site} in
theorem State.setOutcome_site {x : Site} (hx : s.siteOf site = some x) : (s.setOutcome site kind event o).siteOf site =
    some { x with sag := { x.sag with
      admission := x.sag.admission.map fun r => EventRecord.setOutcome r kind event o } } := by
  rw [State.setOutcome_eq, State.siteOf_modLabel, if_pos rfl]
  · exact congrArg (Option.map _) hx
  · exact fun _ => rfl

end

theorem OpenEvent.outcome_recovery (e : OpenEvent) (event : Nat) (o : CaptureOutcome) :
    e.outcome .recovery event o = e := if_neg fun h => nomatch h.1

section

variable (s : State) (f : Fin 4) (t : Tracker) (o : CaptureOutcome)

theorem State.finishCapture_event (h : t.kind ≠ .snapshot) :
    s.finishCapture f t o = s.setOutcome t.site t.kind t.event o := by
  unfold State.finishCapture
  cases hk : t.kind with
  | onset => rfl
  | recovery => rfl
  | snapshot => exact absurd hk h

theorem State.finishCapture_snapshot (h : t.kind = .snapshot) : s.finishCapture f t o =
    s.put t.site (.snapshot (snapshotOutcome o) f.val t.claimed.time t.triggerStart) := by
  unfold State.finishCapture
  rw [h]

theorem State.finishCapture_frame : CaptureFrame s (s.finishCapture f t o) := by
  by_cases h : t.kind = .snapshot
  · rw [State.finishCapture_snapshot s f t o h]
    exact CaptureFrame.of_aside (State.put_aside _ _ _)
  · rw [State.finishCapture_event s f t o h]
    exact State.setOutcome_frame _ _ _ _ _

/-- The end of a capture leaves its stream alone. -/
theorem State.finishCapture_streams : (s.finishCapture f t o).store.queues.captures = s.store.queues.captures
    ∧ (s.finishCapture f t o).store.lostTotal.captures = s.store.lostTotal.captures
    ∧ (s.finishCapture f t o).store.lostSincePage.captures = s.store.lostSincePage.captures := by
  by_cases h : t.kind = .snapshot
  · rw [State.finishCapture_snapshot s f t o h]
    exact State.enter_streams s _ (st := .captures) (by decide)
  · rw [State.finishCapture_event s f t o h, State.setOutcome_store]
    exact ⟨rfl, rfl, rfl⟩

/-- The end of a capture leaves the capture number and the count of lost captures alone. -/
theorem State.finishCapture_by : SameBy (fun x => (x.sag.nextCapture, x.counters.lostCaptures)) s
    (s.finishCapture f t o) := by
  by_cases h : t.kind = .snapshot
  · rw [State.finishCapture_snapshot s f t o h]
    exact State.enter_by ⟨fun _ _ => rfl, fun _ => rfl, fun _ => rfl⟩ s _
  · rw [State.finishCapture_event s f t o h, State.setOutcome_eq]
    exact SameBy.trans (SameBy.of (t := s.setEvent _) rfl) (State.modLabel_by _ _ fun _ => rfl)

end

/-! ## CAPTURE_COMPLETE -/

theorem State.freeTracker_at (s : State) (f : Fin 4) : (s.freeTracker f).sag.trackers[f] = none := by
  change (s.sag.trackers.set f none)[f] = none
  rw [Fin.getElem_fin, Vector.getElem_set_self]

theorem State.freeTracker_other (s : State) {f j : Fin 4} (h : j ≠ f) :
    (s.freeTracker f).sag.trackers[j] = s.sag.trackers[j] := by
  change (s.sag.trackers.set f none)[j] = _
  rw [Fin.getElem_fin, Vector.getElem_set_ne _ _ (fun he => h (Fin.ext he.symm))]
  rfl

section

variable {s : State}

theorem exec_captureComplete {f : Fin 4} {t : Tracker} (h : s.sag.firstComplete = some (f, t)) :
    exec .captureComplete s = .next (((s.offerCapture t.site (s.spanPieces t)).1.freeTracker f).finishCapture f t
      (s.offerCapture t.site (s.spanPieces t)).2) := by
  change execCaptureComplete s = _
  unfold execCaptureComplete
  rw [h]

theorem exec_captureComplete_none (h : s.sag.firstComplete = none) : exec .captureComplete s = .next s := by
  change execCaptureComplete s = _
  unfold execCaptureComplete
  rw [h]

/-- A complete span that the store admits, or refuses (R78, R118). -/
theorem State.offerCapture_span {t : Tracker} {x : Site} (hx : s.siteOf t.site = some x) {n : Nat}
    (hn : n = t.kind.span.1 + 1 + t.kind.span.2) :
    (s.store.admitsCapture (2080 * n) = true → s.offerCapture t.site (s.spanPieces t) =
      ((s.modLabel t.site Site.takeCapture).addRecords .captures ((s.spanPieces t x.sag.nextCapture).map .piece),
        .admitted x.sag.nextCapture))
    ∧ (s.store.admitsCapture (2080 * n) = false → s.offerCapture t.site (s.spanPieces t) =
      ((s.countLost .captures n).modLabel t.site (·.countLostRecord .captures), .refused)) := by
  subst hn
  have hlen := s.spanPieces_length t x.sag.nextCapture
  refine ⟨fun h => State.offerCapture_admitted hx _ (by rw [hlen]; exact h), fun h => ?_⟩
  rw [State.offerCapture_refused hx _ (by rw [hlen]; exact h), hlen]

theorem State.siteOf_addRecords (s : State) (st : Stream) (rs : List Record) (n : Nat) :
    (s.addRecords st rs).siteOf n = s.siteOf n := State.siteOf_congr (State.addRecords_sites _ _ _) n

end

end Sys2Proof.Machine

/-! # Event records are handed on (R75, R82, R83, R119, R121) -/

namespace Sys2Proof.Machine

/-! ## The worst-event list (R82) -/

theorem enterWorst_room {l : List WorstEntry} (e : WorstEntry) (h : l.length < 32) : enterWorst l e = l ++ [e] :=
  if_pos h

section

variable {l : List WorstEntry} {e : WorstEntry} (h : 32 ≤ l.length)
include h

theorem highest_of_full : ∃ w, highest l = some w ∧ w ∈ l ∧ (∀ v, v ∈ l → v.residual ≤ w.residual)
    ∧ ∀ v, v ∈ l → v.residual = w.residual → v.number ≤ w.number := by
  obtain ⟨hnone, hsome⟩ := highest_spec l
  cases hw : highest l with
  | none =>
    rw [hnone.mp hw] at h
    simp at h
  | some w =>
    obtain ⟨hmem, hres, hnum⟩ := hsome w hw
    exact ⟨w, rfl, hmem, hres, hnum⟩

theorem enterWorst_full {w : WorstEntry} (hw : highest l = some w) :
    enterWorst l e = if e.residual < w.residual then l.filter (· != w) ++ [e] else l := by
  unfold enterWorst
  rw [hw]
  exact if_neg (Nat.not_lt.mpr h)

theorem enterWorst_refuses (hl : ∀ w, w ∈ l → w.residual ≤ e.residual) : enterWorst l e = l := by
  obtain ⟨w, hw, hmem, -, -⟩ := highest_of_full h
  rw [enterWorst_full h hw, if_neg (Nat.not_lt.mpr (hl w hmem))]

/-- A full list takes a lower residual for the entry that leaves first (R82). -/
theorem enterWorst_takes {w : WorstEntry} (hmem : w ∈ l) (hlt : e.residual < w.residual) :
    ∃ v, highest l = some v ∧ enterWorst l e = l.filter (· != v) ++ [e] := by
  obtain ⟨v, hv, -, hres, -⟩ := highest_of_full h
  exact ⟨v, hv, (enterWorst_full h hv).trans (if_pos (Nat.lt_of_lt_of_le hlt (hres w hmem)))⟩

end

theorem mem_filter_ne_append {l : List WorstEntry} {e v w : WorstEntry} :
    v ∈ l.filter (· != w) ++ [e] ↔ v = e ∨ (v ∈ l ∧ v ≠ w) := by
  rw [List.mem_append, List.mem_filter, List.mem_singleton, bne_iff_ne, or_comm]

theorem length_filter_ne_append {l : List WorstEntry} {e w : WorstEntry} (hl : l.Nodup) (hw : w ∈ l) :
    (l.filter (· != w) ++ [e]).length = l.length := by
  rw [← hl.erase_eq_filter, List.length_append, List.length_erase_of_mem hw, List.length_singleton]
  exact Nat.sub_add_cancel (List.length_pos_of_mem hw)

/-! ## The Slip rule (R83) -/

theorem callsSlip_iff (o : SiteOptions) (r : EventRecord) : callsSlip o r = true ↔
    (o.slipRule = .interruptions ∧ r.cls = .interruption) ∨ (o.slipRule = .depth ∧ r.residual < o.slipDepth) := by
  unfold callsSlip
  cases o.slipRule <;> simp

theorem callsSlip_off {o : SiteOptions} (h : o.slipRule = .off) (r : EventRecord) : callsSlip o r = false := by
  unfold callsSlip
  rw [h]

section

variable {s : State} {r : EventRecord} {x : Site} (hx : s.siteOf r.site = some x)
include hx

theorem State.testSlip_off (h : callsSlip x.options r = false) : s.testSlip r = s := by
  unfold State.testSlip
  rw [hx]
  exact if_neg (by rw [h]; exact Bool.false_ne_true)

variable (h : callsSlip x.options r = true)
include h

theorem State.testSlip_room (hq : s.print.jobs.length < 8) : s.testSlip r =
    s.createJob .slip 1 [.siteHeader r.site true, .eventLine r] [r.site] [] r.number := by
  have hreq : s.requestSlip r.site r = some (s.createJob .slip 1 [.siteHeader r.site true, .eventLine r] [r.site] []
    r.number) := if_pos hq
  unfold State.testSlip
  rw [hx]
  dsimp only
  rw [if_pos h, hreq]

theorem State.testSlip_full (hq : 8 ≤ s.print.jobs.length) : s.testSlip r = s.skipSlip x r := by
  have hreq : s.requestSlip r.site r = none := if_neg (Nat.not_lt.mpr hq)
  unfold State.testSlip
  rw [hx]
  dsimp only
  rw [if_pos h, hreq]

end

/-- The Slip rule leaves the state, or a job is created, or a slip is skipped (R83). -/
theorem State.testSlip_cases {s : State} {r : EventRecord} {x : Site} (hx : s.siteOf r.site = some x) :
    s.testSlip r = s
    ∨ s.testSlip r = s.createJob .slip 1 [.siteHeader r.site true, .eventLine r] [r.site] [] r.number
    ∨ s.testSlip r = s.skipSlip x r := by
  by_cases h : callsSlip x.options r = true
  · by_cases hq : s.print.jobs.length < 8
    · exact .inr (.inl (State.testSlip_room hx h hq))
    · exact .inr (.inr (State.testSlip_full hx h (Nat.not_lt.mp hq)))
  · exact .inl (State.testSlip_off hx (Bool.not_eq_true _ |>.mp h))

section

variable (s : State) (n : Nat) (is : List Item) (e : Nat)

theorem State.createJob_one : s.createJob .slip 1 is [n] [] e = (s.modLabel n Site.takePin).modPrint fun p =>
    { p with
      jobs := joinQueue s.print.jobs (Job.fresh s.print.nextJob .slip 1 is [n] [] e s.clock)
      nextJob := freeNumber 16 (joinQueue s.print.jobs (Job.fresh s.print.nextJob .slip 1 is [n] [] e s.clock))
        (nextFrom1 s.print.nextJob) } := rfl

theorem State.createJob_one_store : (s.createJob .slip 1 is [n] [] e).store = s.store :=
  State.modLabel_store s n _

end

/-- The blocks that measure, but for the Print Engine. -/
def SameButPrint (s t : State) : Prop := Aside { s with print := t.print } t

theorem SameButPrint.trans {s t u : State} (a : SameButPrint s t) (b : SameButPrint t u) : SameButPrint s u :=
  ⟨b.fe.trans a.fe, b.check.trans a.check, b.watch.trans a.watch, b.sag.trans a.sag, b.interval.trans a.interval, rfl⟩

theorem Aside.butPrint {s t : State} (h : Aside s t) : SameButPrint s t :=
  ⟨h.fe, h.check, h.watch, h.sag, h.interval, rfl⟩

section

variable {s : State} {r : EventRecord} {x : Site} (hx : s.siteOf r.site = some x)

theorem State.skipSlip_aside (s : State) (x : Site) (r : EventRecord) : Aside s (s.skipSlip x r) :=
  (State.modLabel_aside s r.site _).trans (State.putAnchored_aside _ _ _ _)

include hx

theorem State.testSlip_butPrint : SameButPrint s (s.testSlip r) := by
  rcases State.testSlip_cases hx with h | h | h
  · rw [h]
    exact (Aside.refl s).butPrint
  · rw [h]
    exact (State.modLabel_aside s r.site Site.takePin).butPrint.trans (Aside.refl _)
  · rw [h]
    exact (State.skipSlip_aside s x r).butPrint

theorem State.testSlip_events : (s.testSlip r).store.queues.events = s.store.queues.events := by
  rcases State.testSlip_cases hx with h | h | h
  · rw [h]
  · rw [h, State.createJob_one_store]
  · rw [h]
    refine (State.enter_streams _ _ (st := .events) (by decide)).1.trans ?_
    rw [State.modLabel_store]
    rfl

/-- The Slip rule leaves the count of events and the Sag Monitor's part of a site record alone. -/
theorem State.testSlip_by : SameBy (fun y => (y.counters.events, y.sag)) s (s.testSlip r) := by
  rcases State.testSlip_cases hx with h | h | h
  · rw [h]
    exact SameBy.refl s
  · rw [h, State.createJob_one]
    exact (State.modLabel_by s r.site (f := Site.takePin) fun _ => rfl).trans (SameBy.of rfl)
  · rw [h]
    exact (State.modLabel_by s r.site (f := Site.countSlip) fun _ => rfl).trans
      (State.enter_by ⟨fun _ _ => rfl, fun _ => rfl, fun _ => rfl⟩ _ _)

end

/-! ## The hand-on of a record (R75) -/

/-- The state in which an event record has left its list and has joined its queue (step 1 of R75). -/
def State.eventAdmitted (s : State) (r : EventRecord) : State :=
  ((s.modLabel r.site Site.popAdmission).addRecords .events [.event r]).modLabel r.site (·.admitEvent r)

section

variable {s : State} {r : EventRecord}

theorem State.handOn_fits (hf : s.store.fits (Record.event r).length = true) :
    s.handOn r = (s.eventAdmitted r).testSlip r := by
  have hadmit := State.admitRecord_fits (s := s.modLabel r.site Site.popAdmission) (st := .events) (r := .event r)
    (by rw [State.modLabel_store]; exact hf)
  unfold State.handOn
  rw [hadmit]
  rfl

theorem State.handOn_lost (hf : s.store.fits (Record.event r).length = false)
    (h : oldestEligible s.store.queues.captures = none) : s.handOn r =
      ((s.modLabel r.site Site.popAdmission).countLost .events 1).modLabel r.site (·.countLostRecord .events) := by
  have hadmit := State.admitRecord_lost (s := s.modLabel r.site Site.popAdmission) (st := .events) (r := .event r)
    (by rw [State.modLabel_store]; exact hf) (by rw [State.modLabel_store]; exact h)
  unfold State.handOn
  rw [hadmit]
  rfl

variable {x : Site} (hx : s.siteOf r.site = some x)
include hx

theorem State.popAdmission_site : (s.modLabel r.site Site.popAdmission).siteOf r.site = some x.popAdmission := by
  rw [State.siteOf_modLabel, if_pos rfl, hx]
  · rfl
  · exact fun _ => rfl

theorem State.eventAdmitted_site : (s.eventAdmitted r).siteOf r.site = some (x.popAdmission.admitEvent r) := by
  unfold State.eventAdmitted
  rw [State.siteOf_modLabel, if_pos rfl, State.siteOf_addRecords, State.popAdmission_site hx]
  · rfl
  · exact fun _ => rfl

omit hx in
theorem State.handOn_butPrint : SameButPrint s (s.handOn r) := by
  have hpop := State.modLabel_aside s r.site Site.popAdmission
  have hadmit := hpop.trans (State.admitRecord_aside (s.modLabel r.site Site.popAdmission) .events (.event r))
  unfold State.handOn
  dsimp only
  split
  · let b := ((s.modLabel r.site Site.popAdmission).admitRecord .events (.event r)).1.modLabel r.site (·.admitEvent r)
    have hb : SameButPrint s b := (hadmit.trans (State.modLabel_aside _ _ _)).butPrint
    cases hy : b.siteOf r.site with
    | none =>
      have hnone : b.testSlip r = b := by
        unfold State.testSlip
        rw [hy]
      rw [show State.testSlip _ r = b from hnone]
      exact hb
    | some y => exact hb.trans (State.testSlip_butPrint hy)
  · exact hadmit.butPrint

end

theorem State.eventAdmitted_store (s : State) (r : EventRecord) : (s.eventAdmitted r).store = { s.store with
    queues := { s.store.queues with
      events := s.store.queues.events ++ [⟨.event r, (Record.event r).length, r.site, s.clock, false, false⟩] } } := by
  have hclock := (State.modLabel_quiet s r.site (f := Site.popAdmission) fun _ => rfl).steady.time.2.2
  unfold State.eventAdmitted
  rw [State.modLabel_store, State.addRecords_store, State.modLabel_store]
  exact congrArg (fun c : Time => ({ s.store with queues := { s.store.queues with
    events := s.store.queues.events ++ [⟨.event r, (Record.event r).length, r.site, c, false, false⟩] } } : RecordStore))
    hclock

theorem State.eventAdmitted_print (s : State) (r : EventRecord) : (s.eventAdmitted r).print = s.print :=
  (((State.modLabel_aside s r.site _).trans (State.addRecords_aside _ _ _)).trans (State.modLabel_aside _ _ _)).print

section

variable {s : State} {label : Nat} {r : EventRecord}

theorem exec_eventRecordHandedOn (h : s.readyRecord label = some r) :
    exec (.eventRecordHandedOn label) s = .next (s.handOn r) := by
  change execEventRecordHandedOn label s = _
  unfold execEventRecordHandedOn
  rw [h]

theorem exec_eventRecordHandedOn_waits (h : s.readyRecord label = none) :
    exec (.eventRecordHandedOn label) s = .next s := by
  change execEventRecordHandedOn label s = _
  unfold execEventRecordHandedOn
  rw [h]

theorem CaptureOutcome.final_iff (o : CaptureOutcome) : o.final = true ↔ o ≠ .collecting := decide_eq_true_iff

variable {x : Site} {rs : List EventRecord} (hx : s.siteOf label = some x) (ha : x.sag.admission = r :: rs)
include hx ha

theorem State.readyRecord_final (ho : r.onset ≠ .collecting) (hr : r.recovery ≠ .collecting) :
    s.readyRecord label = some r := by
  refine State.readyRecord_eq_some.mpr ⟨x, hx, by rw [ha]; rfl, ?_⟩
  rw [Bool.and_eq_true, CaptureOutcome.final_iff, CaptureOutcome.final_iff]
  exact ⟨ho, hr⟩

theorem State.readyRecord_collecting (h : r.onset = .collecting ∨ r.recovery = .collecting) :
    s.readyRecord label = none := by
  cases hr : s.readyRecord label with
  | none => rfl
  | some q =>
    obtain ⟨y, hy, hq, hf⟩ := State.readyRecord_eq_some.mp hr
    cases hx.symm.trans hy
    rw [ha] at hq
    cases hq
    rw [Bool.and_eq_true, CaptureOutcome.final_iff, CaptureOutcome.final_iff] at hf
    exact h.elim (fun h => absurd h hf.1) fun h => absurd h hf.2

end

end Sys2Proof.Machine

/-! # Captures complete and events are handed on (R75, R77, R78, R81 to R83, R118, R119, R121) -/

namespace Sys2Proof.Machine

/-! ## A complete capture -/

section

variable {s : State} {t : Tracker} {x : Site} (hx : s.siteOf t.site = some x) {n : Nat}
  (hn : n = t.kind.span.1 + 1 + t.kind.span.2)
include hx hn

/-- A span that the store admits (R78). -/
theorem State.offerCapture_fits
    (h : s.store.nonJournalOccupancy + 2080 * n ≤ 491520 ∧ s.store.total + 2080 * n + 65536 ≤ 524288) :
    (s.offerCapture t.site (s.spanPieces t)).2 = .admitted x.sag.nextCapture
    ∧ (s.offerCapture t.site (s.spanPieces t)).1.siteOf t.site = some x.takeCapture
    ∧ (s.offerCapture t.site (s.spanPieces t)).1.store = { s.store with queues := { s.store.queues with
        captures := s.store.queues.captures ++ (s.spanPieces t x.sag.nextCapture).map
          fun p => ⟨.piece p, 2080, t.site, s.clock, false, false⟩ } } := by
  rw [(State.offerCapture_span hx hn).1 ((RecordStore.admitsCapture_iff _ _).mpr h)]
  refine ⟨rfl, ?_, ?_⟩
  · rw [State.siteOf_addRecords, State.siteOf_modLabel, if_pos rfl, hx]
    · rfl
    · exact fun _ => rfl
  · have hclock : (s.modLabel t.site Site.takeCapture).clock = s.clock :=
      (State.modLabel_quiet s t.site (f := Site.takeCapture) fun _ => rfl).steady.time.2.2
    rw [State.addRecords_store, State.modLabel_store, State.spanPieces_queued s _ hclock]
    rfl

/-- A span that the store refuses is counted lost (R78, R118). -/
theorem State.offerCapture_lost
    (h : 491520 < s.store.nonJournalOccupancy + 2080 * n ∨ 524288 < s.store.total + 2080 * n + 65536) :
    (s.offerCapture t.site (s.spanPieces t)).2 = .refused
    ∧ (s.offerCapture t.site (s.spanPieces t)).1.siteOf t.site = some (x.countLostRecord .captures)
    ∧ (s.offerCapture t.site (s.spanPieces t)).1.store = { s.store with
        lostTotal := { s.store.lostTotal with captures := min (s.store.lostTotal.captures + n) 4294967295 }
        lostSincePage := { s.store.lostSincePage with
          captures := min (s.store.lostSincePage.captures + n) 4294967295 } } := by
  rw [(State.offerCapture_span hx hn).2 (by
    rw [← Bool.not_eq_true, RecordStore.admitsCapture_iff, not_and_or, Nat.not_le, Nat.not_le]
    exact h)]
  refine ⟨rfl, ?_, ?_⟩
  · rw [State.siteOf_modLabel, if_pos rfl]
    · exact congrArg (Option.map _) hx
    · exact Site.countLostRecord_keeps .captures |> fun h y => congrArg SiteCore.label (h y)
  · rw [State.modLabel_store]
    rfl

/-- What an offered capture leaves of its site and of the journal, admitted or refused. -/
theorem State.offerCapture_either : ∃ y, (s.offerCapture t.site (s.spanPieces t)).1.siteOf t.site = some y
    ∧ y.sag.admission = x.sag.admission
    ∧ (s.offerCapture t.site (s.spanPieces t)).1.store.queues.journal = s.store.queues.journal
    ∧ (s.offerCapture t.site (s.spanPieces t)).2 =
      (if s.store.nonJournalOccupancy + 2080 * n ≤ 491520 ∧ s.store.total + 2080 * n + 65536 ≤ 524288
        then .admitted x.sag.nextCapture else .refused) := by
  by_cases h : s.store.nonJournalOccupancy + 2080 * n ≤ 491520 ∧ s.store.total + 2080 * n + 65536 ≤ 524288
  · obtain ⟨ho, hsite, hstore⟩ := State.offerCapture_fits hx hn h
    exact ⟨_, hsite, rfl, by rw [hstore], by rw [ho, if_pos h]⟩
  · obtain ⟨ho, hsite, hstore⟩ := State.offerCapture_lost hx hn (by
      rwa [not_and_or, Nat.not_le, Nat.not_le] at h)
    exact ⟨_, hsite, rfl, by rw [hstore], by rw [ho, if_neg h]⟩

end

section

variable {v : State} {f : Fin 4} {t : Tracker} {x : Site} (hv : v.siteOf t.site = some x) (o : CaptureOutcome)
include hv

/-- The site at the end of a capture keeps the capture number and the count of lost captures. -/
theorem State.finishCapture_site : ∃ y, (v.finishCapture f t o).siteOf t.site = some y
    ∧ y.sag.nextCapture = x.sag.nextCapture ∧ y.counters.lostCaptures = x.counters.lostCaptures := by
  have hby := (v.finishCapture_by f t o).siteOf (State.finishCapture_quiet v f t o).sites t.site
  rw [hv] at hby
  obtain ⟨y, hy, hyc⟩ := Option.map_eq_some_iff.mp hby
  exact ⟨y, hy, congrArg Prod.fst hyc, congrArg Prod.snd hyc⟩

/-- The end of a capture with its outcome, by the kind of the capture (R78). -/
theorem State.finishCapture_outcome : ∃ y, (v.finishCapture f t o).siteOf t.site = some y
      ∧ (t.kind = .onset → (v.finishCapture f t o).sag.openEvent =
          v.sag.openEvent.map (fun e => if e.number = t.event then { e with onset := o } else e)
        ∧ y.sag.admission = x.sag.admission.map fun r => if r.number = t.event then { r with onset := o } else r)
      ∧ (t.kind = .recovery → (v.finishCapture f t o).sag.openEvent = v.sag.openEvent
        ∧ y.sag.admission = x.sag.admission.map fun r => if r.number = t.event then { r with recovery := o } else r) := by
  cases hk : t.kind with
  | onset =>
    rw [State.finishCapture_event v f t o (by rw [hk]; decide), hk]
    refine ⟨_, State.setOutcome_site t.event .onset o hv, fun _ => ⟨?_, rfl⟩, fun h => (nomatch h)⟩
    rw [State.setOutcome_event]
    exact congrArg (fun g => v.sag.openEvent.map g) (funext fun e => if_congr (and_iff_right rfl) rfl rfl)
  | recovery =>
    rw [State.finishCapture_event v f t o (by rw [hk]; decide), hk]
    refine ⟨_, State.setOutcome_site t.event .recovery o hv, fun h => (nomatch h), fun _ => ⟨?_, rfl⟩⟩
    rw [State.setOutcome_event, show (fun e : OpenEvent => e.outcome .recovery t.event o) = id from
      funext fun e => e.outcome_recovery t.event o, Option.map_id_fun]
    rfl
  | snapshot =>
    obtain ⟨y, hy, -⟩ := State.finishCapture_site (f := f) hv o
    exact ⟨y, hy, fun h => (nomatch h), fun h => (nomatch h)⟩

end

theorem snapshotOutcome_offered {o : CaptureOutcome} {n : Nat} (h : o = .admitted n ∨ o = .refused) :
    snapshotOutcome o = if o = .refused then .refused else .admitted n := by
  rcases h with rfl | rfl <;> rfl

/-! ## A record that is handed on -/

section

variable {s : State} {r : EventRecord} {x y : Site} (hx : s.siteOf r.site = some x)
  (hy : (s.handOn r).siteOf r.site = some y)

include hx hy

/-- A record that is lost is counted, and enters nothing (R119, R121). -/
theorem State.handOn_loses (hc : oldestEligible s.store.queues.captures = none)
    (hf : s.store.fits (Record.event r).length = false) : (s.handOn r).store = { s.store with
        lostTotal := { s.store.lostTotal with events := min (s.store.lostTotal.events + 1) 4294967295 }
        lostSincePage := { s.store.lostSincePage with events := min (s.store.lostSincePage.events + 1) 4294967295 } }
      ∧ y.counters = { x.counters with lostEvents := min (x.counters.lostEvents + 1) 4294967295 }
      ∧ y.sag.worst = x.sag.worst ∧ (s.handOn r).print = s.print := by
  rw [State.handOn_lost hf hc] at hy ⊢
  have hsite : (((s.modLabel r.site Site.popAdmission).countLost .events 1).modLabel r.site
      (·.countLostRecord .events)).siteOf r.site = some (x.popAdmission.countLostRecord .events) := by
    rw [State.siteOf_modLabel, if_pos rfl]
    · exact congrArg (Option.map _) (State.popAdmission_site hx)
    · exact fun _ => rfl
  cases hy.symm.trans hsite
  refine ⟨?_, rfl, rfl, ?_⟩
  · rw [State.modLabel_store]
    unfold State.countLost
    rw [State.modLabel_store]
    rfl
  · exact (((State.modLabel_aside s r.site _).trans (State.countLost_aside _ _ _)).trans
      (State.modLabel_aside _ _ _)).print

variable (hf : s.store.fits (Record.event r).length = true)
include hf

/-- A record that fits is admitted and counted, and enters the worst-event list (R75, R82). -/
theorem State.handOn_admits : (s.handOn r).store.queues.events = s.store.queues.events
        ++ [⟨.event r, (Record.event r).length, r.site, s.clock, false, false⟩]
      ∧ y.counters.events = min (x.counters.events + 1) 4294967295
      ∧ y.sag.worst = enterWorst x.sag.worst r.worst := by
  have hb := State.eventAdmitted_site hx
  rw [State.handOn_fits hf] at hy ⊢
  have hby := (State.testSlip_by hb).siteOf (State.testSlip_quiet _ r).sites r.site
  rw [hb, hy] at hby
  have hparts := Option.some.inj hby
  refine ⟨?_, congrArg Prod.fst hparts, congrArg (fun p => p.2.worst) hparts⟩
  rw [State.testSlip_events hb, State.eventAdmitted_store]

omit hy in
theorem State.handOn_noSlip (h : x.options.slipRule = .off) : (s.handOn r).print = s.print := by
  rw [State.handOn_fits hf, State.testSlip_off (State.eventAdmitted_site hx) (callsSlip_off h r),
    State.eventAdmitted_print]

variable (h : callsSlip x.options r = true)
include h

/-- A slip joins the print queue (R83, R138). -/
theorem State.handOn_slip (hq : s.print.jobs.length < 8) : ∃ j, (s.handOn r).print.jobs = joinQueue s.print.jobs j
    ∧ j.owner = .slip ∧ j.event = r.number ∧ y.pins = x.pins + 1 := by
  have hb := State.eventAdmitted_site hx
  have hprint := State.eventAdmitted_print s r
  rw [State.handOn_fits hf, State.testSlip_room hb h (by rw [hprint]; exact hq)] at hy ⊢
  have hsite : (((s.eventAdmitted r).modLabel r.site Site.takePin)).siteOf r.site =
      some (x.popAdmission.admitEvent r).takePin := by
    rw [State.siteOf_modLabel, if_pos rfl, hb]
    · rfl
    · exact fun _ => rfl
  cases hy.symm.trans ((State.siteOf_congr rfl r.site).trans hsite)
  refine ⟨Job.fresh s.print.nextJob .slip 1 [.siteHeader r.site true, .eventLine r] [r.site] [] r.number
    (s.eventAdmitted r).clock, ?_, rfl, rfl, rfl⟩
  rw [State.createJob_one, hprint]
  rfl

/-- A slip that meets a full queue is counted, and its entry is put (R83). -/
theorem State.handOn_skipsSlip (hq : 8 ≤ s.print.jobs.length) : (s.handOn r).print = s.print
    ∧ y.counters.slipsSkipped = min (x.counters.slipsSkipped + 1) 4294967295
    ∧ ∃ (v : State) (z : Site), s.handOn r = v.putAnchored r.site (.ownEvent r.number) (.slipSkipped r.number
        (min (x.counters.slipsSkipped + 1) 4294967295))
      ∧ v.siteOf r.site = some z ∧ z.counters = { x.counters with
        events := min (x.counters.events + 1) 4294967295
        slipsSkipped := min (x.counters.slipsSkipped + 1) 4294967295 }
      ∧ v.store.queues = { s.store.queues with events := (s.handOn r).store.queues.events } := by
  have hb := State.eventAdmitted_site hx
  have hprint := State.eventAdmitted_print s r
  obtain ⟨hevents, -, -⟩ := State.handOn_admits hx hy hf
  have heq : s.handOn r = (s.eventAdmitted r).skipSlip (x.popAdmission.admitEvent r) r := by
    rw [State.handOn_fits hf, State.testSlip_full hb h (by rw [hprint]; exact hq)]
  let v := (s.eventAdmitted r).modLabel r.site Site.countSlip
  have hsite : v.siteOf r.site = some (x.popAdmission.admitEvent r).countSlip := by
    refine (State.siteOf_modLabel _ r.site r.site (f := Site.countSlip) fun _ => rfl).trans ((if_pos rfl).trans ?_)
    rw [hb]
    rfl
  refine ⟨?_, ?_, v, _, heq, hsite, rfl, ?_⟩
  · rw [heq, (State.skipSlip_aside _ _ _).print, hprint]
  · rw [heq] at hy
    have hby := (State.putAnchored_by (g := fun z => z.counters.slipsSkipped)
      ⟨fun _ _ => rfl, fun _ => rfl, fun _ => rfl⟩ v r.site (.ownEvent r.number)
      (.slipSkipped r.number (satAdd x.counters.slipsSkipped 1))).siteOf (State.putAnchored_quiet v _ _ _).sites r.site
    rw [hsite] at hby
    exact Option.some.inj ((congrArg (Option.map _) hy).symm.trans hby)
  · rw [hevents, show v.store = _ from State.modLabel_store _ _ _, State.eventAdmitted_store]

end

/-- Settles O60: a complete capture, the order of the trackers, a record that is handed on, and the lists. -/
theorem capturesCompleteAndEventsAreHandedOn : Obligations.CapturesCompleteAndEventsAreHandedOn := by
  unfold Obligations.CapturesCompleteAndEventsAreHandedOn
  refine ⟨fun s f t hf => ?complete, fun s hn => ?none, fun s => ⟨(firstComplete_iff s.sag).1,
      fun f t h => ((firstComplete_iff s.sag).2 f t h).2.2⟩,
    fun s label x r rs hx hlabel hxl ha hr => ⟨fun hc => ?waits, fun ho hrec => ?handedOn⟩,
    callsSlip_iff, fun l e hl => ⟨enterWorst_refuses hl, fun w hw hlt => ?worst⟩⟩
  case complete =>
    let o := s.offerCapture t.site (s.spanPieces t)
    let v := o.1.freeTracker f
    let u := v.finishCapture f t o.2
    obtain ⟨hat, hzero, -⟩ := (firstComplete_iff s.sag).2 f t hf
    have hoffer := State.offerCapture_aside s t.site (s.spanPieces t)
    have hv : Quiet s v := (State.offerCapture_quiet s t.site (s.spanPieces t)).before rfl rfl rfl rfl rfl
    have hquiet : Quiet s u := hv.trans (State.finishCapture_quiet v f t o.2)
    have hframe : CaptureFrame v u := v.finishCapture_frame f t o.2
    have hsag : v.sag = { s.sag with trackers := s.sag.trackers.set f none } :=
      congrArg (fun g : SagMonitor => { g with trackers := g.trackers.set f none }) hoffer.sag
    obtain ⟨hcaptures, htotal, hpage⟩ := v.finishCapture_streams f t o.2
    refine ⟨u, exec_captureComplete hf, ?_, fun j hj => ?_, hat, hzero, hquiet.sites, hquiet.steady.link,
      hquiet.steady.time, hframe.fe.trans hoffer.fe, hframe.detectors.trans (congrArg SagMonitor.detectors hsag :),
      hframe.interval.trans hoffer.interval, hframe.print.trans hoffer.print, hframe.watch.trans hoffer.watch,
      hframe.check.trans hoffer.check, fun x n hx hn => ⟨fun h1 h2 => ?_, fun h => ?_, ?_⟩⟩
    · rw [hframe.trackers]
      exact State.freeTracker_at o.1 f
    · rw [hframe.trackers]
      exact (State.freeTracker_other o.1 hj).trans (congrArg (fun g : SagMonitor => g.trackers[j]) hoffer.sag)
    · obtain ⟨-, hsite, hstore⟩ := State.offerCapture_fits hx hn ⟨h1, h2⟩
      obtain ⟨y, hy, hnext, -⟩ := State.finishCapture_site (v := v) (f := f) hsite o.2
      exact ⟨hcaptures.trans (congrArg (fun r : RecordStore => r.queues.captures) hstore :), y, hy, hnext⟩
    · obtain ⟨-, hsite, hstore⟩ := State.offerCapture_lost hx hn h
      obtain ⟨y, hy, hnext, hlost⟩ := State.finishCapture_site (v := v) (f := f) hsite o.2
      exact ⟨hcaptures.trans (congrArg (fun r : RecordStore => r.queues.captures) hstore :), y, hy, hnext, hlost,
        htotal.trans (congrArg (fun r : RecordStore => r.lostTotal.captures) hstore :),
        hpage.trans (congrArg (fun r : RecordStore => r.lostSincePage.captures) hstore :)⟩
    · obtain ⟨x', hsite, hadmission, hjournal, ho⟩ := State.offerCapture_either hx hn
      obtain ⟨y, hy, honset, hrecovery⟩ := State.finishCapture_outcome (v := v) (f := f) hsite o.2
      have hopen : v.sag.openEvent = s.sag.openEvent := (congrArg SagMonitor.openEvent hsag :)
      rw [hadmission, hopen] at honset hrecovery
      refine ⟨o.2, y, hy, ho, honset, hrecovery, fun hk => ⟨v, ?_, hsag, hjournal, State.offerCapture_device _ _ _,
        hv.steady.time.2.2⟩⟩
      have hout := snapshotOutcome_offered (o := o.2) (n := x.sag.nextCapture) (by rw [ho]; exact ite_eq_or_eq _ _ _)
      rw [← hout]
      exact State.finishCapture_snapshot v f t o.2 hk
  case none =>
    refine exec_captureComplete_none ?_
    cases hf : s.sag.firstComplete with
    | none => rfl
    | some p =>
      obtain ⟨hat, hzero, -⟩ := (firstComplete_iff s.sag).2 p.1 p.2 hf
      exact absurd hzero (hn p.1 p.2 hat)
  case waits => exact exec_eventRecordHandedOn_waits (State.readyRecord_collecting hx ha hc)
  case handedOn =>
    subst hr
    have hquiet := State.handOn_quiet s r
    have hframe := State.handOn_butPrint (s := s) (r := r)
    have hadmission : (s.handOn r).admissionOf r.site = some rs := by
      rw [State.admissionOf_handOn]
      unfold State.admissionOf
      rw [hx, Option.map_some, ha]
      rfl
    obtain ⟨y, hy, hyrs⟩ := Option.map_eq_some_iff.mp hadmission
    refine ⟨s.handOn r, y, exec_eventRecordHandedOn (State.readyRecord_final hx ha ho hrec), hy, hyrs, hquiet.sites,
      hquiet.steady.link, hquiet.steady.time, hframe.fe, hframe.sag, hframe.watch, hframe.check, hframe.interval,
      fun hc h => State.handOn_loses hx hy hc (RecordStore.fits_eq_false h), fun h1 h2 => ?_⟩
    have hf := (RecordStore.fits_iff _ _).mpr ⟨h1, h2⟩
    obtain ⟨hevents, hcount, hworst⟩ := State.handOn_admits hx hy hf
    exact ⟨hevents, hcount, fun hroom => hworst.trans (enterWorst_room _ hroom), State.handOn_noSlip hx hf,
      State.handOn_slip hx hy hf, State.handOn_skipsSlip hx hy hf⟩
  case worst =>
    obtain ⟨v, hv, heq⟩ := enterWorst_takes hl hw hlt
    obtain ⟨v', hv', hmem, hres, hnum⟩ := highest_of_full hl
    cases hv.symm.trans hv'
    rw [heq]
    exact ⟨mem_filter_ne_append.mpr (.inl rfl), fun hnd => length_filter_ne_append hnd hmem, v, hmem, hres, hnum,
      fun u => mem_filter_ne_append⟩

end Sys2Proof.Machine

/-! # Close Site (R15, R50, R75, R79, R95, R96) -/

namespace Sys2Proof.Machine

/-! ## What the first steps of a close leave alone -/

/-- What the trackers freed, the event closed and the records handed on leave alone (steps 1 and 2 of R15). -/
structure CloseFrame (s t : State) : Prop where
  quiet : Quiet s t
  by_ : SameBy (fun x => (x.map, x.nextInterval)) s t
  check : t.check = s.check
  interval : t.interval = s.interval

theorem CloseFrame.refl (s : State) : CloseFrame s s := ⟨Quiet.refl s, SameBy.refl s, rfl, rfl⟩

theorem CloseFrame.trans {s t u : State} (a : CloseFrame s t) (b : CloseFrame t u) : CloseFrame s u :=
  ⟨a.quiet.trans b.quiet, a.by_.trans b.by_, b.check.trans a.check, b.interval.trans a.interval⟩

/-- The record of a slot after such steps. -/
theorem CloseFrame.site {s t : State} (h : CloseFrame s t) {k : Fin 8} {x : Site} (hx : s.site k = some x) :
    ∃ z, t.site k = some z ∧ z.core = x.core ∧ z.map = x.map ∧ z.nextInterval = x.nextInterval := by
  have hcore := h.quiet.sites k
  have hby := h.by_ k
  rw [hx] at hcore hby
  obtain ⟨z, hz, hzc⟩ := Option.map_eq_some_iff.mp hcore
  rw [hz] at hby
  have hparts := Option.some.inj hby
  exact ⟨z, hz, hzc, congrArg Prod.fst hparts, congrArg Prod.snd hparts⟩

section

variable (s : State) (label : Nat) (k : Fin 4) (t : Tracker) (o : CaptureOutcome)

theorem State.finishCapture_closeFrame : CloseFrame s (s.finishCapture k t o) := by
  have hframe := s.finishCapture_frame k t o
  refine ⟨s.finishCapture_quiet k t o, ?_, hframe.check, hframe.interval⟩
  by_cases h : t.kind = .snapshot
  · rw [State.finishCapture_snapshot s k t o h]
    exact State.enter_by ⟨fun _ _ => rfl, fun _ => rfl, fun _ => rfl⟩ s _
  · rw [State.finishCapture_event s k t o h, State.setOutcome_eq]
    exact SameBy.trans (SameBy.of (t := s.setEvent _) rfl) (State.modLabel_by _ _ fun _ => rfl)

/-- The end of a capture writes an outcome into the open event, or nothing (R79). -/
theorem State.finishCapture_openEvent : ∃ g : OpenEvent → OpenEvent, (∀ e, { g e with onset := e.onset } = e)
    ∧ (s.finishCapture k t o).sag.openEvent = s.sag.openEvent.map g := by
  by_cases h : t.kind = .snapshot
  · refine ⟨id, fun _ => rfl, ?_⟩
    rw [State.finishCapture_snapshot s k t o h, (State.put_aside _ _ _).sag, Option.map_id]
    rfl
  · refine ⟨(·.outcome t.kind t.event o), fun e => ?_, ?_⟩
    · unfold OpenEvent.outcome
      dsimp only
      split <;> rfl
    · rw [State.finishCapture_event s k t o h]
      exact State.setOutcome_event _ _ _ _ _

/-- A tracker of the site is freed, and any other stays (R79). -/
theorem State.abandonTracker_eq : s.abandonTracker label k = s ∧ s.sag.trackers[k].filter (fun r => r.site != label)
      = s.sag.trackers[k]
    ∨ ∃ r, s.abandonTracker label k = (s.freeTracker k).finishCapture k r .abandoned
      ∧ s.sag.trackers[k].filter (fun r => r.site != label) = none := by
  unfold State.abandonTracker
  cases hr : s.sag.trackers[k] with
  | none => exact .inl ⟨rfl, rfl⟩
  | some r =>
    dsimp only
    by_cases h : r.site = label
    · rw [if_pos h]
      exact .inr ⟨r, rfl, Option.filter_eq_none_iff.mpr fun q hq => by
        cases hq
        simp [h]⟩
    · rw [if_neg h]
      exact .inl ⟨rfl, Option.filter_eq_some_iff.mpr ⟨rfl, bne_iff_ne.mpr h⟩⟩

theorem State.abandonTracker_closeFrame : CloseFrame s (s.abandonTracker label k) := by
  rcases s.abandonTracker_eq label k with ⟨h, -⟩ | ⟨r, h, -⟩
  · rw [h]
    exact CloseFrame.refl s
  · rw [h]
    exact CloseFrame.trans (t := s.freeTracker k) ⟨Quiet.of rfl rfl rfl rfl rfl, SameBy.of rfl, rfl, rfl⟩
      (State.finishCapture_closeFrame _ k r _)

theorem State.abandonTracker_openEvent : ∃ g : OpenEvent → OpenEvent, (∀ e, { g e with onset := e.onset } = e)
    ∧ (s.abandonTracker label k).sag.openEvent = s.sag.openEvent.map g := by
  rcases s.abandonTracker_eq label k with ⟨h, -⟩ | ⟨r, h, -⟩
  · rw [h]
    exact ⟨id, fun _ => rfl, (congrFun Option.map_id_fun _).symm⟩
  · rw [h]
    exact State.finishCapture_openEvent (s.freeTracker k) k r .abandoned

theorem State.abandonTracker_trackers (j : Fin 4) : (s.abandonTracker label k).sag.trackers[j] =
    if j = k then s.sag.trackers[j].filter (fun r => r.site != label) else s.sag.trackers[j] := by
  rcases s.abandonTracker_eq label k with ⟨h, hf⟩ | ⟨r, h, hf⟩
  · rw [h]
    split
    next hj => rw [hj, hf]
    next => rfl
  · rw [h, (State.finishCapture_frame _ k r .abandoned).trackers]
    split
    next hj =>
      subst hj
      rw [State.freeTracker_at, hf]
    next hj => exact State.freeTracker_other s hj

end

section

variable (s : State) (label : Nat)

theorem State.abandonTrackers_eq : s.abandonTrackers label =
    (((s.abandonTracker label 0).abandonTracker label 1).abandonTracker label 2).abandonTracker label 3 := rfl

theorem State.abandonTrackers_closeFrame : CloseFrame s (s.abandonTrackers label) := by
  rw [State.abandonTrackers_eq]
  exact (((s.abandonTracker_closeFrame label 0).trans (State.abandonTracker_closeFrame _ label 1)).trans
    (State.abandonTracker_closeFrame _ label 2)).trans (State.abandonTracker_closeFrame _ label 3)

/-- Every tracker of the site is free, and the others are as they were (R79). -/
theorem State.abandonTrackers_trackers (f : Fin 4) : (s.abandonTrackers label).sag.trackers[f] =
    s.sag.trackers[f].filter (fun r => r.site != label) := by
  rw [State.abandonTrackers_eq, State.abandonTracker_trackers, State.abandonTracker_trackers,
    State.abandonTracker_trackers, State.abandonTracker_trackers]
  fin_cases f <;> rfl

theorem State.abandonTrackers_openEvent : ∃ g : OpenEvent → OpenEvent, (∀ e, { g e with onset := e.onset } = e)
    ∧ (s.abandonTrackers label).sag.openEvent = s.sag.openEvent.map g := by
  have hstep {t u : State} {n : Fin 4} (ht : ∃ g : OpenEvent → OpenEvent, (∀ e, { g e with onset := e.onset } = e)
      ∧ t.sag.openEvent = s.sag.openEvent.map g) (hu : u = t.abandonTracker label n) :
      ∃ g : OpenEvent → OpenEvent, (∀ e, { g e with onset := e.onset } = e)
        ∧ u.sag.openEvent = s.sag.openEvent.map g := by
    obtain ⟨g, hg, hgt⟩ := ht
    obtain ⟨g', hg', hgu⟩ := t.abandonTracker_openEvent label n
    refine ⟨fun e => g' (g e), fun e => ?_, ?_⟩
    · have hcomp := congrArg (fun q : OpenEvent => { q with onset := e.onset }) (hg' (g e))
      exact hcomp.trans (hg e)
    · rw [hu, hgu, hgt, Option.map_map]
      rfl
  exact hstep (hstep (hstep (hstep ⟨id, fun _ => rfl, (congrFun Option.map_id_fun _).symm⟩ rfl) rfl) rfl) rfl

end

/-! ## The event, and the records handed on -/

theorem State.closeEvent_closeFrame (s : State) (k : Fin 8) (cause : EndCause) (fin : Stamp) (n : Nat)
    (o : CaptureOutcome) : CloseFrame s (s.closeEvent k cause fin n o) := by
  have hwork := State.closeEvent_work s k cause fin n o
  refine ⟨State.closeEvent_quiet s k cause fin n o, ?_, hwork.check, hwork.interval⟩
  unfold State.closeEvent
  split
  next e x _ _ =>
    exact (State.modSite_by (g := fun x => (x.map, x.nextInterval)) (s.setEvent none) k
      (f := (·.closeEvent (e.toRecord x.label cause fin n o) fin.time)) fun _ => rfl).trans fun _ => rfl
  next => exact SameBy.refl s

theorem State.closeEvent_trackers (s : State) (k : Fin 8) (cause : EndCause) (fin : Stamp) (n : Nat)
    (o : CaptureOutcome) : (s.closeEvent k cause fin n o).sag.trackers = s.sag.trackers := by
  unfold State.closeEvent
  split
  next e x _ _ =>
    exact (congrArg SagMonitor.trackers (State.modSite_aside (s.setEvent none) k
      (·.closeEvent (e.toRecord x.label cause fin n o) fin.time)).sag :)
  next => rfl

section

variable (s : State) (k : Fin 8) (cause : EndCause)

theorem State.closeEventByOrder_none {s : State} (he : s.sag.openEvent = none) : s.closeEventByOrder k cause = s := by
  unfold State.closeEventByOrder
  rw [he]

theorem State.closeEventByOrder_some {s : State} {e : OpenEvent} (he : s.sag.openEvent = some e) :
    s.closeEventByOrder k cause = s.closeEvent k cause s.now e.halves .notTaken := by
  unfold State.closeEventByOrder
  rw [he]

theorem State.closeEventByOrder_closeFrame : CloseFrame s (s.closeEventByOrder k cause)
    ∧ (s.closeEventByOrder k cause).sag.trackers = s.sag.trackers := by
  cases he : s.sag.openEvent with
  | none =>
    rw [State.closeEventByOrder_none k cause he]
    exact ⟨CloseFrame.refl s, rfl⟩
  | some e =>
    rw [State.closeEventByOrder_some k cause he]
    exact ⟨State.closeEvent_closeFrame _ _ _ _ _ _, State.closeEvent_trackers _ _ _ _ _ _⟩

theorem State.closeEventByOrder_closes {s : State} {k : Fin 8} {x : Site} (hx : s.site k = some x) :
    (s.closeEventByOrder k cause).sag.openEvent = none := by
  cases he : s.sag.openEvent with
  | none => rw [State.closeEventByOrder_none k cause he, he]
  | some e =>
    rw [State.closeEventByOrder_some k cause he, State.closeEvent_sag hx he]

end

theorem SameRecords.by_ {s t : State} (h : SameRecords s t) : SameBy (fun x => (x.map, x.nextInterval)) s t :=
  h.field (fun x => (x.map, x.nextInterval)) fun _ => rfl

theorem State.handOn_closeFrame (s : State) (r : EventRecord) : CloseFrame s (s.handOn r)
    ∧ (s.handOn r).sag = s.sag := by
  have hframe := State.handOn_butPrint (s := s) (r := r)
  refine ⟨⟨State.handOn_quiet s r, ?_, hframe.check, hframe.interval⟩, hframe.sag⟩
  have hadmit : SameBy (fun x => (x.map, x.nextInterval)) s
      ((s.modLabel r.site Site.popAdmission).admitRecord .events (.event r)).1 :=
    (State.modLabel_by s r.site (f := Site.popAdmission) fun _ => rfl).trans (State.admitRecord_records _ _ _).by_
  unfold State.handOn
  dsimp only
  split
  · exact (hadmit.trans (State.modLabel_by _ r.site (f := (·.admitEvent r)) fun _ => rfl)).trans
      (State.testSlip_records _ r).by_
  · exact hadmit

theorem State.handOnAll_closeFrame (n : Nat) (s : State) (label : Nat) : CloseFrame s (State.handOnAll n s label)
    ∧ (State.handOnAll n s label).sag = s.sag := by
  induction n generalizing s with
  | zero => exact ⟨CloseFrame.refl s, rfl⟩
  | succ n ih =>
    cases hr : s.readyRecord label with
    | none =>
      rw [State.handOnAll_none hr]
      exact ⟨CloseFrame.refl s, rfl⟩
    | some r =>
      rw [State.handOnAll_some hr]
      obtain ⟨hframe, hsag⟩ := ih (s.handOn r)
      obtain ⟨hone, hsagOne⟩ := s.handOn_closeFrame r
      exact ⟨hone.trans hframe, hsag.trans hsagOne⟩

/-- The hand-on leaves the Sag Monitor alone, and of the sites what a close reads. -/
theorem State.handOnWaiting_closeFrame (s : State) (label : Nat) : CloseFrame s (s.handOnWaiting label)
    ∧ (s.handOnWaiting label).sag = s.sag := State.handOnAll_closeFrame _ s label

/-! ## The check that a close ends (R50) -/

section

variable {s : State} {c : CheckRecord} {z : Site} (hz : s.site c.slot = some z)

/-- The site record of a check that Close Site ends. -/
def Site.aborted (z : Site) (c : CheckRecord) : Site :=
  z.endCheck c (z.returnState.getD .drafted) .closed (Conclusion.unreached z.map c (associations c false))

theorem Site.aborted_core (z : Site) (c : CheckRecord) : (z.aborted c).core = { z.core with
    checkStatus := .aborted, unusable := none, returnState := none } := rfl

/-- No entry of a check that Close Site ends is verified, and its presences are those of its return state. -/
theorem Site.aborted_map (z : Site) (c : CheckRecord) (i : Input) : ((z.aborted c).map.get i).verified = false
    ∧ ((z.aborted c).map.get i).role = (z.map.get i).role
    ∧ ((z.aborted c).map.get i).presence =
      if z.returnState = some .paused then (z.map.get i).presence else .unknown := by
  have hentry : (z.aborted c).map.get i = { z.map.get i with
      presence := presenceAfter c (z.returnState.getD .drafted) .closed (z.map.get i) i
      verified := verifiedAfter z .closed (Conclusion.unreached z.map c (associations c false)) i } :=
    PerInput.get_of _ i
  rw [hentry]
  refine ⟨Bool.and_false _, rfl, ?_⟩
  cases z.returnState with
  | none => rfl
  | some r => cases r <;> rfl

include hz

theorem State.breakCheck_closed : ∃ report, s.breakCheck c .closed =
    ((State.setSlot { s with check := none } c.slot (some (z.aborted c))).put z.label (.checkReport report)).raise
      .check := by
  refine ⟨checkReport c z (z.returnState.getD .drafted) .closed false
    (Conclusion.unreached z.map c (associations c false)), ?_⟩
  unfold State.breakCheck State.endCheck
  rw [hz]
  dsimp only
  rw [State.modSite_at (s := { s with check := none }) (k := c.slot) (x := z) _ hz]
  rfl

/-- What a check that Close Site ends leaves of the state. -/
theorem State.breakCheck_closed_rest : (s.breakCheck c .closed).attends .check = true
    ∧ (s.breakCheck c .closed).sag = s.sag
    ∧ ((s.breakCheck c .closed).site c.slot).map Site.bare = some (z.aborted c).bare
    ∧ SameOtherSites s (s.breakCheck c .closed) c.slot := by
  obtain ⟨report, h⟩ := State.breakCheck_closed hz
  let b := State.setSlot { s with check := none } c.slot (some (z.aborted c))
  rw [h]
  refine ⟨State.raise_attends _ _, (State.put_aside b _ _).sag, ?_, fun j hj => ?_⟩
  · refine (State.put_records b _ _ c.slot).trans ?_
    exact congrArg (Option.map Site.bare) (State.site_setSlot_same _ _ _)
  · refine ((State.put_quiet b _ _).sites j).trans ?_
    exact congrArg (Option.map Site.core) ((State.site_setSlot _ c.slot j _).trans (if_neg (Ne.symm hj)))

end

end Sys2Proof.Machine

/-! # The statement about Close Site (R15) -/

namespace Sys2Proof.Machine

section

variable {s : State} {label : Nat} {k : Fin 8} {x : Site}

theorem takes_closeSite {t : State} {code : ResultCode} {area : List Byte}
    (h : s.closeSite label = ⟨t, code, area⟩) : Takes (.closeSite label) (.closeSite label) s t code area :=
  takes_of_answer (g := (·.closeSite label)) rfl h

theorem State.closeSite_holds (h : Holds s label k x) : s.closeSite label =
    if x.state = .closed then refuse s .wrongState
    else accept ((((s.closeWork k x).modSite k (·.close s.clock)).leaveLive x.state).put x.label
      (.closed x.state)) [] := by
  obtain ⟨hl, hk, hx⟩ := h
  exact State.judgeSite_pass _ hl rfl hk hx

/-- The state of a close before its interval or its check ends (steps 1 and 2 of R15). -/
def State.closeStart (s : State) (k : Fin 8) (x : Site) : State :=
  (if x.state = .surveying then (s.abandonTrackers x.label).closeEventByOrder k .closed
    else s.abandonTrackers x.label).handOnWaiting x.label

theorem State.closeStart_closeFrame (s : State) (k : Fin 8) (x : Site) : CloseFrame s (s.closeStart k x)
    ∧ (s.closeStart k x).sag.trackers = (s.abandonTrackers x.label).sag.trackers := by
  have habandon := s.abandonTrackers_closeFrame x.label
  unfold State.closeStart
  split
  · obtain ⟨hevent, htrack⟩ := (s.abandonTrackers x.label).closeEventByOrder_closeFrame k .closed
    obtain ⟨hwait, hsag⟩ := ((s.abandonTrackers x.label).closeEventByOrder k .closed).handOnWaiting_closeFrame x.label
    exact ⟨(habandon.trans hevent).trans hwait, (congrArg SagMonitor.trackers hsag).trans htrack⟩
  · obtain ⟨hwait, hsag⟩ := (s.abandonTrackers x.label).handOnWaiting_closeFrame x.label
    exact ⟨habandon.trans hwait, congrArg SagMonitor.trackers hsag⟩

theorem State.closeStart_frame (s : State) (k : Fin 8) (x : Site) : CloseFrame s (s.closeStart k x)
    ∧ ∀ f : Fin 4, (s.closeStart k x).sag.trackers[f] =
      s.sag.trackers[f].filter (fun r => r.site != x.label) := by
  obtain ⟨hframe, htrack⟩ := s.closeStart_closeFrame k x
  exact ⟨hframe, fun f => (congrArg (fun t : Vector (Option Tracker) 4 => t[f]) htrack).trans
    (s.abandonTrackers_trackers x.label f)⟩

theorem State.closeStart_openEvent (hx : s.site k = some x) (h : x.state = .surveying) :
    (s.closeStart k x).sag.openEvent = none := by
  obtain ⟨z, hz, -⟩ := (s.abandonTrackers_closeFrame x.label).site hx
  unfold State.closeStart
  rw [if_pos h, (State.handOnWaiting_closeFrame _ x.label).2]
  exact State.closeEventByOrder_closes .closed hz

theorem State.closeWork_surveying (h : x.state = .surveying) :
    s.closeWork k x = (s.closeStart k x).closeIntervalByOrder .closed := by
  unfold State.closeWork State.closeStart
  rw [h]
  rfl

theorem State.closeWork_paused (h : x.state = .paused) : s.closeWork k x = s.closeStart k x := by
  unfold State.closeWork State.closeStart
  rw [h]
  rfl

theorem State.closeWork_checking (h : x.state = .checking) : s.closeWork k x = (s.closeStart k x).abortCheck := by
  unfold State.closeWork State.closeStart
  rw [h]
  rfl

theorem State.closeWork_none (h : x.state = .drafted ∨ x.state = .ready) : s.closeWork k x = s := by
  unfold State.closeWork
  rcases h with h | h <;> rw [h]

theorem State.abortCheck_some {c : CheckRecord} (h : s.check = some c) : s.abortCheck = s.breakCheck c .closed := by
  unfold State.abortCheck
  rw [h]

theorem State.abortCheck_none (h : s.check = none) : s.abortCheck = s := by
  unfold State.abortCheck
  rw [h]

/-- The end of a check by Close Site leaves the Sag Monitor alone, and the sites but that of the check. -/
theorem State.abortCheck_rest (s : State) : s.abortCheck.sag = s.sag
    ∧ ∀ j : Fin 8, (∀ c, s.check = some c → c.slot ≠ j) →
      (s.abortCheck.site j).map Site.core = (s.site j).map Site.core := by
  cases hc : s.check with
  | none =>
    rw [State.abortCheck_none hc]
    exact ⟨rfl, fun _ _ => rfl⟩
  | some c =>
    rw [State.abortCheck_some hc]
    cases hz : s.site c.slot with
    | none =>
      have h : s.breakCheck c .closed = { s with check := none } := by
        unfold State.breakCheck
        rw [hz]
      rw [h]
      exact ⟨rfl, fun _ _ => rfl⟩
    | some z =>
      obtain ⟨-, hsag, -, hothers⟩ := State.breakCheck_closed_rest hz
      exact ⟨hsag, fun j hj => hothers j (Ne.symm (hj c rfl))⟩

/-- A slot that holds a site holds one after a check has ended. -/
theorem State.abortCheck_site (hx : s.site k = some x) : ∃ z, s.abortCheck.site k = some z := by
  cases hc : s.check with
  | none =>
    rw [State.abortCheck_none hc]
    exact ⟨x, hx⟩
  | some c =>
    by_cases hk : c.slot = k
    · subst hk
      rw [State.abortCheck_some hc]
      obtain ⟨-, -, hsite, -⟩ := State.breakCheck_closed_rest hx
      obtain ⟨z, hz, -⟩ := Option.map_eq_some_iff.mp hsite
      exact ⟨z, hz⟩
    · have hcore := s.abortCheck_rest.2 k fun d hd => by
        cases hc.symm.trans hd
        exact hk
      rw [hx] at hcore
      obtain ⟨z, hz, -⟩ := Option.map_eq_some_iff.mp hcore
      exact ⟨z, hz⟩

/-- The close of an interval by an order, where there is one (R95, R96). -/
theorem State.closeIntervalByOrder_some {iv : Interval} (h : s.interval = some iv) (cause : IntervalEnd) :
    s.closeIntervalByOrder cause =
      s.closeInterval cause (min s.clock.total iv.endMs) (decide (s.clock.total < iv.endMs)) := by
  unfold State.closeIntervalByOrder
  rw [h]

theorem State.closeIntervalByOrder_aside (s : State) (cause : IntervalEnd) :
    Aside { s with interval := none } (s.closeIntervalByOrder cause) := by
  cases h : s.interval with
  | none =>
    unfold State.closeIntervalByOrder
    rw [h]
    exact ⟨rfl, rfl, rfl, rfl, h, rfl⟩
  | some iv =>
    rw [State.closeIntervalByOrder_some h]
    exact State.closeInterval_aside s _ _ _

/-- The site of a live close before it becomes Closed, and what the work on it leaves alone. -/
theorem State.closeWork_live (hx : s.site k = some x)
    (h : x.state = .checking ∨ x.state = .surveying ∨ x.state = .paused) :
    (s.closeWork k x).sag = (s.closeStart k x).sag
    ∧ (∃ z, (s.closeWork k x).site k = some z ∧ (x.state ≠ .checking → z.core = x.core))
    ∧ ((x.state = .checking → ∀ c, s.check = some c → c.slot = k) → SameOtherSites s (s.closeWork k x) k) := by
  obtain ⟨hframe, -⟩ := s.closeStart_frame k x
  obtain ⟨z, hz, hzc, -, -⟩ := hframe.site hx
  rcases h with h | h | h
  · rw [State.closeWork_checking h]
    obtain ⟨hsag, hsites⟩ := (s.closeStart k x).abortCheck_rest
    obtain ⟨y, hy⟩ := State.abortCheck_site hz
    refine ⟨hsag, ⟨y, hy, fun hn => absurd h hn⟩, fun hslot j hj => (hsites j fun c hc => ?_).trans
      (hframe.quiet.sites j)⟩
    rw [hslot h c (hframe.check.symm.trans hc)]
    exact Ne.symm hj
  · rw [State.closeWork_surveying h]
    have hclose := (State.closeIntervalByOrder_quiet (s.closeStart k x) .closed).sites
    obtain ⟨y, hy, hyc⟩ := Option.map_eq_some_iff.mp ((hclose k).trans (congrArg (Option.map Site.core) hz))
    exact ⟨(State.closeIntervalByOrder_aside _ .closed).sag, ⟨y, hy, fun _ => hyc.trans hzc⟩,
      fun _ j _ => (hclose j).trans (hframe.quiet.sites j)⟩
  · rw [State.closeWork_paused h]
    exact ⟨rfl, ⟨z, hz, fun _ => hzc⟩, fun _ j _ => hframe.quiet.sites j⟩

theorem State.leaveLive_live (t : State) {was : SiteState} (h : was.isLive = true) : t.leaveLive was =
    { t with
      fe := FrontEnd.reset, watch := PerInput.same none
      sag := { t.sag with detectors := PerInput.same none, lostAhead := PerInput.same none } } := if_pos h

theorem Site.close_core (z : Site) (now : Time) : (z.close now).core = { z.core with
    state := .closed, returnState := none, closed := some now } := rfl

/-- The record of the interval that a close ends (R96, R98). -/
theorem State.closeWork_record {iv : Interval} {r : IntervalRecord} (hx : s.site k = some x)
    (h : x.state = .surveying) (hiv : s.interval = some iv) (hk : iv.slot = k)
    (hfull : (iv.judgeHeld x.map).total ≠ 0)
    (hr : r = (iv.judgeHeld x.map).toRecord x.nextInterval .closed (min s.clock.total iv.endMs)
      (decide (s.clock.total < iv.endMs)))
    (hf : (s.closeStart k x).store.fits (Record.interval r).length = true) :
    (s.closeWork k x).store.queues.intervals.map Queued.record =
      (s.closeStart k x).store.queues.intervals.map Queued.record ++ [.interval r] := by
  obtain ⟨hframe, -⟩ := s.closeStart_frame k x
  obtain ⟨z, hz, -, hzm, hzn⟩ := hframe.site hx
  have hiv0 := hframe.interval.trans hiv
  have hclock : (s.closeStart k x).clock = s.clock := hframe.quiet.steady.time.2.2
  subst hk
  rw [State.closeWork_surveying h, State.closeIntervalByOrder_some hiv0, State.closeInterval_full hiv0 hz _ _ _
    (by rw [hzm]; exact hfull)]
  exact State.admitInterval_fits (s := { s.closeStart iv.slot x with interval := none })
    (by rw [Interval.judgeHeld_slot]; exact hz) _ _ _ (by rw [hzm, hzn, hclock, hr]) hf

end

/-- Settles O30: the close of a Drafted or Ready site, the close of a live site with its parts, and the refusal. -/
theorem closeSiteClosesTheSite : Obligations.CloseSiteClosesTheSite := by
  unfold Obligations.CloseSiteClosesTheSite
  intro s label k x h
  have hx := h.2.2
  refine ⟨fun hstate => takes_closeSite ?resting, fun hlive => ?live, fun hc => takes_closeSite ?closed⟩
  case resting =>
    have hopen : x.state ≠ .closed := by rcases hstate with hs | hs <;> rw [hs] <;> decide
    have hnot : x.state.isLive = false := by rcases hstate with hs | hs <;> rw [hs] <;> rfl
    have hleave (t : State) : t.leaveLive x.state = t := if_neg (by rw [hnot]; exact Bool.false_ne_true)
    rw [State.closeSite_holds h, if_neg hopen, State.closeWork_none hstate, State.modSite_at _ hx, hleave]
    rfl
  case closed =>
    rw [State.closeSite_holds h, if_pos hc]
    rfl
  case live =>
    let s0 := s.closeStart k x
    let s1 := s.closeWork k x
    let w : State := { s1.modSite k (·.close s.clock) with
      fe := FrontEnd.reset, watch := PerInput.same none
      sag := { s1.sag with detectors := PerInput.same none, lostAhead := PerInput.same none } }
    let u := w.put x.label (.closed x.state)
    obtain ⟨hframe, htrackers⟩ := s.closeStart_frame k x
    obtain ⟨hsag, ⟨z1, hz1, hcore⟩, hothers⟩ := State.closeWork_live (k := k) hx hlive
    have hopen : x.state ≠ .closed := by rcases hlive with hs | hs | hs <;> rw [hs] <;> decide
    have hisLive : x.state.isLive = true := by rcases hlive with hs | hs | hs <;> rw [hs] <;> rfl
    have hw : (s1.modSite k (·.close s.clock)).leaveLive x.state = w := by
      rw [State.leaveLive_live _ hisLive, (State.modSite_aside s1 k _).sag]
    have hclose : s.closeSite label = ⟨u, .ok, []⟩ := by
      rw [State.closeSite_holds h, if_neg hopen, hw]
      rfl
    have hsteady := State.closeSite_steady s label
    rw [hclose] at hsteady
    have hput := State.put_aside w x.label (.closed x.state)
    have hwk : w.site k = some (z1.close s.clock) :=
      (State.site_modSite s1 k k _).trans ((if_pos rfl).trans (congrArg (Option.map _) hz1))
    refine ⟨s0, s1, w, u, rfl, fun hs => State.closeWork_surveying hs, fun hs => State.closeWork_paused hs,
      fun c hs hc => ⟨?_, ?_⟩, rfl, rfl, takes_closeSite hclose, fun c hs hc hk => ?_, fun e hs he => ?_,
      fun iv r hs hiv hk hfull hr h1 h2 => State.closeWork_record hx hs hiv hk hfull hr
        ((RecordStore.fits_iff _ _).mpr ⟨h1, h2⟩), hput.fe, hput.watch, congrArg SagMonitor.detectors hput.sag,
      hsteady.time, hsteady.link, fun hs => ⟨?_, ?_⟩, fun f => ?_, fun hslot j hj => ?_, ?_⟩
    · exact (State.closeWork_checking hs).trans (State.abortCheck_some (hframe.check.trans hc))
    · refine (State.modSite_aside s1 k _).check.trans ?_
      rw [show s1 = _ from State.closeWork_checking hs]
      exact State.abortCheck_check _
    · subst hk
      obtain ⟨z, hz, hzc, hzm, -⟩ := hframe.site hx
      have heq : s1 = s0.breakCheck c .closed :=
        (State.closeWork_checking hs).trans (State.abortCheck_some (hframe.check.trans hc))
      obtain ⟨hattends, -, hbare, -⟩ := State.breakCheck_closed_rest hz
      rw [← heq, hz1, Option.map_some] at hbare
      rw [← heq] at hattends
      have hrec := Option.some.inj hbare
      have hret : z.returnState = x.returnState := congrArg SiteCore.returnState hzc
      have hmap : z1.map = (z.aborted c).map := (congrArg Site.map hrec :)
      refine ⟨State.put_keeps _ _ ?_, z1.close s.clock, hwk, (congrArg Site.checkStatus hrec :),
        (congrArg Site.unusable hrec :), fun i => ?_⟩
      · exact (State.attends_of_lp (State.modSite_lp s1 c.slot _) .check).trans hattends
      · obtain ⟨hverified, hrole, hpresence⟩ := z.aborted_map c i
        rw [hzm, hret] at hpresence
        rw [hzm] at hrole
        change (z1.map.get i).verified = false ∧ (z1.map.get i).role = _ ∧ (z1.map.get i).presence = _
        rw [hmap]
        exact ⟨hverified, hrole, hpresence⟩
    · obtain ⟨g, hg, hge⟩ := s.abandonTrackers_openEvent x.label
      rw [he, Option.map_some] at hge
      refine ⟨g e, hg e, hge, ?_⟩
      have hquiet := (s.abandonTrackers_closeFrame x.label).quiet.steady.time
      have hnow : (s.abandonTrackers x.label).now = s.now := by
        unfold State.now
        rw [hquiet.2.1, hquiet.2.2]
      have hhalves : (g e).halves = e.halves := (congrArg OpenEvent.halves (hg e) :)
      rw [State.closeEventByOrder_some k .closed hge, hnow, hhalves]
    · rw [hput.sag]
      exact (congrArg SagMonitor.openEvent hsag).trans (State.closeStart_openEvent hx hs)
    · rw [hput.interval]
      refine (State.modSite_aside s1 k _).interval.trans ?_
      rw [show s1 = _ from State.closeWork_surveying hs]
      exact (State.closeIntervalByOrder_aside _ .closed).interval
    · rw [hput.sag]
      exact (congrArg (fun g : SagMonitor => g.trackers[f]) hsag).trans (htrackers f)
    · refine ((State.put_quiet w x.label _).sites j).trans (Eq.trans ?_ (hothers hslot j hj))
      exact congrArg (Option.map Site.core) ((State.site_modSite s1 k j _).trans (if_neg (Ne.symm hj)))
    · have hrec := State.put_records w x.label (.closed x.state) k
      rw [hwk] at hrec
      obtain ⟨y, hy, hyb⟩ := Option.map_eq_some_iff.mp hrec
      refine ⟨y, hy, (congrArg Site.state hyb :), (congrArg Site.pendingSet hyb :), (congrArg Site.returnState hyb :),
        (congrArg Site.closed hyb :), fun hn => ?_⟩
      have hyc : y.core = (z1.close s.clock).core := (congrArg Site.core hyb :)
      rw [hyc, Site.close_core, hcore hn]

end Sys2Proof.Machine

/-! # The phases of a check, and the check that completes (R41, R44 to R50) -/

namespace Sys2Proof.Machine

/-! ## The Presence phase (R41, R44) -/

theorem InputCheck.judgePresence_line {e : InputCheck} {i : Input} (hv : i.isVoltage = true)
    (hl : e.roleAtStart.isL = true) :
    (e.judgePresence i).presence = if 500 ≤ e.meanLevel then .present else .absent := by
  have hused : e.roleAtStart ≠ .unused := by
    intro h
    rw [h] at hl
    cases hl
  unfold InputCheck.judgePresence
  rw [if_neg hused, if_neg (not_not.mpr hv), if_neg (not_not.mpr hl)]
  rfl

theorem CheckRecord.anyAbsent_iff (c : CheckRecord) : c.anyAbsent = true ↔
    ∃ i, i.isVoltage = true ∧ (c.inputs.get i).roleAtStart.isL = true ∧ (c.inputs.get i).presence = .absent := by
  unfold CheckRecord.anyAbsent
  rw [List.any_eq_true]
  simp only [Input.mem_voltages, Bool.and_eq_true, decide_eq_true_iff]

/-- The inputs of a check record at the end of the Presence phase (R41). -/
def CheckRecord.judged (c : CheckRecord) : PerInput InputCheck := PerInput.of fun i => (c.inputs.get i).judgePresence i

theorem CheckRecord.endPresence_single (c : CheckRecord) (fin : Stamp) : c.endPresence .single fin = { c with
    phase := .association, phaseStart := fin, inputs := c.judged, rotation := .notApplicable, run := 0
    runPattern := none, lockWaitStart := fin, lockWaitDue := false } := rfl

theorem CheckRecord.endPresence_phases (c : CheckRecord) {w : Wiring} (h : w ≠ .single) (fin : Stamp) :
    c.endPresence w fin = { c with
      phase := .rotation, phaseStart := fin, inputs := c.judged, run := 0, runPattern := none
      lockWaitStart := fin, lockWaitDue := false } := by
  cases w with
  | single => exact absurd rfl h
  | wye => rfl
  | delta => rfl

section

variable {s : State} {c : CheckRecord} {x : Site} (hc : s.check = some c) (hx : s.site c.slot = some x)
include hc hx

theorem exec_presencePhaseEnd {fin : Stamp} (hp : c.phase = .presence) (hf : c.presenceEnd = some fin) :
    exec .presencePhaseEnd s =
      if (c.endPresence x.wiring fin).phase = .rotation ∧ (c.endPresence x.wiring fin).anyAbsent then
        .next (s.breakCheck { c.endPresence x.wiring fin with rotation := .indeterminate } (.unusable .noRotation))
      else .next { s with check := some (c.endPresence x.wiring fin) } := by
  change execPresencePhaseEnd s = _
  unfold execPresencePhaseEnd
  rw [hc]
  dsimp only
  rw [hp, hf, hx]

omit hx in
theorem exec_rotationFound {p : RotationResult} (hp : c.phase = .rotation) (hr : 5 ≤ c.run)
    (hpat : c.runPattern = some p) : exec .rotationFound s = .next { s with check := some { c with
      phase := .association, phaseStart := c.runEnd, rotation := p, run := 0, runPattern := none
      lockWaitStart := c.runEnd, lockWaitDue := false } } := by
  change execRotationFound s = _
  unfold execRotationFound
  rw [hc]
  dsimp only
  rw [if_pos ⟨hp, hr⟩, hpat]
  rfl

variable (hp : c.phase = .association) (hr : 5 ≤ c.run)
include hp hr

theorem exec_associationComplete_conflict (h : clampConflict (associations c true) = true) :
    exec .associationComplete s = .next (s.endCheck c (.unusable .clampConflict) true
      (Conclusion.unreached x.map c (associations c true))) := by
  change execAssociationComplete s = _
  unfold execAssociationComplete
  rw [hc]
  dsimp only
  rw [hx]
  exact (if_pos ⟨hp, hr⟩).trans (if_pos h)

theorem exec_associationComplete_verdict (h : clampConflict (associations c true) = false) :
    exec .associationComplete s = .next (s.endCheck c (verdictOf x (conclude c x (associations c true))) true
      (conclude c x (associations c true))) := by
  change execAssociationComplete s = _
  unfold execAssociationComplete
  rw [hc]
  dsimp only
  rw [hx]
  exact (if_pos ⟨hp, hr⟩).trans (if_neg (by rw [h]; exact Bool.false_ne_true))

end

/-! ## The end of a check with a verdict that gives Ready (R50) -/

/-- What the steps after the change of the site record leave alone (steps 6 to 9 of R50). -/
structure CheckFrame (s t : State) : Prop where
  maps : SameMaps s t
  check : t.check = s.check
  sag : t.sag = s.sag
  interval : t.interval = s.interval
  print : t.print = s.print

theorem CheckFrame.refl (s : State) : CheckFrame s s := ⟨SameMaps.refl s, rfl, rfl, rfl, rfl⟩

theorem CheckFrame.trans {s t u : State} (a : CheckFrame s t) (b : CheckFrame t u) : CheckFrame s u :=
  ⟨a.maps.trans b.maps, b.check.trans a.check, b.sag.trans a.sag, b.interval.trans a.interval, b.print.trans a.print⟩

theorem Aside.checkFrame {s t : State} (h : Aside s t) (hm : SameMaps s t) : CheckFrame s t :=
  ⟨hm, h.check, h.sag, h.interval, h.print⟩

theorem State.noteMapChange_checkFrame (s : State) (m n : ChannelMap) : CheckFrame s (s.noteMapChange m n) := by
  unfold State.noteMapChange
  split
  · exact ⟨fun _ => rfl, rfl, rfl, rfl, rfl⟩
  · exact CheckFrame.refl s

theorem State.rechoose_checkFrame (s : State) (m : ChannelMap) (cause : ReferenceCause) :
    CheckFrame s (s.rechoose m cause) := by
  have h := s.rechoose_leadFrame m cause
  exact ⟨h.maps, h.check, s.rechoose_sag m cause, h.interval, h.print⟩

theorem State.rechoose_attends {s : State} {b : AttentionBit} (h : s.attends b = true) (m : ChannelMap)
    (cause : ReferenceCause) : (s.rechoose m cause).attends b = true := by
  unfold State.rechoose
  split
  · exact State.put_keeps _ _ h
  · exact h

section

variable (s : State) (k : Fin 8) (x : Site) {v : CheckVerdict} (o : Conclusion) (report : CheckReport)

/-- The report and its attention (steps 7 and 8 of R50). -/
theorem State.putReport_checkFrame (s : State) : CheckFrame s ((s.put x.label (.checkReport report)).raise .check) :=
  ((State.put_aside s _ _).checkFrame (State.put_maps s _ _)).trans ⟨fun _ => rfl, rfl, rfl, rfl, rfl⟩

theorem State.afterCheck_drafted (hv : v ≠ .closed) : s.afterCheck k x .drafted v o report =
    ((s.stopWatch.stopFrontEnd.put x.label (.checkReport report)).raise .check).applyPending k := by
  cases v with
  | closed => exact absurd rfl hv
  | passed => rfl
  | corrected => rfl
  | findings => rfl
  | unusable r => rfl
  | cancelled => rfl

theorem State.afterCheck_paused (hv : v ≠ .closed) : s.afterCheck k x .paused v o report =
    if rolesDiffer x.map o.map then
      ((((s.noteMapChange x.map o.map).changeWatch (s.mapOf k x)).put x.label (.checkReport report)).raise
        .check).rechoose (s.mapOf k x) .mapChanged
    else (((s.noteMapChange x.map o.map).changeWatch (s.mapOf k x)).put x.label (.checkReport report)).raise
      .check := by
  cases v with
  | closed => exact absurd rfl hv
  | passed => rfl
  | corrected => rfl
  | findings => rfl
  | unusable r => rfl
  | cancelled => rfl

/-- What the end of a check leaves alone, and its attention (R50). -/
theorem State.afterCheck_frame (hv : v ≠ .closed) (ret : ReturnState) :
    CheckFrame s (s.afterCheck k x ret v o report) ∧ (s.afterCheck k x ret v o report).attends .check = true := by
  cases ret with
  | drafted =>
    rw [State.afterCheck_drafted s k x o report hv]
    have hstop : CheckFrame s s.stopWatch.stopFrontEnd := ⟨fun _ => rfl, rfl, rfl, rfl, rfl⟩
    exact ⟨(hstop.trans (State.putReport_checkFrame x report _)).trans
      ((State.applyPending_aside _ k).checkFrame (State.applyPending_maps _ k)),
      State.applyPending_keeps k (State.raise_attends _ _)⟩
  | paused =>
    rw [State.afterCheck_paused s k x o report hv]
    have hchange (t : State) (m : ChannelMap) : CheckFrame t (t.changeWatch m) := ⟨fun _ => rfl, rfl, rfl, rfl, rfl⟩
    have hput := ((s.noteMapChange_checkFrame x.map o.map).trans (hchange _ (s.mapOf k x))).trans
      (State.putReport_checkFrame x report _)
    split
    · exact ⟨hput.trans (State.rechoose_checkFrame _ _ _), State.rechoose_attends (State.raise_attends _ _) _ _⟩
    · exact ⟨hput, State.raise_attends _ _⟩

theorem State.afterCheck_stops (hv : v ≠ .closed) : (s.afterCheck k x .drafted v o report).fe = FrontEnd.reset
    ∧ (s.afterCheck k x .drafted v o report).watch = PerInput.same none := by
  rw [State.afterCheck_drafted s k x o report hv]
  have h := ((State.put_aside s.stopWatch.stopFrontEnd x.label (.checkReport report)).trans
    (State.raise_aside _ .check)).trans (State.applyPending_aside _ k)
  exact ⟨h.fe, h.watch⟩

end

section

variable {s : State} {c : CheckRecord} {x : Site} (hx : s.site c.slot = some x) (v : CheckVerdict) (done : Bool)
  (o : Conclusion)

/-- The site record of a check that ends with a verdict. -/
def Site.checked (x : Site) (c : CheckRecord) (v : CheckVerdict) (o : Conclusion) : Site :=
  x.endCheck c (x.returnState.getD .drafted) v o

include hx

theorem State.endCheck_at : ∃ report, s.endCheck c v done o =
    (State.setSlot { s with check := none } c.slot (some (x.checked c v o))).afterCheck c.slot x
      (x.returnState.getD .drafted) v o report := by
  refine ⟨checkReport c x (x.returnState.getD .drafted) v done o, ?_⟩
  unfold State.endCheck
  rw [hx]
  dsimp only
  rw [State.modSite_at (s := { s with check := none }) (k := c.slot) (x := x) _ hx]
  rfl

/-- Every check that ends with a verdict but Closed: what it leaves, and its site. -/
theorem State.endCheck_rest (hv : v ≠ .closed) : (s.endCheck c v done o).check = none
    ∧ (s.endCheck c v done o).attends .check = true
    ∧ (∃ y, (s.endCheck c v done o).site c.slot = some y ∧ y.core = (x.checked c v o).core
      ∧ y.map = (x.checked c v o).map)
    ∧ (x.returnState ≠ some .paused → (s.endCheck c v done o).fe = FrontEnd.reset
      ∧ (s.endCheck c v done o).watch = PerInput.same none)
    ∧ SameOtherSites s (s.endCheck c v done o) c.slot
    ∧ (s.endCheck c v done o).sag = s.sag ∧ (s.endCheck c v done o).interval = s.interval
    ∧ (s.endCheck c v done o).print = s.print := by
  obtain ⟨report, h⟩ := State.endCheck_at hx v done o
  let b := State.setSlot { s with check := none } c.slot (some (x.checked c v o))
  obtain ⟨hframe, hattends⟩ := State.afterCheck_frame b c.slot x o report hv (x.returnState.getD .drafted)
  have hquiet := State.afterCheck_quiet b c.slot x (x.returnState.getD .drafted) v o report
  rw [h]
  refine ⟨hframe.check, hattends, ?_, fun hret => ?_, fun j hj => ?_, hframe.sag, hframe.interval, hframe.print⟩
  · have hk := hframe.maps c.slot
    rw [show b.site c.slot = _ from State.site_setSlot_same _ _ _] at hk
    obtain ⟨y, hy, hcm⟩ := Option.map_eq_some_iff.mp hk
    exact ⟨y, hy, congrArg Prod.fst hcm, congrArg Prod.snd hcm⟩
  · have hdrafted : x.returnState.getD .drafted = .drafted := by
      cases hr : x.returnState with
      | none => rfl
      | some r =>
        cases r with
        | drafted => rfl
        | paused => exact absurd hr hret
    rw [hdrafted]
    exact State.afterCheck_stops b c.slot x o report hv
  · refine (hquiet.sites j).trans ?_
    exact congrArg (Option.map Site.core) ((State.site_setSlot _ c.slot j _).trans (if_neg (Ne.symm hj)))

end

/-! ## The record of a check that gives Ready (steps 1 to 5 of R50) -/

section

variable (x : Site) (c : CheckRecord) {v : CheckVerdict} (o : Conclusion)

theorem Site.checked_core (hv : v = .passed ∨ v = .corrected ∨ v = .findings) : (x.checked c v o).core = { x.core with
    state := if x.returnState = some .paused then .paused else .ready
    checkStatus := v.status, unusable := none, returnState := none } := by
  unfold Site.checked Site.endCheck Site.core
  rcases hv with rfl | rfl | rfl
  · rcases x.returnState with _ | _ | _ <;> rfl
  · rcases x.returnState with _ | _ | _ <;> rfl
  · rcases x.returnState with _ | _ | _ <;> rfl

theorem Site.checked_map (v : CheckVerdict) (i : Input) : (x.checked c v o).map.get i = { o.map.get i with
    presence := presenceAfter c (x.returnState.getD .drafted) v (o.map.get i) i
    verified := verifiedAfter x v o i } := PerInput.get_of _ i

theorem verifiedAfter_iff (hv : v = .passed ∨ v = .corrected ∨ v = .findings) (i : Input) :
    verifiedAfter x v o i = true ↔ (o.map.get i).role ≠ .unused
      ∧ (v ≠ .findings ∨ findingLeft x.options.autoCorrect (o.findings.get i) = false) := by
  unfold verifiedAfter
  rw [Bool.and_eq_true, decide_eq_true_iff]
  refine and_congr_right fun _ => ?_
  rcases hv with rfl | rfl | rfl
  · exact ⟨fun _ => .inl (by decide), fun _ => rfl⟩
  · exact ⟨fun _ => .inl (by decide), fun _ => rfl⟩
  · rw [Bool.not_eq_true']
    exact ⟨.inr, fun h => h.resolve_left fun hn => hn rfl⟩

theorem presenceOf_eq (p : PresenceResult) : presenceOf p = if p ∈ [PresenceResult.present, .fitted] then .present
    else if p ∈ [PresenceResult.absent, .opened, .short] then .absent else .unknown := by
  cases p <;> rfl

theorem presenceAfter_eq (hv : v = .passed ∨ v = .corrected ∨ v = .findings) (e : MapEntry) (i : Input) :
    presenceAfter c (x.returnState.getD .drafted) v e i = if x.returnState = some .paused then e.presence
      else presenceOf (c.inputs.get i).presence := by
  unfold presenceAfter
  rcases hv with rfl | rfl | rfl
  · rcases x.returnState with _ | _ | _ <;> rfl
  · rcases x.returnState with _ | _ | _ <;> rfl
  · rcases x.returnState with _ | _ | _ <;> rfl

end

end Sys2Proof.Machine

/-! # The blocks of a check's phases: patterns, candidates and outcomes (R43 to R46) -/

namespace Sys2Proof.Machine

/-! ## A qualifying block (R43 to R45) -/

section

variable {c : CheckRecord} {x : Site} {b : BlockResult} {began : Stamp} (hs : c.phaseStart.up ≤ began.up)
  (hr : c.run < 5) (hl : b.lockedCycles = b.cycles)
  (ha : ∀ i, isLVoltage x.map i = true → (b.angle i).isSome = true)
include hs hr hl ha

theorem CheckRecord.takeBlock_rotation (hp : c.phase = .rotation) (fin : Stamp) :
    c.takeBlock x b began fin = c.takeRotation x.map b fin := by
  rw [CheckRecord.takeBlock_counts hs, CheckRecord.takeCounted_rotation hr hp]
  exact if_pos ⟨(BlockResult.fullyLocked_iff b).mpr hl, (anglesComplete_iff _ b).mpr ha⟩

theorem CheckRecord.takeBlock_association (hp : c.phase = .association) (href : b.reference.isSome = true)
    (fin : Stamp) : c.takeBlock x b began fin = c.takeAssociation x b fin := by
  rw [CheckRecord.takeBlock_counts hs, CheckRecord.takeCounted_association hr hp]
  exact if_pos ⟨(BlockResult.fullyLocked_iff b).mpr hl, href, (anglesComplete_iff _ b).mpr ha⟩

end

theorem CheckRecord.takeRotation_eq (c : CheckRecord) (m : ChannelMap) (b : BlockResult) (fin : Stamp) :
    c.takeRotation m b fin =
      if blockPattern m b = .indeterminate ∨ (c.runPattern ≠ none ∧ c.runPattern ≠ some (blockPattern m b)) then
        { c with rotation := .indeterminate }
      else { c with run := c.run + 1, runEnd := fin, lockWaitDue := false, runPattern := some (blockPattern m b) } :=
  if_congr (or_congr_right (and_congr_left' Option.isSome_iff_ne_none)) rfl rfl

theorem InputCheck.takesPart_iff (e : InputCheck) (i : Input) : e.takesPart i = true ↔
    i.isVoltage = false ∧ e.roleAtStart.isL = true ∧ e.presence = .fitted := by
  unfold InputCheck.takesPart
  rw [Bool.and_eq_true, Bool.and_eq_true, Bool.not_eq_true', decide_eq_true_iff, and_assoc]

theorem CheckRecord.takeAssociation_eq (c : CheckRecord) (x : Site) (b : BlockResult) (fin : Stamp) :
    c.takeAssociation x b fin = { c with
      run := c.run + 1, runEnd := fin, lockWaitDue := false
      inputs := PerInput.of fun i =>
        if i.isVoltage = false ∧ (c.inputs.get i).roleAtStart.isL = true ∧ (c.inputs.get i).presence = .fitted
        then { c.inputs.get i with outcomes := (c.inputs.get i).outcomes ++ [clampOutcome x c.rotation b i] }
        else c.inputs.get i } := by
  unfold CheckRecord.takeAssociation
  simp only [InputCheck.takesPart_iff]
  rfl

/-! ## The pattern of a block (R44) -/

theorem angleSub_of_lt {a b : Nat} (ha : a < 3600) (hb : b < 3600) : angleSub a b = (a + 3600 - b) % 3600 := by
  unfold angleSub
  rw [Nat.mod_eq_of_lt ha, Nat.mod_eq_of_lt hb]

/-- The voltage input that alone holds a line role is the one whose angle the role has. -/
theorem roleAngle_of_holder {m : ChannelMap} {b : BlockResult} {r : Role} {v : Input} {a : Nat}
    (hv : ∀ i, isLVoltage m i = true ∧ (m.get i).role = r ↔ i = v) (ha : b.angle v = some a) :
    roleAngle m b r = a := by
  have hfind : (lVoltages m).find? (fun i => decide ((m.get i).role = r)) = some v := by
    obtain ⟨hlv, hrole⟩ := (hv v).mpr rfl
    obtain ⟨i, hi⟩ := Option.isSome_iff_exists.mp
      (List.find?_isSome (p := fun i => decide ((m.get i).role = r)).mpr
        ⟨v, (mem_lVoltages m v).mpr hlv, decide_eq_true hrole⟩)
    have hiv : i = v := (hv i).mp ⟨(mem_lVoltages m i).mp (List.mem_of_find?_eq_some hi),
      of_decide_eq_true (List.find?_some (p := fun j => decide ((m.get j).role = r)) hi)⟩
    rw [hi, hiv]
  unfold roleAngle
  rw [hfind, Option.bind_some, ha]
  rfl

theorem blockPattern_of_angles {m : ChannelMap} {b : BlockResult} {a1 a2 a3 : Nat} (h1 : roleAngle m b .l1 = a1)
    (h2 : roleAngle m b .l2 = a2) (h3 : roleAngle m b .l3 = a3) : blockPattern m b =
      if 900 ≤ angleSub a2 a1 ∧ angleSub a2 a1 ≤ 1500 ∧ 2100 ≤ angleSub a3 a1 ∧ angleSub a3 a1 ≤ 2700 then .abc
      else if 2100 ≤ angleSub a2 a1 ∧ angleSub a2 a1 ≤ 2700 ∧ 900 ≤ angleSub a3 a1 ∧ angleSub a3 a1 ≤ 1500 then .acb
      else .indeterminate := by
  subst h1 h2 h3
  rfl

/-! ## The candidates of a clamp (R45) -/

section

variable {x : Site} {r : RotationResult} {b : BlockResult} {i : Input} {e : InputResult} (he : b.results.get i = some e)
include he

theorem clampOutcome_low (h : e.fundamental < (x.map.get i).scale ∨ e.angle = none) :
    clampOutcome x r b i = .lowCurrent := by
  unfold clampOutcome
  rw [he]
  dsimp only
  rcases h with h | h
  · exact if_pos h
  · rw [h, ite_self]

theorem clampOutcome_judged {a : Nat} (hf : (x.map.get i).scale ≤ e.fundamental) (ha : e.angle = some a) :
    clampOutcome x r b i = outcomeOf (candidatesOf x r b a) := by
  unfold clampOutcome
  rw [he]
  dsimp only
  rw [if_neg (Nat.not_lt.mpr hf), ha]

end

theorem centres_eq (w : Wiring) (r : RotationResult) : centres w r =
    if w = .delta then (if r = .acb then (3300, 1500) else (300, 2100)) else (0, 1800) := by
  cases w with
  | single => rfl
  | wye => rfl
  | delta => cases r <;> rfl

theorem centres_apart (w : Wiring) (r : RotationResult) :
    (centres w r).1 ≠ (centres w r).2 ∧ (centres w r).1 < 3600 ∧ (centres w r).2 < 3600 := by
  cases w <;> cases r <;> decide

/-- The polarity of a centre: Normal at the first one, unless the site exports (R45). -/
def polarityAt (first : Nat) (exportFlow : Bool) (c : Nat) : Polarity :=
  if (c = first ↔ exportFlow = false) then .normal else .reversed

theorem centrePolarities_eq {first second : Nat} (h : first ≠ second) (exportFlow : Bool) :
    centrePolarities exportFlow = (polarityAt first exportFlow first, polarityAt first exportFlow second) := by
  unfold polarityAt
  cases exportFlow with
  | false =>
    rw [if_pos (iff_of_true rfl rfl), if_neg fun hi => h (hi.mpr rfl).symm]
    rfl
  | true =>
    have htrue : ¬ true = false := Bool.true_eq_false_eq_False
    rw [if_neg fun hi => htrue (hi.mp rfl), if_pos (iff_of_false h.symm htrue)]
    rfl

theorem mem_pairsOf {x : Site} {r : RotationResult} {first second : Nat} (hc : centres x.wiring r = (first, second))
    (clamp voltage : Nat) (v : Input) (p : AssociationPair) : p ∈ pairsOf x r clamp voltage v ↔
      ∃ c, (c = first ∨ c = second) ∧ p.voltage = v ∧ p.polarity = polarityAt first x.options.exportFlow c
        ∧ p.distance = angleDistance (angleSub clamp voltage) c := by
  have hne : first ≠ second := by
    have h := (centres_apart x.wiring r).1
    rwa [hc] at h
  unfold pairsOf
  dsimp only
  rw [hc, centrePolarities_eq hne, List.mem_pair]
  obtain ⟨w, pol, d⟩ := p
  simp only [AssociationPair.mk.injEq, or_and_right, exists_or, exists_eq_left]

theorem mem_candidatesOf (x : Site) (r : RotationResult) (b : BlockResult) (a : Nat) (p : AssociationPair) :
    p ∈ candidatesOf x r b a ↔ ∃ v, isLVoltage x.map v = true ∧ p ∈ pairsOf x r a ((b.angle v).getD 0) v
      ∧ p.distance ≤ 600 := by
  unfold candidatesOf
  rw [List.mem_filter, List.mem_flatMap, decide_eq_true_iff, ← exists_and_right]
  exact exists_congr fun v => by rw [mem_lVoltages, and_assoc]

/-- The candidates of a clamp, when every voltage input with a line role has an angle. -/
theorem mem_candidatesOf_angles {x : Site} {r : RotationResult} {b : BlockResult} {a first second : Nat}
    {angle : Input → Nat} (ha : a < 3600)
    (hv : ∀ v, isLVoltage x.map v = true → b.angle v = some (angle v) ∧ angle v < 3600)
    (hc : (first, second) = centres x.wiring r) (p : AssociationPair) : p ∈ candidatesOf x r b a ↔
      ∃ v c, isLVoltage x.map v = true ∧ (c = first ∨ c = second) ∧ p.voltage = v
        ∧ p.polarity = polarityAt first x.options.exportFlow c
        ∧ p.distance = min (((a + 3600 - angle v) % 3600 + 3600 - c) % 3600)
          ((c + 3600 - (a + 3600 - angle v) % 3600) % 3600)
        ∧ p.distance ≤ 600 := by
  have hlt : first < 3600 ∧ second < 3600 := by
    have h := (centres_apart x.wiring r).2
    rwa [← hc] at h
  have hdistance {v : Input} {c : Nat} (hlv : isLVoltage x.map v = true) (hcs : c = first ∨ c = second) :
      angleDistance (angleSub a ((b.angle v).getD 0)) c = min (((a + 3600 - angle v) % 3600 + 3600 - c) % 3600)
        ((c + 3600 - (a + 3600 - angle v) % 3600) % 3600) := by
    obtain ⟨hangle, hvlt⟩ := hv v hlv
    have hclt : c < 3600 := by rcases hcs with rfl | rfl <;> omega
    have hd : (a + 3600 - angle v) % 3600 < 3600 := Nat.mod_lt _ (by decide)
    unfold angleDistance
    rw [hangle, Option.getD_some, angleSub_of_lt ha hvlt, angleSub_of_lt hd hclt, angleSub_of_lt hclt hd]
  rw [mem_candidatesOf]
  refine exists_congr fun v => ?_
  rw [mem_pairsOf hc.symm]
  constructor
  · rintro ⟨hlv, ⟨c, hcs, hvolt, hpol, hdist⟩, hnear⟩
    exact ⟨c, hlv, hcs, hvolt, hpol, hdist.trans (hdistance hlv hcs), hnear⟩
  · rintro ⟨c, hlv, hcs, hvolt, hpol, hdist, hnear⟩
    exact ⟨hlv, ⟨c, hcs, hvolt, hpol, hdist.trans (hdistance hlv hcs).symm⟩, hnear⟩

/-! ## The outcome of the candidates (R45) -/

theorem nearest_eq_none {cs : List AssociationPair} (h : nearest cs = none) : cs = [] := by
  cases cs with
  | nil => rfl
  | cons p ps =>
    unfold nearest at h
    split at h
    · cases h
    · split at h <;> cases h

theorem nearest_spec {cs : List AssociationPair} {n : AssociationPair} (h : nearest cs = some n) :
    n ∈ cs ∧ ∀ p, p ∈ cs → n.distance ≤ p.distance := by
  induction cs generalizing n with
  | nil => cases h
  | cons p ps ih =>
    unfold nearest at h
    split at h
    · next hn =>
      obtain rfl := Option.some.inj h
      rw [nearest_eq_none hn]
      refine ⟨List.mem_singleton_self _, fun q hq => ?_⟩
      rw [List.mem_singleton.mp hq]
    · next q hq =>
      obtain ⟨hmem, hle⟩ := ih hq
      split at h
      · next hd =>
        obtain rfl := Option.some.inj h
        exact ⟨List.mem_cons_self, List.forall_mem_cons.mpr ⟨Nat.le_refl _, fun s hs => Nat.le_trans hd (hle s hs)⟩⟩
      · next hd =>
        obtain rfl := Option.some.inj h
        exact ⟨List.mem_cons_of_mem p hmem, List.forall_mem_cons.mpr ⟨by omega, hle⟩⟩

theorem nearest_of_mem {cs : List AssociationPair} {p : AssociationPair} (h : p ∈ cs) : ∃ n, nearest cs = some n := by
  cases hn : nearest cs with
  | none =>
    rw [nearest_eq_none hn] at h
    cases h
  | some n => exact ⟨n, rfl⟩

section

variable {cs : List AssociationPair} {n : AssociationPair} (hn : nearest cs = some n)
include hn

theorem outcomeOf_close {q : AssociationPair} (hq : q ∈ cs) (hne : q ≠ n) (hd : q.distance < n.distance + 100) :
    outcomeOf cs = .twoCandidates := by
  unfold outcomeOf
  rw [hn]
  refine if_pos (List.any_eq_true.mpr ⟨q, List.mem_filter.mpr ⟨hq, (bne_iff_ne (a := q) (b := n)).mpr hne⟩, ?_⟩)
  exact decide_eq_true hd

theorem outcomeOf_alone (h : ∀ p, p ∈ cs → p ≠ n → n.distance + 100 ≤ p.distance) :
    outcomeOf cs = .candidate n.voltage n.polarity := by
  unfold outcomeOf
  rw [hn]
  refine if_neg fun hany => ?_
  obtain ⟨q, hq, hd⟩ := List.any_eq_true.mp hany
  obtain ⟨hmem, hne⟩ := List.mem_filter.mp hq
  exact absurd (of_decide_eq_true hd) (Nat.not_lt.mpr (h q hmem (bne_iff_ne.mp hne)))

end

theorem outcomeOf_of_alone {cs : List AssociationPair} {n : AssociationPair} (hn : n ∈ cs)
    (h : ∀ p, p ∈ cs → p ≠ n → n.distance + 100 ≤ p.distance) : outcomeOf cs = .candidate n.voltage n.polarity := by
  obtain ⟨m, hm⟩ := nearest_of_mem hn
  obtain ⟨hmem, hle⟩ := nearest_spec hm
  have hmn : m = n := by
    by_contra hne
    have h1 := h m hmem hne
    have h2 := hle n hn
    omega
  subst hmn
  exact outcomeOf_alone hm h

theorem outcomeOf_of_close {cs : List AssociationPair} {n q : AssociationPair} (hn : n ∈ cs) (hq : q ∈ cs) (hne : q ≠ n)
    (hmin : ∀ p, p ∈ cs → n.distance ≤ p.distance) (hd : q.distance < n.distance + 100) :
    outcomeOf cs = .twoCandidates := by
  obtain ⟨m, hm⟩ := nearest_of_mem hn
  obtain ⟨hmem, hle⟩ := nearest_spec hm
  have hmn := hmin m hmem
  by_cases hnm : n = m
  · subst hnm
    exact outcomeOf_close hm hq hne hd
  · exact outcomeOf_close hm hn hnm (by omega)

/-! ## The association of five outcomes (R46) -/

theorem firstOpen_append {before : List BlockOutcome} (h1 : .noCandidate ∉ before) (h2 : .twoCandidates ∉ before)
    (os : List BlockOutcome) : firstOpen (before ++ os) = firstOpen os := by
  induction before with
  | nil => rfl
  | cons o rest ih =>
    have ih := ih (fun h => h1 (List.mem_cons_of_mem o h)) (fun h => h2 (List.mem_cons_of_mem o h))
    cases o with
    | noCandidate => exact absurd List.mem_cons_self h1
    | twoCandidates => exact absurd List.mem_cons_self h2
    | lowCurrent => exact ih
    | candidate v p => exact ih

theorem associationOf_lowCurrent {os : List BlockOutcome} (h : .lowCurrent ∈ os) : associationOf os = .lowCurrent :=
  if_pos (c := os.any (· == .lowCurrent) = true) (List.any_eq_true.mpr ⟨.lowCurrent, h, rfl⟩)

theorem any_lowCurrent_eq_false {os : List BlockOutcome} (h : .lowCurrent ∉ os) :
    os.any (· == .lowCurrent) = false := by
  rw [List.any_eq_false]
  intro o ho heq
  rw [beq_iff_eq.mp heq] at ho
  exact h ho

theorem associationOf_open {os : List BlockOutcome} {a : Association} (hl : .lowCurrent ∉ os)
    (h : firstOpen os = some a) : associationOf os = a := by
  unfold associationOf
  rw [any_lowCurrent_eq_false hl, h]
  exact if_neg Bool.false_ne_true

/-- Outcomes that are all candidates: one association when they agree, Unstable otherwise. -/
theorem associationOf_candidates {v : Input} {p : Polarity} {rest : List BlockOutcome}
    (h : ∀ o, o ∈ rest → ∃ w q, o = .candidate w q) : associationOf (.candidate v p :: rest) =
      if ∀ o, o ∈ rest → o = .candidate v p then .associated v p else .unstable := by
  have hmem {o : BlockOutcome} (ho : o ∈ rest) (hne : ∀ w q, o ≠ .candidate w q) : False := by
    obtain ⟨w, q, hwq⟩ := h o ho
    exact hne w q hwq
  have hlow : BlockOutcome.lowCurrent ∉ BlockOutcome.candidate v p :: rest :=
    List.not_mem_cons_of_ne_of_not_mem (by simp) fun ho => hmem ho (by simp)
  have hopen : firstOpen rest = none := by
    have ha := firstOpen_append (fun ho => hmem ho (by simp)) (fun ho => hmem ho (by simp)) (before := rest) []
    rw [List.append_nil] at ha
    exact ha
  unfold associationOf
  rw [any_lowCurrent_eq_false hlow, show firstOpen (.candidate v p :: rest) = none from hopen]
  refine (if_neg Bool.false_ne_true).trans (if_congr ?_ rfl rfl)
  simp only [List.all_eq_true, beq_iff_eq]

theorem associationOf_same {os : List BlockOutcome} {v : Input} {p : Polarity} (hne : os ≠ [])
    (h : ∀ o, o ∈ os → o = .candidate v p) : associationOf os = .associated v p := by
  cases os with
  | nil => exact absurd rfl hne
  | cons o rest =>
    obtain ⟨rfl, hrest⟩ := List.forall_mem_cons.mp h
    rw [associationOf_candidates fun o ho => ⟨v, p, hrest o ho⟩]
    exact if_pos hrest

theorem associationOf_mixed {os : List BlockOutcome} (h : ∀ o, o ∈ os → ∃ v p, o = .candidate v p)
    {o q : BlockOutcome} (ho : o ∈ os) (hq : q ∈ os) (hne : o ≠ q) : associationOf os = .unstable := by
  cases os with
  | nil => cases ho
  | cons first rest =>
    obtain ⟨⟨v, p, rfl⟩, hrest⟩ := List.forall_mem_cons.mp h
    rw [associationOf_candidates hrest]
    refine if_neg fun hsame => hne ?_
    have hevery : ∀ o, o ∈ BlockOutcome.candidate v p :: rest → o = .candidate v p :=
      List.forall_mem_cons.mpr ⟨rfl, hsame⟩
    exact (hevery o ho).trans (hevery q hq).symm

end Sys2Proof.Machine

/-! # What a completed check concludes: findings, verdict, corrections and its site (R48 to R50) -/

namespace Sys2Proof.Machine

/-! ## The roles found (R48) -/

theorem voltageRoleFound_eq (r : RotationResult) (role : Role) : voltageRoleFound r role =
    if role = .unused then none
    else if r = .acb ∧ role = .l2 then some .l3
    else if r = .acb ∧ role = .l3 then some .l2 else some role := by
  cases role <;> cases r <;> rfl

/-- The rotation ACB exchanges the second and the third line; no other result changes a line role. -/
theorem voltageRoleFound_ne_iff (r : RotationResult) (role : Role) :
    role.isL = true ∧ voltageRoleFound r role ≠ some role ↔ r = .acb ∧ (role = .l2 ∨ role = .l3) := by
  cases role <;> cases r <;> decide

section

variable (c : CheckRecord) (m : ChannelMap) (a : PerInput (Option Association)) {i : Input}

theorem roleFoundOf_voltage (hi : i.isVoltage = true) :
    roleFoundOf c m a i = voltageRoleFound c.rotation (m.get i).role := if_pos hi

variable (hi : i.isVoltage = false)
include hi

theorem roleFoundOf_neutral (hr : (m.get i).role = .n) : roleFoundOf c m a i = some .n := by
  unfold roleFoundOf
  rw [if_neg (by rw [hi]; exact Bool.false_ne_true), hr]

theorem roleFoundOf_associated (hr : (m.get i).role ≠ .n) {v : Input} {p : Polarity}
    (ha : a.get i = some (.associated v p)) :
    roleFoundOf c m a i = voltageRoleFound c.rotation (m.get v).role := by
  unfold roleFoundOf
  rw [if_neg (by rw [hi]; exact Bool.false_ne_true), ha]
  split
  · next h => exact absurd h hr
  · next h _ => rw [(Association.associated.inj (Option.some.inj h)).1]
  · next h => exact absurd rfl (h v p)

theorem roleFoundOf_unassociated (hr : (m.get i).role ≠ .n) (ha : ∀ v p, a.get i ≠ some (.associated v p)) :
    roleFoundOf c m a i = none := by
  unfold roleFoundOf
  rw [if_neg (by rw [hi]; exact Bool.false_ne_true)]
  split
  · next h => exact absurd h hr
  · next h _ => exact absurd h (ha _ _)
  · rfl

end

/-! ## The findings (R48) -/

section

variable (c : CheckRecord) (m : ChannelMap) (a : PerInput (Option Association)) (i : Input)

theorem findingsOf_rotation_iff : (findingsOf c m a i).rotation = true ↔
    i.isVoltage = true ∧ c.rotation = .acb ∧ ((m.get i).role = .l2 ∨ (m.get i).role = .l3) := by
  change (i.isVoltage && (m.get i).role.isL && decide (roleFoundOf c m a i ≠ some (m.get i).role)) = true ↔ _
  rw [Bool.and_eq_true, Bool.and_eq_true, decide_eq_true_iff, and_assoc]
  refine and_congr_right fun hi => ?_
  rw [roleFoundOf_voltage c m a hi]
  exact voltageRoleFound_ne_iff c.rotation (m.get i).role

theorem findingsOf_otherPhase_iff : (findingsOf c m a i).otherPhase = true ↔
    i.isVoltage = false ∧ (m.get i).role.isL = true
      ∧ ∃ r, roleFoundOf c m a i = some r ∧ r ≠ (m.get i).role := by
  change (!i.isVoltage && (m.get i).role.isL && (roleFoundOf c m a i).isSome
    && decide (roleFoundOf c m a i ≠ some (m.get i).role)) = true ↔ _
  rw [Bool.and_eq_true, Bool.and_eq_true, Bool.and_eq_true, Bool.not_eq_true', decide_eq_true_iff, and_assoc, and_assoc]
  refine and_congr_right fun _ => and_congr_right fun _ => ?_
  cases roleFoundOf c m a i with
  | none => exact iff_of_false (fun ⟨h, _⟩ => Bool.false_ne_true h) (fun ⟨_, h, _⟩ => (nomatch h))
  | some r =>
    constructor
    · rintro ⟨-, hne⟩
      exact ⟨r, rfl, fun hr => hne (congrArg some hr)⟩
    · rintro ⟨q, hq, hne⟩
      rw [hq]
      exact ⟨rfl, fun hr => hne (Option.some.inj hr)⟩

theorem associatedPolarity_eq_some_iff (q : Option Association) (p : Polarity) :
    associatedPolarity q = some p ↔ ∃ v, q = some (.associated v p) := by
  unfold associatedPolarity
  split
  · next v r =>
    refine ⟨fun h => ⟨v, by rw [Option.some.inj h]⟩, fun ⟨w, h⟩ => ?_⟩
    rw [(Association.associated.inj (Option.some.inj h)).2]
  · next h => exact ⟨fun hn => (nomatch hn), fun ⟨w, hw⟩ => absurd hw (h w p)⟩

theorem isUndetermined_iff (q : Option Association) : isUndetermined q = true ↔
    q ∈ [some .lowCurrent, some .noCandidate, some .twoCandidates, some .unstable] := by
  unfold isUndetermined
  split <;> simp

end

/-! ## The findings left and the verdict (R48) -/

theorem findingLeft_iff (autoCorrect : Bool) (f : Findings) : findingLeft autoCorrect f = true ↔
    f.undetermined = true ∨ f.notFitted = true ∨ f.short = true
      ∨ (autoCorrect = false ∧ (f.rotation = true ∨ f.otherPhase = true ∨ f.reversed = true)) := by
  unfold findingLeft Findings.any Findings.uncorrectable
  cases autoCorrect <;> simp [or_assoc]

theorem Input.all_any {p : Input → Bool} : Input.all.any p = true ↔ ∃ i, p i = true := by
  rw [List.any_eq_true]
  refine ⟨fun ⟨i, _, h⟩ => ⟨i, h⟩, fun ⟨i, h⟩ => ⟨i, ?_, h⟩⟩
  cases i <;> decide

theorem mapDiffers_iff (m n : ChannelMap) : mapDiffers m n = true ↔ ∃ i, (n.get i).role ≠ (m.get i).role
    ∨ (n.get i).scale ≠ (m.get i).scale ∨ (n.get i).invert ≠ (m.get i).invert := by
  unfold mapDiffers
  rw [Input.all_any]
  refine exists_congr fun i => ?_
  simp only [Bool.not_eq_true', Bool.and_eq_false_iff, decide_eq_false_iff_not, or_assoc, ne_comm (a := (n.get i).role),
    ne_comm (a := (n.get i).scale), ne_comm (a := (n.get i).invert), ne_eq]

section

variable (x : Site) (o : Conclusion)

theorem verdictOf_cases : verdictOf x o = .passed ∨ verdictOf x o = .corrected ∨ verdictOf x o = .findings := by
  unfold verdictOf
  split
  · exact .inr (.inr rfl)
  · split
    · exact .inr (.inl rfl)
    · exact .inl rfl

theorem verdictOf_findings_iff : verdictOf x o = .findings ↔
    ∃ i, findingLeft x.options.autoCorrect (o.findings.get i) = true := by
  unfold verdictOf
  rw [← Input.all_any]
  split
  · next h => exact iff_of_true rfl h
  · next h => exact iff_of_false (by split <;> exact (nomatch ·)) h

theorem verdictOf_corrected_iff : verdictOf x o = .corrected ↔
    (¬ ∃ i, findingLeft x.options.autoCorrect (o.findings.get i) = true) ∧ mapDiffers x.map o.map = true := by
  unfold verdictOf
  rw [← Input.all_any]
  split
  · next h => exact iff_of_false (nomatch ·) fun hn => hn.1 h
  · next h =>
    split
    · next hd => exact iff_of_true rfl ⟨h, hd⟩
    · next hd => exact iff_of_false (nomatch ·) fun hn => hd hn.2

theorem verdictOf_ready : (verdictOf x o).ready = true := by
  rcases verdictOf_cases x o with h | h | h <;> rw [h] <;> rfl

end

/-! ## The corrected map (R49) -/

/-- Two maps with the same scales and presences. -/
def SameScales (m n : ChannelMap) : Prop :=
  ∀ i, (n.get i).scale = (m.get i).scale ∧ (n.get i).presence = (m.get i).presence

theorem displace_scales (m : ChannelMap) (i : Input) : SameScales m (displace m i) := by
  intro j
  unfold displace
  split
  · rw [PerInput.get_set]
    split
    · next h => rw [h]; exact ⟨rfl, rfl⟩
    · exact ⟨rfl, rfl⟩
  · exact ⟨rfl, rfl⟩

theorem foldl_displace_scales (out : List Input) (m : ChannelMap) : SameScales m (out.foldl displace m) := by
  induction out generalizing m with
  | nil => exact fun _ => ⟨rfl, rfl⟩
  | cons i rest ih =>
    intro j
    obtain ⟨hs, hp⟩ := ih (displace m i) j
    obtain ⟨hs', hp'⟩ := displace_scales m i j
    exact ⟨hs.trans hs', hp.trans hp'⟩

section

variable (c : CheckRecord) (x : Site) (a : PerInput (Option Association))

/-- The map after steps 1 and 2 of R49. -/
def movedMap : ChannelMap :=
  PerInput.of fun i => correctEntry ((conclude c x a).roleFound.get i) ((conclude c x a).findings.get i) (x.map.get i)

theorem conclude_map_kept (h : x.options.autoCorrect = false) : (conclude c x a).map = x.map :=
  if_neg (by rw [h]; exact Bool.false_ne_true)

theorem conclude_map_corrected (h : x.options.autoCorrect = true) : (conclude c x a).map =
    (Input.currents.filter (isDisplaced x.map (movedMap c x a) (conclude c x a).roleFound)).foldl displace
      (movedMap c x a) := if_pos h

theorem movedMap_scales : SameScales x.map (movedMap c x a) := by
  intro i
  unfold movedMap
  rw [PerInput.get_of]
  exact ⟨rfl, rfl⟩

theorem conclude_scales : SameScales x.map (conclude c x a).map := by
  cases h : x.options.autoCorrect with
  | false =>
    rw [conclude_map_kept c x a h]
    exact fun _ => ⟨rfl, rfl⟩
  | true =>
    rw [conclude_map_corrected c x a h]
    intro i
    obtain ⟨hs, hp⟩ := foldl_displace_scales
      (Input.currents.filter (isDisplaced x.map (movedMap c x a) (conclude c x a).roleFound)) (movedMap c x a) i
    obtain ⟨hs', hp'⟩ := movedMap_scales c x a i
    exact ⟨hs.trans hs', hp.trans hp'⟩

theorem conclude_findings (i : Input) : (conclude c x a).findings.get i = findingsOf c x.map a i := PerInput.get_of _ i

theorem conclude_roleFound (i : Input) : (conclude c x a).roleFound.get i = roleFoundOf c x.map a i := PerInput.get_of _ i

end

end Sys2Proof.Machine

/-! # The phases of a check settled (R41, R44 to R50) -/

namespace Sys2Proof.Machine

/-! ## The ends of a check -/

/-- A lead Absent at the end of the Presence phase ends the check. -/
theorem exec_presencePhaseEnd_absent {s : State} {c : CheckRecord} {x : Site} (hc : s.check = some c)
    (hx : s.site c.slot = some x) {fin : Stamp} (hp : c.phase = .presence) (hf : c.presenceEnd = some fin)
    (hw : x.wiring ≠ .single) {i : Input} (hv : i.isVoltage = true) (hl : (c.judged.get i).roleAtStart.isL = true)
    (ha : (c.judged.get i).presence = .absent) : ∃ t, exec .presencePhaseEnd s = .next t
      ∧ CheckBroken s t c.slot x .unusable (some .noRotation) := by
  let d : CheckRecord := { c.endPresence x.wiring fin with rotation := .indeterminate }
  have hslot : d.slot = c.slot := c.endPresence_slot x.wiring fin
  have hbroken := State.breakCheck_broken s d x (.unusable .noRotation) (by rw [hslot]; exact hx) (.inr ⟨_, rfl⟩)
  rw [hslot] at hbroken
  refine ⟨s.breakCheck d (.unusable .noRotation), (exec_presencePhaseEnd hc hx hp hf).trans (if_pos ?_), hbroken⟩
  rw [CheckRecord.endPresence_phases c hw]
  exact ⟨rfl, (CheckRecord.anyAbsent_iff _).mpr ⟨i, hv, hl, ha⟩⟩

/-- The map that a check leaves with a verdict that gives Ready (steps 1, 3 and 4 of R50). -/
theorem Site.checked_entry {x : Site} (c : CheckRecord) {v : CheckVerdict} {o : Conclusion}
    (hv : v = .passed ∨ v = .corrected ∨ v = .findings) (ho : SameScales x.map o.map) {y : Site}
    (hy : y.map = (x.checked c v o).map) (i : Input) :
    (y.map.get i).role = (o.map.get i).role ∧ (y.map.get i).scale = (x.map.get i).scale
      ∧ (y.map.get i).invert = (o.map.get i).invert
      ∧ ((y.map.get i).verified = true ↔ (o.map.get i).role ≠ .unused
        ∧ (v ≠ .findings ∨ findingLeft x.options.autoCorrect (o.findings.get i) = false))
      ∧ (y.map.get i).presence = if x.returnState = some .paused then (x.map.get i).presence
        else presenceOf (c.inputs.get i).presence := by
  obtain ⟨hscale, hpresence⟩ := ho i
  rw [hy, Site.checked_map, ← hpresence]
  exact ⟨rfl, hscale, rfl, verifiedAfter_iff x o hv i, presenceAfter_eq x c hv (o.map.get i) i⟩

/-- Settles O36: the record of a check over its phases, what a qualifying block adds to it, and what a completed
check concludes and leaves. -/
theorem checksGoThroughTheirPhases : Obligations.ChecksGoThroughTheirPhases := by
  unfold Obligations.ChecksGoThroughTheirPhases
  refine ⟨fun s c x hc hx => ⟨?presence, fun p hp hr hpat => exec_rotationFound hc hp hr hpat, ?conflict, ?verdict⟩,
    fun c x b began fin hs hr hl ha => ⟨?rotation, ?association⟩, ?pattern, fun x r b i e he =>
      ⟨clampOutcome_low he, fun a => clampOutcome_judged he⟩, ?candidates,
    fun cs => ⟨?noPairs, fun n => outcomeOf_of_alone, fun n q => outcomeOf_of_close⟩,
    fun os => ⟨associationOf_lowCurrent, ?opened, ?agreed, ?unstable⟩, ?found, ?left, ?corrections⟩
  case presence =>
    rintro fin judged hp hf rfl
    have hexec := exec_presencePhaseEnd hc hx hp hf
    refine ⟨fun hw => ?single, fun hw hpresent => ?phases,
      fun i hw hv hl hab => exec_presencePhaseEnd_absent hc hx hp hf hw hv hl hab, fun i hv hl => ?judged⟩
    case single =>
      rw [hexec, hw, CheckRecord.endPresence_single, if_neg fun h => nomatch h.1]
      rfl
    case phases =>
      rw [hexec, CheckRecord.endPresence_phases c hw, if_neg]
      · rfl
      · rintro ⟨-, habsent⟩
        obtain ⟨i, hv, hl, hab⟩ := (CheckRecord.anyAbsent_iff _).mp habsent
        exact hpresent i hv hl hab
    case judged =>
      rw [PerInput.get_of]
      exact InputCheck.judgePresence_line hv hl
  case conflict =>
    rintro a hp hr rfl hconf
    exact ⟨_, exec_associationComplete_conflict hc hx hp hr hconf,
      State.endCheck_broken s c c x (.unusable .clampConflict) true _ hx (.inr ⟨_, rfl⟩)⟩
  case verdict =>
    rintro a o v hp hr rfl hconf rfl rfl
    have hv := verdictOf_cases x (conclude c x (associations c true))
    have hclosed : verdictOf x (conclude c x (associations c true)) ≠ .closed := by
      rcases hv with h | h | h <;> rw [h] <;> decide
    obtain ⟨hcheck, hattends, ⟨y, hy, hcore, hmap⟩, hstops, hothers, hsag, hinterval, hprint⟩ :=
      State.endCheck_rest hx _ true (conclude c x (associations c true)) hclosed
    have hsteady := State.endCheck_steady s c (verdictOf x (conclude c x (associations c true))) true
      (conclude c x (associations c true))
    refine ⟨_, y, exec_associationComplete_verdict hc hx hp hr hconf, hcheck, hattends, verdictOf_ready _ _, hy,
      hcore.trans (Site.checked_core x c _ hv), fun i => ?entry, hstops, hothers, hsteady.time, hsteady.link, hsag,
      hinterval, hprint⟩
    case entry =>
      rw [← presenceOf_eq]
      exact Site.checked_entry c hv (conclude_scales c x _) hmap i
  case rotation =>
    rintro p hp rfl
    rw [CheckRecord.takeBlock_rotation hs hr hl ha hp]
    exact CheckRecord.takeRotation_eq c x.map b fin
  case association =>
    intro hp href
    rw [CheckRecord.takeBlock_association hs hr hl ha hp href]
    exact CheckRecord.takeAssociation_eq c x b fin
  case pattern =>
    rintro m b v a d2 d3 hv ha rfl rfl
    obtain ⟨ha1, hlt1⟩ := ha .l1 (by decide)
    obtain ⟨ha2, hlt2⟩ := ha .l2 (by decide)
    obtain ⟨ha3, hlt3⟩ := ha .l3 (by decide)
    rw [← angleSub_of_lt hlt2 hlt1, ← angleSub_of_lt hlt3 hlt1]
    exact blockPattern_of_angles (roleAngle_of_holder (fun i => hv .l1 i (by decide)) ha1)
      (roleAngle_of_holder (fun i => hv .l2 i (by decide)) ha2)
      (roleAngle_of_holder (fun i => hv .l3 i (by decide)) ha3)
  case candidates =>
    intro x r b a angle first second p hlt hangle hcentres
    exact mem_candidatesOf_angles hlt hangle (hcentres.trans (centres_eq _ _).symm) p
  case noPairs =>
    rintro rfl
    rfl
  case opened =>
    rintro before o after hlow rfl hnone htwo
    have hopen := firstOpen_append hnone htwo (o :: after)
    refine ⟨?no, ?two⟩
    case no =>
      rintro rfl
      exact associationOf_open hlow hopen
    case two =>
      rintro rfl
      exact associationOf_open hlow hopen
  case agreed => exact fun v p => associationOf_same
  case unstable =>
    rintro hall ⟨o, q, ho, hq, hne⟩
    exact associationOf_mixed hall ho hq hne
  case found =>
    rintro c x a i o f role rfl rfl rfl
    rw [conclude_findings]
    refine ⟨findingsOf_rotation_iff c x.map a i, ?other,
      decide_eq_true_iff.trans (associatedPolarity_eq_some_iff _ _), isUndetermined_iff _, decide_eq_true_iff,
      decide_eq_true_iff, fun hi => ?voltage, fun hi => ⟨fun hr => ?neutral,
        fun v p hr hv hassoc => ?associated, fun hr hnot => ?unassociated⟩⟩
    case other =>
      rw [conclude_roleFound]
      exact findingsOf_otherPhase_iff c x.map a i
    case voltage =>
      rw [conclude_roleFound, roleFoundOf_voltage _ _ _ hi]
      exact voltageRoleFound_eq _ _
    case neutral =>
      rw [conclude_roleFound]
      exact roleFoundOf_neutral _ _ _ hi hr
    case associated =>
      rw [conclude_roleFound, conclude_roleFound, roleFoundOf_voltage _ _ _ hv]
      exact roleFoundOf_associated _ _ _ hi hr hassoc
    case unassociated =>
      rw [conclude_roleFound]
      exact roleFoundOf_unassociated _ _ _ hi hr hnot
  case left =>
    intro x o left hleft
    have hiff (i : Input) : findingLeft x.options.autoCorrect (o.findings.get i) = true ↔ left i :=
      (findingLeft_iff _ _).trans (hleft i _ rfl).symm
    refine ⟨hiff, (verdictOf_findings_iff x o).trans (exists_congr hiff), ?_, verdictOf_cases x o⟩
    rw [verdictOf_corrected_iff, mapDiffers_iff, exists_congr hiff, not_exists]
  case corrections =>
    rintro c x a o moved out rfl rfl rfl
    exact ⟨conclude_map_kept c x a, conclude_map_corrected c x a⟩

end Sys2Proof.Machine
